-- ==== Sys2Proof/Word.lean ====
section
/-! DEFINITION. The plain words of the model: bytes, byte strings and the Q formats of 00_scope.md R10. -/

namespace Sys2Proof

/-- One byte of a frame, an image or a memory (R8, R9). -/
abbrev Byte := BitVec 8

/-- A byte string, first byte first. -/
abbrev Bytes := List Byte

/-- A Q15 value, two's complement (R10). -/
abbrev Q15 := BitVec 16

/-- A Q9.31 accumulator value, 40 bits, two's complement (R10). -/
abbrev Acc := BitVec 40

/-- An IEEE 754 binary32 value by its bits (R10). -/
abbrev Real32 := BitVec 32

/-- A signal value: 32 bits, or 96 bits for DTIME (R83). -/
abbrev SigVal := BitVec 96

end Sys2Proof
end

