-- ==== Sys2Proof/Syntax/Data.lean ====
section
/-! DEFINITION. The operand types of the commands: what an event or a request carries into the block. -/

namespace Sys2Proof

/-- The request header of an engineering access command: session handle and `TID` (R563, R565). -/
structure Req where
  sess : Nat
  tid : BitVec 16
  deriving DecidableEq, Repr

/-- A main-side field output: a DIO channel or an AO channel (R29). -/
inductive OutCh where
  | dio (c : Fin 32)
  | ao (c : Fin 8)
  deriving DecidableEq, Repr

/-- Where an ECC error was found (R22, R24). -/
inductive EccSrc where
  | tcm (pair : Fin 4)
  | sram
  | dram
  | ceStore (lane : Fin 4)
  deriving DecidableEq, Repr

/-- A bell path (R326). -/
inductive BellPath where
  | twinLink
  | heartbeat
  deriving DecidableEq, Repr

/-- A signal cell: value and quality byte (R83, R84). -/
structure Cell where
  v : SigVal := 0
  q : BitVec 8 := 0
  deriving DecidableEq, Repr

/-- One entry of a task's output image (R135, R437, R209). -/
inductive OutItem where
  | dio (ch : Nat) (v : Bool)
  | ao (ch : Nat) (v : Real32)
  | rio (node offs : Nat) (bytes : Bytes)
  | term (loop : Nat) (sp ff : Q15) (mode : BitVec 16) (en : Bool) (tq : BitVec 2)
  | can (ctrl obj : Nat) (vals : List (BitVec 32))
  | btReq (axis : Nat) (v : Bool)
  deriving DecidableEq, Repr

/-- The data of one block after its header (R100): flags and the state that the types of R105 keep. -/
structure InstData where
  initDone : Bool := false
  migrated : Bool := false
  paramLast : Bool := false
  /-- Q of `SR`, `RS`, `TOF`, `CMP`. -/
  q : Bool := false
  /-- Edge memories (R110, R113, R601) and the mark that they hold a level (R111, FIRST 1). -/
  m1 : Bool := false
  m2 : Bool := false
  k1 : Bool := false
  k2 : Bool := false
  /-- Timers: ET in ms, the part of Δ below 1 ms in phases, timing in progress (R107, R108). -/
  et : Nat := 0
  sub : Nat := 0
  timing : Bool := false
  cv : Int := 0
  y : Real32 := 0
  /-- A `PID` came through the migration from version 1, which maps TF to 0 (R105, R156). -/
  mapTf : Bool := false
  /-- The state words of `PID`: integrator, previous PV, derivative part. -/
  st : List (BitVec 32) := []
  /-- `ACT_AT`: sequence number (R123). -/
  seq : BitVec 32 := 0
  status : BitVec 16 := 0
  /-- `CNT_IN` offset (R472); `TASK_TRIG` MISSED. -/
  off : Int := 0
  /-- Last usable value of each (P) port (R87). -/
  lastP : List (Option (BitVec 32)) := []
  /-- Release number and elapsed instant of the previous execution (R107). -/
  relAt : Nat := 0
  monoAt : Nat := 0
  ran : Bool := false
  /-- The instance has been carried into another task or plan: the next Δ is elapsed time (R157, R182). -/
  moved : Bool := false
  deriving DecidableEq, Repr

/-- A shadowed alarm point: what an `ALARM` record carries of it (R331, R332): `shelf` what is left of its shelving in ms, `held` the phases
for which c has stood against a, `cAt` and `onset` the instants of R253 with their time quality, the rate samples of R252. -/
structure PtShadow where
  pnum : Nat
  vis : BitVec 2
  oos : Bool
  suppressed : Bool
  cond : Bool
  c : Bool
  badq : Bool
  occ : BitVec 16
  first : Bool
  simul : Bool
  shelf : Option Nat := none
  held : Nat := 0
  cAt : BitVec 96 := 0
  onset : BitVec 96 := 0
  cTq : Nat := 0
  onTq : Nat := 0
  cAl : Option Nat := none
  samples : List (BitVec 32) := []
  since : Nat := 0
  value : BitVec 32 := 0
  deriving DecidableEq, Repr

/-- A first-out candidate in a shadowed group state (R269): node, point, onset in ticks, granularity and alignment in ns. -/
structure FoShadow where
  node : Nat
  pid : BitVec 32
  pnum : Nat
  tc : Nat
  sgran : Nat
  align : Option Nat
  deriving DecidableEq, Repr

/-- A first-out group in the shadow image (R260, R331): its state and epoch, its candidates, its last decision, the level of its reset
signal, and the phases that are left of its timers. -/
structure FoGroupShadow where
  gnum : Nat
  state : BitVec 2
  epoch : BitVec 16
  own : List FoShadow
  cands : List FoShadow
  winner : Option FoShadow
  simul : Bool
  partial_ : Bool
  uncertain : Bool
  nsim : Nat
  lastRst : Bool
  settleLeft : Option Nat
  partialLeft : Option Nat
  deriving DecidableEq, Repr

/-- One record of a shadow batch (R332). The spec gives no byte layout for the contents of the
shadow image, so a record carries the cells, blocks, images and points it holds. -/
inductive ShRec where
  | cell (sig : Nat) (c : Cell)
  | block (idx : Nat) (d : InstData)
  | output (items : List OutItem)
  | image (task : Nat) (apply : BitVec 64) (overrun : Bool) (items : List OutItem)
  | loop (lnum : Nat) (yPrev y0 : Q15) (k : Nat) (phase mode : Nat) (words : List (BitVec 32))
  | alarm (p : PtShadow)
  | foGroup (g : FoGroupShadow)
  | sgroup (grp : Nat) (active : Bool) (left : Option Nat) (badq : Bool)
  | timeBase (task : Nat) (relnum : Nat) (rem : Nat) (trigPending : Bool) (rootCount : Nat) (banks : BitVec 16) (lastRelease : Nat)
  | tou (unit : Nat) (target : BitVec 64) (period : Nat) (lockReq : Nat) (armed : Bool)
  | pubSeq (seq : BitVec 32)
  | commit (crc : BitVec 32)
  deriving DecidableEq, Repr

/-- The header of a shadow batch (R332). -/
structure BatchHdr where
  btype : Nat
  task : Nat
  overrun : Bool
  bseq : BitVec 32
  relnum : BitVec 32
  apply : BitVec 64
  nrec : Nat
  blen : Nat
  deriving DecidableEq, Repr

/-- What one shadow segment adds to the batch in progress (R332). -/
inductive ShSeg where
  | start (h : BatchHdr) (recs : List ShRec)
  | more (recs : List ShRec)
  deriving DecidableEq, Repr

/-- `HELLO` (R330). -/
structure Hello where
  fwMain : BitVec 32
  shadowLo : BitVec 32
  shadowHi : BitVec 32
  icrc : BitVec 32
  planHash : BitVec 256
  excl : BitVec 8
  slotB : Bool
  deriving DecidableEq, Repr

/-- What start-up meets that only the environment knows (R71, R183, R318): the self-test result
(bits [3:0] core pairs, [7:4] lanes failed), the `MAINT_N` and strap levels at t0, the time from t0
to step 11, the bell frames of the 2 ms that end at step 11 with the twin-link lanes up then, CAN transceiver loopback failures. -/
structure StartObs where
  selfTest : BitVec 8
  maintLow : Bool
  posHigh : Bool
  slotId : BitVec 4
  startMs : Nat
  bells : List Bytes
  lanes : BitVec 2
  canXcvrFail : BitVec 4
  cassettePresent : Bool
  clkinWindowsOk : Bool
  deriving DecidableEq, Repr

/-- An Announce message as the best master clock algorithm reads it (R286, IEEE 1588). -/
structure Announce where
  port : Fin 3
  gmId : BitVec 64
  senderId : BitVec 64
  prio1 : Nat
  clsQ : Nat
  accuracy : Nat
  variance : Nat
  prio2 : Nat
  stepsRemoved : Nat
  utcOffset : Int
  utcValid : Bool
  leap61 : Bool
  leap59 : Bool
  traceable : Bool
  deriving DecidableEq, Repr

/-- What R286 reads of every received PTP message besides its contents: domain, transport, sequence number, the sender's clock identity,
the correction field in 2⁻¹⁶ ns, the timestamp that it carries, and the phase of the ROOT cycle in which it arrived (R278). -/
structure PtpRx where
  domain : Nat
  udp : Bool
  seq : BitVec 16
  sender : BitVec 64
  correction : Int
  origin : BitVec 96
  phase : Fin 4
  deriving DecidableEq, Repr

/-- What the timestamps of a Sync give (R282, IEEE 1588-2019), and the port at which it came. -/
structure PtpOffset where
  port : Fin 3
  offsetNs : Int
  pathDelay : Nat
  deriving DecidableEq, Repr

/-- An Announce message as it is received. -/
structure AnnounceRx where
  h : PtpRx
  ann : Announce
  deriving DecidableEq, Repr

/-- `CYCLE` and `STIME` of an `IN` frame (R408). -/
structure InCycle where
  cycle : BitVec 32
  stime : BitVec 64
  deriving DecidableEq, Repr

/-- A PTP message that the module sends (R286, R287), by what IEEE 1588-2019 puts into it: `messageType`, `domainNumber`, `sequenceId`,
`clockIdentity` of the source port, transport, the two-step flag, the timestamp, the correction in 2⁻¹⁶ ns, the port to which a response
belongs, the data set of an Announce, and whether a management response reports an error. -/
structure PtpMsg where
  type : Nat
  domain : Nat
  seq : BitVec 16
  sender : BitVec 64
  udp : Bool := false
  twoStep : Bool := false
  origin : BitVec 96 := 0
  correction : Int := 0
  requester : BitVec 64 := 0
  ann : Option Announce := none
  refused : Bool := false
  deriving DecidableEq, Repr

/-- A client certificate as the handshake judges it (R557, R561, R562). -/
structure Cert where
  serial : Nat
  /-- Index of the authority to which the certificate chains. -/
  ca : Option Nat
  ownerSigned : Bool
  p256 : Bool
  notBefore : Nat
  notAfter : Nat
  deriving DecidableEq, Repr

/-- An Ethernet port number P1 to P5 as 0 to 4. -/
abbrev Port := Fin 5

/-- A received Ethernet frame, by what R391 to R399 and R419 read of it. -/
structure RxFrame where
  port : Port
  /-- Bytes on the wire from the destination address, VLAN tag included. -/
  len : Nat
  pcp : Option (Fin 8)
  etherType : BitVec 16
  udpDst : Option (BitVec 16)
  dst : BitVec 48
  src : BitVec 48
  /-- PRP or HSR sequence number, where the frame carries one. -/
  rctSeq : Option (BitVec 16)
  fcsOk : Bool
  /-- A fragment of an IPv4 packet (R393). -/
  frag : Bool := false
  payload : Bytes
  /-- The phase of 0.625 ns of the ROOT cycle in which the frame's start delimiter arrived (R278). -/
  phase : Fin 4 := 0
  deriving DecidableEq, Repr

/-- A CAN frame (R427). -/
structure CanFrame where
  id : BitVec 29
  ide : Bool
  fd : Bool
  brs : Bool
  remote : Bool
  data : Bytes
  deriving DecidableEq, Repr

/-- A CAN error cause, codes 1 to 4 of R440. -/
inductive CanErr where
  | bit
  | stuff
  | form
  | ack
  deriving DecidableEq, Repr

/-- One 10 µs sample of the island's inputs (R366, R378): the channels A and B of SI0 to SI7 and SL_IN, bit i of each word high while
the contact is closed, and the SENC tracks, A in bit 0 and B in bit 1. -/
structure SiSample where
  chA : BitVec 9
  chB : BitVec 9
  senc : BitVec 2
  deriving DecidableEq, Repr

/-- What the island's inputs show over one SI cycle (R366 to R378): the 25 samples, EDM0 to EDM7, the switch block, the voltage at SBC0 and
SBC1 (bit n), and whether lockstep, memory and program checks find no fault (R384). -/
structure SiIn where
  samples : List SiSample
  edm : BitVec 8
  switches : BitVec 16
  sbcVolt : BitVec 2
  selfOk : Bool
  /-- UFS and UB in mV (R384). -/
  ufsMv : Nat
  ubMv : Nat
  deriving DecidableEq, Repr

/-- The result of one island output test (R372, R384). -/
inductive OutTest where
  | pass
  | hsFail
  | lsFail
  | shortExt
  | cross (other : Fin 6)
  | vmon
  deriving DecidableEq, Repr

/-- A source that changed level at the supply supervisor (R509). -/
inductive SupNode where
  | vor
  | vin1
  | vin2
  deriving DecidableEq, Repr

/-- A gateable block (R508). -/
inductive GateBlk where
  | can (c : Fin 4)
  | mac (p : Fin 5)
  | hart
  | lane (l : Fin 4)
  | fmc
  | display
  deriving DecidableEq, Repr

/-- A clock domain (R18). -/
inductive Domain where
  | core
  | root
  | peri
  | net
  | io
  deriving DecidableEq, Repr

/-- An event offered to the recorder's writer (R528, R531). -/
structure ErEvent where
  type : BitVec 8
  sev : BitVec 3
  code : BitVec 16
  source : BitVec 32
  payload : Bytes
  deriving DecidableEq, Repr

/-- A subscription request (R569). -/
inductive SubReq where
  | alarms (fromSeq : BitVec 32)
  | events (minSev : Nat)
  | trend (period : Nat) (items : List (BitVec 16 × BitVec 8))
  | counters
  deriving DecidableEq, Repr

/-- A file of the FILE service (R571). -/
inductive FileName where
  | plan
  | trace
  | almsnap
  | er
  | pmcring
  | costs
  | ctab (n : Fin 16)
  | slot (n : Fin 8)
  | fwBoot
  | fwMain
  | fwSi
  deriving DecidableEq, Repr

/-- A block operation of the FILE service (R572). -/
inductive BlockOp where
  | read (offset count : Nat)
  | write (offset : Nat) (data : Bytes)
  deriving DecidableEq, Repr

/-- An item of a READ (R567). -/
structure ObjRef where
  index : BitVec 16
  sub : BitVec 8
  deriving DecidableEq, Repr

/-- An item of a WRITE (R567). -/
structure WriteItem where
  ref : ObjRef
  value : Bytes
  deriving DecidableEq, Repr

/-- A handshake's address (R559). -/
inductive EapAddr where
  | module
  | station
  deriving DecidableEq, Repr

/-- A patrol test of R345. -/
inductive Patrol where
  | sramTcm
  | dram
  | corePair (p : Fin 4)
  | lane (l : Fin 4)
  | dioStage (c : Fin 32)
  | aoStage (c : Fin 8)
  | adcRef
  | tlLane (l : Fin 2)
  deriving DecidableEq, Repr

/-- A Spoke node's answer to a `MGMT` request (R409). -/
inductive MgmtReply where
  | ident (vendor product : BitVec 32) (rev fwd : Nat) (serial : BitVec 64) (maxIn maxOut tprep tapp : Nat)
  | delay (roundTrip turn : Nat)
  | config (cstat : Nat)
  | loop
  | object (write : Bool) (status : Nat) (data : Bytes)
  deriving DecidableEq, Repr

/-- A branch condition of the control engine, codes 0 to 8 of R196. -/
inductive CeCond where
  | always
  | z
  | nz
  | n
  | nn
  | lim
  | nlim
  | first
  | nfirst
  deriving DecidableEq, Repr

/-- One CE instruction of R195, its fields read under R194. -/
inductive CeInstr where
  | nop
  | fin
  | ldx (x : Fin 8) (w : BitVec 8)
  | stx (x : Fin 8) (w : BitVec 8)
  | ldi (x : Fin 8) (imm : BitVec 16)
  | lda (a : Fin 4) (w : BitVec 8)
  | sta (a : Fin 4) (w : BitVec 8)
  | stq (a : Fin 4) (w : BitVec 8)
  | movq (x : Fin 8) (a : Fin 4)
  | ldax (a : Fin 4) (x : Fin 8)
  | mova (a b : Fin 4)
  | rd (x : Fin 8) (p : BitVec 8)
  | wr (x : Fin 8) (p : BitVec 8)
  | mpy (a : Fin 4) (x y : Fin 8)
  | mac (a : Fin 4) (x y : Fin 8)
  | msu (a : Fin 4) (x y : Fin 8)
  | adda (a b : Fin 4)
  | suba (a b : Fin 4)
  | addx (a : Fin 4) (x : Fin 8)
  | subx (a : Fin 4) (x : Fin 8)
  | addq (x y : Fin 8)
  | subq (x y : Fin 8)
  | nega (a : Fin 4)
  | absa (a : Fin 4)
  | sha (a : Fin 4) (s : BitVec 6)
  | lima (a : Fin 4) (x y : Fin 8)
  | cmpa (a : Fin 4) (x : Fin 8)
  | br (c : CeCond) (t : BitVec 7)
  | tbl (x : Fin 8) (tb : Fin 16) (e : Fin 4)
  | tblf (x : Fin 8) (tb : Fin 16) (e : Fin 4)
  | trc (x : Fin 8) (ch : Fin 16)
  | flg (set clr : BitVec 4)
  deriving DecidableEq, Repr

/-- A relayed file of R330: a cassette image or a compensation table. -/
inductive RelayFile where
  | slot (n : Fin 8)
  | ctab (n : Fin 16)
  deriving DecidableEq, Repr

/-- A PTP message that the module sends by itself (R286). -/
inductive PtpKind where
  | sync
  | announce
  | delayReq
  | pdelayReq
  deriving DecidableEq, Repr

/-- A HART response as the modem decodes it (R491, R493): command, response code, device status, data
and, for command 0, the identity it carries. -/
structure HartRsp where
  cmd : BitVec 8
  rc : BitVec 8
  devStat : BitVec 8
  data : Bytes
  mfr : BitVec 16
  expDt : BitVec 16
  devId : BitVec 24
  dv : List Real32
  deriving DecidableEq, Repr

end Sys2Proof
end

