-- ==== Sys2Proof/Syntax.lean ====
section
/-! DEFINITION. The commands of the block: one constructor per row of spec/opcode_table.json, with the
operands its rule names. -/

namespace Sys2Proof

/-- A command: an event that comes about in the module or at its boundary, or a request to it. -/
inductive Instr where
  /-- `LOCKSTEP_MISMATCH` (R25): A core pair comparator detects a lockstep mismatch; the fault aggregator releases the claim and the module becomes FAILED. -/
  | lockstepMismatch (pair : Fin 4)
  /-- `UNCORRECTABLE_ECC` (R24): An uncorrectable ECC error in TCM, execution SRAM, DRAM or a CE store is treated as a fatal condition. -/
  | uncorrectableEcc (src : EccSrc)
  /-- `CORRECTABLE_ECC` (R23): A correctable ECC error is corrected and written back, counted in the health word and recorded in the ER. -/
  | correctableEcc (src : EccSrc)
  /-- `WATCHDOG_EXPIRY` (R27): A core pair's 1 ms hardware watchdog expires; this is a software fault, so the claim is released and the module becomes FAILED. -/
  | watchdogExpiry (pair : Fin 4)
  /-- `FIRMWARE_EXCEPTION` (R27): A firmware exception that cannot be contained is handled as a software fault. -/
  | firmwareException (pair : Fin 4)
  /-- `CLAIM_KEEPER_EXPIRY` (R321): No refresh of the claim has arrived for 100 us, so the claim keeper releases the claim. -/
  | claimKeeperExpiry
  /-- `OUTPUT_TIMEOUT` (R29): The logic has been silent, or ACT has been clear, for an output stage's timeout, so the stage moves to HOLD or KICKSTAND. -/
  | outputTimeout (o : OutCh)
  /-- `ILK_PEER_CHANGE` (R584): The ILK_PEER receiver's reading changes between unclaimed, claimed and OPEN. -/
  | ilkPeerChange (mv : Nat) (held50 : Bool)
  /-- `ACT_LATCH_SET` (R323): The ACT latch sets once the own claim is asserted and ILK_PEER has read unclaimed for 20 us. -/
  | actLatchSet
  /-- `OUTPUT_ENABLE` (R30): The field output stages leave OFF and enable 5 us after the ACT latch sets. -/
  | outputEnable
  /-- `FAILED_RESTART` (R319): A FAILED module restarts by itself 100 ms after its fault record, unless the start limit holds it in FAILED. -/
  | failedRestart
  /-- `RESET_RELEASE` (R70): A power-on reset, reset pin or internal reset ends, fixing t0 of a start. -/
  | resetRelease (obs : StartObs)
  /-- `INTERNAL_RESET` (R70): The module asserts an internal reset for 1 ms for a commanded or self-made start. -/
  | internalReset
  /-- `RESET_PIN_PRESS` (R74): RESET_N has been held low for 50 ms, so the module is held in reset until the pin is released. -/
  | resetPinPress
  /-- `RESET_STUCK` (R74): RESET_N has stayed low for 10 s, so start-up begins with cause RESET_STUCK. -/
  | resetStuck (obs : StartObs)
  /-- `PENDING_WRITE_RESUME` (R79): A cassette or journal write held back by a low supply proceeds once the supply is back above its floor. -/
  | pendingWriteResume
  /-- `JOURNAL_WINDOW_WRITE` (R60): The time served in the commit window is written into the MRAM journal at least once per second. -/
  | journalWindowWrite
  /-- `COMMIT_WINDOW_COMPLETE` (R62): The commit window ends; the commit is recorded in the journal and a header with COMMIT 0 is written. -/
  | commitWindowComplete
  /-- `CADENCE_TICK` (R130): A 125 us cadence tick of device time is reached. -/
  | cadenceTick
  /-- `CYCLE_FINISH` (R135): A task cycle has executed its last invocation entry and its output image is complete. -/
  | cycleFinish (task : Fin 16) (execNs : Nat)
  /-- `APPLY_INSTANT` (R135): A cycle's apply instant is reached and its back buffer is applied, or the held outputs stay on an overrun. -/
  | applyInstant (task : Fin 16)
  /-- `ONLINE_PLAN_DONE` (R149): Phase 1 of an online change completes with a feasible plan, or refuses the activation. -/
  | onlinePlanDone
  /-- `ONLINE_PREPARE_DONE` (R149): Phase 2 completes; the header is written and the boundary is fixed. -/
  | onlinePrepareDone
  /-- `B_PROPOSAL_TIMEOUT` (R150): The partner has not acknowledged B 5 ms before it, so a new B is proposed. -/
  | bProposalTimeout
  /-- `REPLAN_SWITCH` (R182): A re-plan takes effect at the next common boundary and the moved state is transferred. -/
  | replanSwitch
  /-- `FRAME_BOUNDARY` (R206): At a 50 us frame boundary the staged values take effect, the ports are latched and the lanes start their loops. -/
  | frameBoundary
  /-- `NOP` (R195): CE instruction with no operation. -/
  | ceNop (lane : Fin 4)
  /-- `END` (R195): CE instruction that ends the loop execution. -/
  | ceEnd (lane : Fin 4)
  /-- `LDX` (R195): CE instruction that loads an X register from a state word. -/
  | ceLdx (lane : Fin 4) (x : Fin 8) (w : BitVec 8)
  /-- `STX` (R195): CE instruction that stores an X register, sign-extended, to a state word. -/
  | ceStx (lane : Fin 4) (x : Fin 8) (w : BitVec 8)
  /-- `LDI` (R195): CE instruction that loads an immediate value into an X register. -/
  | ceLdi (lane : Fin 4) (x : Fin 8) (imm : BitVec 16)
  /-- `LDA` (R195): CE instruction that loads an accumulator from two state words. -/
  | ceLda (lane : Fin 4) (a : Fin 4) (w : BitVec 8)
  /-- `STA` (R195): CE instruction that stores an accumulator to two state words. -/
  | ceSta (lane : Fin 4) (a : Fin 4) (w : BitVec 8)
  /-- `STQ` (R195): CE instruction that stores an accumulator converted to Q15 to a state word. -/
  | ceStq (lane : Fin 4) (a : Fin 4) (w : BitVec 8)
  /-- `MOVQ` (R195): CE instruction that converts an accumulator to Q15 into an X register. -/
  | ceMovq (lane : Fin 4) (x : Fin 8) (a : Fin 4)
  /-- `LDAX` (R195): CE instruction that loads an accumulator from an X register. -/
  | ceLdax (lane : Fin 4) (a : Fin 4) (x : Fin 8)
  /-- `MOVA` (R195): CE instruction that copies one accumulator to another. -/
  | ceMova (lane : Fin 4) (a b : Fin 4)
  /-- `IN` (R198): CE instruction that reads a latched input port. -/
  | ceIn (lane : Fin 4) (x : Fin 8) (p : BitVec 8)
  /-- `OUT` (R199): CE instruction that stages a value on a write port. -/
  | ceOut (lane : Fin 4) (x : Fin 8) (p : BitVec 8)
  /-- `MPY` (R195): CE instruction that multiplies two X registers into an accumulator. -/
  | ceMpy (lane : Fin 4) (a : Fin 4) (x y : Fin 8)
  /-- `MAC` (R195): CE instruction that adds a product to an accumulator, saturating. -/
  | ceMac (lane : Fin 4) (a : Fin 4) (x y : Fin 8)
  /-- `MSU` (R195): CE instruction that subtracts a product from an accumulator, saturating. -/
  | ceMsu (lane : Fin 4) (a : Fin 4) (x y : Fin 8)
  /-- `ADDA` (R195): CE instruction that adds two accumulators. -/
  | ceAdda (lane : Fin 4) (a b : Fin 4)
  /-- `SUBA` (R195): CE instruction that subtracts one accumulator from another. -/
  | ceSuba (lane : Fin 4) (a b : Fin 4)
  /-- `ADDX` (R195): CE instruction that adds an X register to an accumulator. -/
  | ceAddx (lane : Fin 4) (a : Fin 4) (x : Fin 8)
  /-- `SUBX` (R195): CE instruction that subtracts an X register from an accumulator. -/
  | ceSubx (lane : Fin 4) (a : Fin 4) (x : Fin 8)
  /-- `ADDQ` (R195): CE instruction that adds two X registers with Q15 saturation. -/
  | ceAddq (lane : Fin 4) (x y : Fin 8)
  /-- `SUBQ` (R195): CE instruction that subtracts two X registers with Q15 saturation. -/
  | ceSubq (lane : Fin 4) (x y : Fin 8)
  /-- `NEGA` (R195): CE instruction that negates an accumulator. -/
  | ceNega (lane : Fin 4) (a : Fin 4)
  /-- `ABSA` (R195): CE instruction that takes the absolute value of an accumulator. -/
  | ceAbsa (lane : Fin 4) (a : Fin 4)
  /-- `SHA` (R195): CE instruction that shifts an accumulator with rounding or saturation. -/
  | ceSha (lane : Fin 4) (a : Fin 4) (s : BitVec 6)
  /-- `LIMA` (R195): CE instruction that clamps an accumulator between two X registers. -/
  | ceLima (lane : Fin 4) (a : Fin 4) (x y : Fin 8)
  /-- `CMPA` (R195): CE instruction that sets Z and N from an accumulator minus an X register. -/
  | ceCmpa (lane : Fin 4) (a : Fin 4) (x : Fin 8)
  /-- `BR` (R196): CE instruction that branches forward when its condition holds. -/
  | ceBr (lane : Fin 4) (c : CeCond) (t : BitVec 7)
  /-- `TBL` (R224): CE instruction that interpolates a compensation table at an encoder position. -/
  | ceTbl (lane : Fin 4) (x : Fin 8) (tb : Fin 16) (e : Fin 4)
  /-- `TBLF` (R225): CE instruction that computes a friction term from a table and the smoothed velocity sign. -/
  | ceTblf (lane : Fin 4) (x : Fin 8) (tb : Fin 16) (e : Fin 4)
  /-- `TRC` (R195): CE instruction that writes an X register to a trace channel. -/
  | ceTrc (lane : Fin 4) (x : Fin 8) (ch : Fin 16)
  /-- `FLG` (R195): CE instruction that sets and clears the user flags of LFLAGS. -/
  | ceFlg (lane : Fin 4) (set clr : BitVec 4)
  /-- `TAB_SWITCH` (R228): A write of a table number requests a switch of that table's inactive bank. -/
  | tabSwitch (rq : Req) (n : BitVec 8)
  /-- `ALARM_ON_DELAY_EXPIRY` (R253): The condition has held TRUE for ONDLY, so the alarm condition rises. -/
  | alarmOnDelayExpiry (pnum : Nat)
  /-- `ALARM_OFF_DELAY_EXPIRY` (R253): The condition has held FALSE for OFFDLY, so the alarm condition falls. -/
  | alarmOffDelayExpiry (pnum : Nat)
  /-- `SHELVING_EXPIRY` (R257): A shelving duration runs out and the point is unshelved. -/
  | shelvingExpiry (pnum : Nat)
  /-- `SUPPRESSION_RELEASE` (R256): RELDLY has elapsed after the group signal fell, and the members are released. -/
  | suppressionRelease (grp : Fin 256)
  /-- `ALARM_ACK` (R579): Alarm command: acknowledge one occurrence of a point. -/
  | alarmAck (rq : Req) (num occ : BitVec 16)
  /-- `ALARM_SHELVE` (R579): Alarm command: shelve a point for a number of minutes. -/
  | alarmShelve (rq : Req) (num mins : BitVec 16)
  /-- `ALARM_UNSHELVE` (R579): Alarm command: unshelve a point. -/
  | alarmUnshelve (rq : Req) (num : BitVec 16)
  /-- `ALARM_OUT_OF_SERVICE` (R579): Alarm command: take a point out of service. -/
  | alarmOutOfService (rq : Req) (num : BitVec 16)
  /-- `ALARM_RETURN_TO_SERVICE` (R579): Alarm command: return a point to service. -/
  | alarmReturnToService (rq : Req) (num : BitVec 16)
  /-- `ALARM_ACK_GROUP` (R579): Alarm command: acknowledge the members of a first-out group. -/
  | alarmAckGroup (rq : Req) (num : BitVec 16)
  /-- `ALARM_ACK_ALL` (R579): Alarm command: acknowledge all points. -/
  | alarmAckAll (rq : Req)
  /-- `ALARM_FO_RESET` (R579): Alarm command: reset a first-out group through its arbiter. -/
  | alarmFoReset (rq : Req) (num : BitVec 16)
  /-- `FO_CANDIDATE` (R269): The arbiter receives a candidate message of a first-out group. -/
  | foCandidate (msg : Bytes)
  /-- `FO_DECIDED` (R269): A participant receives the arbiter's decision. -/
  | foDecided (msg : Bytes)
  /-- `FO_RESET` (R267): A participant receives a group reset with a new epoch and arms the group. -/
  | foReset (msg : Bytes)
  /-- `FO_SETTLE_EXPIRY` (R268): SETTLE has elapsed, so the arbiter decides the winner and sends FO_DECIDED. -/
  | foSettleExpiry (grp : Fin 256)
  /-- `FO_PARTIAL_DECISION` (R267): No decision arrived by SETTLE + 10 ms, so the participant decides locally with PARTIAL. -/
  | foPartialDecision (grp : Fin 256)
  /-- `PTP_SYNC` (R280): A Sync message from the parent updates the offset, the servo and the time quality. -/
  | ptpSync (h : PtpRx) (x : PtpOffset)
  /-- `PTP_ANNOUNCE` (R286): An Announce message feeds the best master clock algorithm and the UTC offset. -/
  | ptpAnnounce (a : AnnounceRx)
  /-- `PTP_DELAY_MESSAGE` (R286): A delay or peer-delay request or response is timestamped and answered. -/
  | ptpDelayMessage (port : Fin 3) (peer request : Bool) (h : PtpRx) (delayNs : Nat)
  /-- `PTP_MANAGEMENT` (R286): A management message is answered if it is a GET, and refused if it is a SET. -/
  | ptpManagement (port : Fin 3) (get : Bool) (h : PtpRx)
  /-- `ANNOUNCE_RECEIPT_TIMEOUT` (R280): The parent is lost and the quality moves to HOLDOVER or FREE. -/
  | announceReceiptTimeout
  /-- `HOLDOVER_LIMIT` (R280): The estimated error in holdover exceeds HOLD_LIMIT, so the quality becomes FREE. -/
  | holdoverLimit
  /-- `LEAP_SECOND` (R285): A pending leap changes the UTC offset at the end of the UTC day. -/
  | leapSecond
  /-- `TOU_FIRE` (R292): A timed-output unit reaches its target and fires, or re-arms if periodic. -/
  | touFire (u : Fin 32)
  /-- `TOU_PULSE_END` (R294): The trailing edge of a pulse follows after WIDTH, counted in ROOT cycles. -/
  | touPulseEnd (u : Fin 32)
  /-- `TCU_CAPTURE` (R303): An edge on a capture source is timestamped into the unit's FIFO. -/
  | tcuCapture (u : Fin 32) (rising : Bool) (phase : Fin 4)
  /-- `TCU_POP` (R303): A read returns and removes the oldest capture record. -/
  | tcuPop (rq : Req) (u : Fin 32)
  /-- `ACT_AT_MESSAGE` (R306): An act-at-time message is received, checked and mapped to armings. -/
  | actAtMessage (msg : Bytes)
  /-- `FRAME_LAUNCH` (R296): A head frame of a launch queue is released at its launch time. -/
  | frameLaunch (p : Port) (q : Fin 8)
  /-- `GATE_LIST_ENTRY` (R398): The gate control list moves to its next entry after the interval. -/
  | gateListEntry (p : Port)
  /-- `BELL_SEND` (R326): A bell is sent on the twin link and on the heartbeat pair every 25 us. -/
  | bellSend
  /-- `BELL_FRAME` (R328): A bell frame arrives over the twin link. -/
  | bellFrame (frame : Bytes)
  /-- `HEARTBEAT_FRAME` (R327): A heartbeat frame arrives on the heartbeat pair. -/
  | heartbeatFrame (bits : BitVec 20)
  /-- `BELL_PATH_SILENT` (R328): No valid bell has arrived on a path for LOSS_TMO. -/
  | bellPathSilent (path : BellPath)
  /-- `BELL_PATH_RESTORED` (R328): A path returns to service after 1 s of valid bells. -/
  | bellPathRestored (path : BellPath)
  /-- `STANDBY_CLAIM` (R322): The standby asserts its claim once ILK_PEER has read unclaimed for 2 us. -/
  | standbyClaim
  /-- `SLOT_A_CLAIM_EXPIRY` (R324): Slot A releases a conflicting claim after 1 ms. -/
  | slotAClaimExpiry
  /-- `CLAIM_WITHDRAW_RECHECK` (R324): 1 ms after withdrawing a claim made on bell silence, the module judges ILK_PEER. -/
  | claimWithdrawRecheck
  /-- `OPEN_WAIT_EXPIRY` (R324): ILK_PEER still reads OPEN 10 s after the release, so the module becomes DETACHED. -/
  | openWaitExpiry
  /-- `PEER_BLOCKED_TIMEOUT` (R318): An OFFLINE claimant's ACT has not latched within 2 ms against OPEN, so it becomes DETACHED with PEER_BLOCKED. -/
  | peerBlockedTimeout
  /-- `OFFLINE_REDECIDE` (R318): 2 ms after a withdrawal, an OFFLINE module decides its role again. -/
  | offlineRedecide
  /-- `PARTNER_GONE` (R320): A DETACHED or CATCHING_UP module finds its partner gone and restarts as SOLO. -/
  | partnerGone
  /-- `DETACH_REASON_CLEAR` (R320): The reason for DETACHED clears, so the module enters CATCHING_UP. -/
  | detachReasonClear
  /-- `SHADOW_SEGMENT` (R332): A shadow segment is received and appended to the batch in progress. -/
  | shadowSegment (seg : ShSeg)
  /-- `HELLO` (R330): A HELLO control message is received and the tandem checks run. -/
  | hello (h : Hello)
  /-- `B_PROPOSE` (R330): The partner receives a proposed switch boundary. -/
  | bPropose (b : BitVec 96) (num : BitVec 8)
  /-- `B_ACK` (R330): The ACTIVE module receives the acknowledgement of B. -/
  | bAck (num : BitVec 8)
  /-- `HO_REQ` (R340): A handover request is judged by the module holding ACT. -/
  | hoReq (reason : BitVec 8)
  /-- `HO_SET` (R340): The standby receives T_h and answers HO_ACK or HO_CANCEL. -/
  | hoSet (th : BitVec 96)
  /-- `HO_ACK` (R340): The module holding ACT receives the standby's acknowledgement. -/
  | hoAck (th : BitVec 96)
  /-- `HO_CANCEL` (R603): A handover is cancelled with a cause. -/
  | hoCancel (cause : BitVec 8)
  /-- `RESYNC_REQ` (R330): The active receives a resynchronisation request and sends bulk batches. -/
  | resyncReq (bseq : BitVec 32)
  /-- `RELAY` (R330): A relayed cassette image or CTAB block is written to the partner. -/
  | relay (f : RelayFile) (offset : Nat) (data : Bytes)
  /-- `RELAY_ACK` (R330): The partner confirms a relayed file with its CRC-32. -/
  | relayAck (f : RelayFile) (crc : BitVec 32)
  /-- `TWIN_LINK_LANE_CHANGE` (R335): A twin-link lane goes down or up, with the effect on shadowing. -/
  | twinLinkLaneChange (l : Fin 2) (up : Bool)
  /-- `HANDOVER_ACK_TIMEOUT` (R340): No HO_ACK 5 ms before T_h, so the handover is cancelled. -/
  | handoverAckTimeout
  /-- `HANDOVER_RELEASE` (R341): At T_h the module holding ACT releases its claim and becomes STANDBY. -/
  | handoverRelease
  /-- `HANDOVER_TAKE` (R341): At T_h + 1 us the standby claims. -/
  | handoverTake
  /-- `RESYNC_TIMEOUT` (R344): Resynchronisation is not complete within 10 s, so it retries or ends DETACHED. -/
  | resyncTimeout
  /-- `PATROL_TEST` (R345): A patrol self-test pass runs at its period. -/
  | patrolTest (t : Patrol) (pass late : Bool)
  /-- `HEALTH_RECOMPUTE` (R347): The health score and fitness are recomputed every 100 ms. -/
  | healthRecompute (tempC : Int) (ownPinOk : Bool)
  /-- `SWAP_HOLD_EXPIRY` (R349): The score margin has held for SWAP_HOLD, so a handover with reason 3 is requested. -/
  | swapHoldExpiry
  /-- `REVERT_DELAY_EXPIRY` (R350): The home conditions have held for T_REVERT, so a revert handover is requested. -/
  | revertDelayExpiry
  /-- `SI_CYCLE` (R367): A 250 us safety island cycle evaluates demands, faults and outputs. -/
  | siCycle (inp : SiIn)
  /-- `SI_FILTER_ELAPSED` (R367): An open channel has stayed open for the filter time f. -/
  | siFilterElapsed (pair : Fin 9) (chB : Bool)
  /-- `TEST_PULSE` (R368): A test-pulse mask window is judged for each closed channel. -/
  | testPulse (tp2 : Bool) (high : BitVec 9)
  /-- `SI_DISCREPANCY_TIMEOUT` (R369): The second channel has not followed within 100 ms. -/
  | siDiscrepancyTimeout (pair : Fin 9)
  /-- `SI_OUTPUT_TEST` (R372): A dark or bright test of an output switch runs once per second. -/
  | siOutputTest (out : Fin 7) (highSide : Bool) (res : OutTest)
  /-- `AUTO_RESTART_ELAPSED` (R374): With automatic restart, the conditions have held for 100 ms and the group energises. -/
  | autoRestartElapsed (grp : Fin 2)
  /-- `SI_MANUAL_RESET` (R374): The SI7 reset opens after a valid closure and energises the group. -/
  | siManualReset
  /-- `RESET_HELD` (R374): SI7 has stayed closed longer than 5 s, so RESET_HELD is set. -/
  | resetHeld
  /-- `EDM_TIMEOUT` (R376): The EDM inputs have not followed the output within 300 ms. -/
  | edmTimeout (out : Fin 4)
  /-- `SI_STATUS_REPORT` (R360): The main side receives the island's 10 ms status report and updates objects and the ER. -/
  | siStatusReport
  /-- `SWITCH_CHANGE` (R365): A change of the switch block puts the island in the safe state. -/
  | switchChange (img : BitVec 16)
  /-- `EXPECTED_REREAD` (R364): The island re-reads SAFETY_EXPECTED every 60 s and compares it. -/
  | expectedReread
  /-- `SI_SUPPLY_TRIP` (R358): The island supply monitor trips and the island enters its safe state. -/
  | siSupplyTrip
  /-- `SI_OSCILLATOR_FAULT` (R358): The island oscillator leaves its window and the island enters its safe state. -/
  | siOscillatorFault
  /-- `SI_START` (R385): The island verifies its image, reads the switches and the expected image, and starts. -/
  | siStart (img : BitVec 16) (imageOk : Bool)
  /-- `BT_REQ_RISE` (R379): BT_REQ rises and the brake test enters CHECKING. -/
  | btReqRise (n : Fin 2)
  /-- `BT_REQ_FALL` (R379): BT_REQ falls, ending or aborting the brake test. -/
  | btReqFall (n : Fin 2)
  /-- `BT_TORQUE_RISE` (R379): BT_TORQUE rises and the test enters RUNNING. -/
  | btTorqueRise (n : Fin 2)
  /-- `BT_TORQUE_FALL` (R379): BT_TORQUE falls before T_test and the test aborts. -/
  | btTorqueFall (n : Fin 2)
  /-- `BT_TORQUE_TIMEOUT` (R379): No torque within 10 s of GRANTED, so the test aborts. -/
  | btTorqueTimeout (n : Fin 2)
  /-- `BT_TEST_TIME_ELAPSED` (R379): T_test elapses with slip within the limit, so the test passes. -/
  | btTestTimeElapsed (n : Fin 2)
  /-- `BRAKE_TEST_DUE` (R380): The brake-test interval expires and DUE is set. -/
  | brakeTestDue (n : Fin 2)
  /-- `BRAKE_TEST_OVERDUE` (R380): A further 10 % of the interval passes, so OVERDUE is set and the brake is locked out. -/
  | brakeTestOverdue (n : Fin 2)
  /-- `UFS_LOW` (R384): UFS falls below 16 V and the SO outputs and SL_OUT go off. -/
  | ufsLow
  /-- `UB_LOW` (R384): UB falls below 18 V with SBC energised and is reported. -/
  | ubLow
  /-- `FRAME_RECEIVE` (R396): An Ethernet frame is received, classified and placed in the pool. -/
  | frameReceive (f : RxFrame)
  /-- `ARP_REQUEST` (R393): An ARP request for a module or station address is answered. -/
  | arpRequest (p : Port) (ip : BitVec 32) (asker : BitVec 48)
  /-- `ICMP_ECHO` (R393): An ICMP echo is answered, at most 10 per second. -/
  | icmpEcho (p : Port) (ip : BitVec 32) (asker : BitVec 48)
  /-- `SUPERVISION_FRAME` (R395): A PRP or HSR supervision frame is sent every 2 s. -/
  | supervisionFrame
  /-- `PORT_LINK_CHANGE` (R424): An Ethernet port's link goes up or down. -/
  | portLinkChange (p : Port) (up : Bool) (speed : BitVec 2)
  /-- `SPOKE_SYNC_LAUNCH` (R407): The master launches the SYNC frame of a Spoke cycle. -/
  | spokeSyncLaunch (sp : Fin 2)
  /-- `SPOKE_TIME_ONLY_SYNC` (R407): For periods above 1 ms, a SYNC with TIME_ONLY is sent every 1 ms. -/
  | spokeTimeOnlySync (sp : Fin 2)
  /-- `SPOKE_OUT_LAUNCH` (R407): The OUT frames of a cycle are launched back to back at A − l_out. -/
  | spokeOutLaunch (sp : Fin 2)
  /-- `SPOKE_IN_FRAME` (R411): A node's IN frame is received and its points take their quality. -/
  | spokeInFrame (sp : Fin 2) (sideB : Bool) (cycle : InCycle) (node : Nat) (nstat : BitVec 8) (inp : Bytes)
  /-- `SPOKE_MGMT_REPLY` (R410): A MGMT reply advances the admission of a node. -/
  | spokeMgmtReply (sp : Fin 2) (mseq : BitVec 16) (reply : MgmtReply)
  /-- `SPOKE_NODE_LOST` (R411): A node has missed WDOG consecutive cycles and becomes LOST. -/
  | spokeNodeLost (node : Nat)
  /-- `SPOKE_DELAY_RECHECK` (R410): The DELAY exchange is repeated every 10 s for each node in cycle. -/
  | spokeDelayRecheck (node : Nat)
  /-- `SPLIT_END` (R414): Every node has reported both links up for 1 s, so split operation ends. -/
  | splitEnd (sp : Fin 2)
  /-- `LINK_TEST_START` (R577): Link-test command: start a test of a link. -/
  | linkTestStart (rq : Req) (link mode pattern : BitVec 8) (word : BitVec 32) (dur : BitVec 16)
  /-- `LINK_TEST_STOP` (R577): Link-test command: stop the running test. -/
  | linkTestStop (rq : Req)
  /-- `LINK_TEST_END` (R422): The test duration expires and the link returns to service. -/
  | linkTestEnd (bits errors : BitVec 64)
  /-- `LINK_TEST_NO_LOCK` (R422): No checker lock within 1 s, so the test aborts. -/
  | linkTestNoLock
  /-- `NODE_RELAY_TIMEOUT` (R568): A relayed node READ or WRITE is not answered within 100 ms. -/
  | nodeRelayTimeout
  /-- `CAN_FRAME_RECEIVED` (R435): A received CAN data frame is stored in its object, or counted. -/
  | canFrameReceived (c : Fin 4) (f : CanFrame)
  /-- `CAN_TX_SUCCESS` (R437): A queued frame is sent successfully. -/
  | canTxSuccess (c : Fin 4)
  /-- `CAN_ARBITRATION_LOST` (R438): A transmission loses arbitration and is offered again. -/
  | canArbitrationLost (c : Fin 4)
  /-- `CAN_BUS_ERROR` (R441): A bus error updates the error counters and state, and ends a one-shot transmission. -/
  | canBusError (c : Fin 4) (err : CanErr) (tx : Bool)
  /-- `CAN_TXTMO_EXPIRY` (R438): A one-shot has not started within TXTMO and fails with TIMEOUT. -/
  | canTxtmoExpiry (c : Fin 4) (obj : Nat)
  /-- `CAN_RECOVERY_START` (R443): BOFF_DLY after bus-off, automatic recovery starts. -/
  | canRecoveryStart (c : Fin 4)
  /-- `CAN_RECOVERY_COMPLETE` (R443): 128 × 11 recessive bits are seen and the controller is error-active. -/
  | canRecoveryComplete (c : Fin 4)
  /-- `CAN_RTMO_EXPIRY` (R436): No frame for RTMO, so the object's fields carry BAD NOT_CONNECTED. -/
  | canRtmoExpiry (c : Fin 4) (obj : Nat)
  /-- `CAN_BUS_INTEGRATION` (R445): After ACT latches, 11 recessive bits put the controller into normal operation. -/
  | canBusIntegration (c : Fin 4)
  /-- `ADDRESS_CLAIM_WAIT` (R448): 250 ms after claiming, the service may use its address. -/
  | addressClaimWait (c : Fin 4)
  /-- `TRANSPORT_PACKET_TIMER` (R449): A transport-protocol packet is due. -/
  | transportPacketTimer (c : Fin 4) (sess : Nat)
  /-- `TRANSPORT_SESSION_TIMEOUT` (R449): A transport session times out and delivers nothing. -/
  | transportSessionTimeout (c : Fin 4) (rx : Bool) (sess : Nat)
  /-- `DI_FILTER_CHANGE` (R456): The integrating counter reaches N or 0 and the filtered state changes with its corrected timestamp. -/
  | diFilterChange (ch : Fin 32) (samples : List Bool)
  /-- `DI_FLICKER` (R458): The counter has stayed between its ends for 4 × N samples, so FLICKER is set. -/
  | diFlicker (ch : Fin 32)
  /-- `DI_CHATTER_EVALUATION` (R458): The chatter count is evaluated every 1 s. -/
  | diChatterEvaluation (ch : Fin 32)
  /-- `DI_STUCK_ON` (R458): The input has stayed TRUE for STUCK s. -/
  | diStuckOn (ch : Fin 32)
  /-- `UF_SUPPLY_CHANGE` (R455): A group field supply is lost or present again. -/
  | ufSupplyChange (grp : Fin 2) (mv : Nat)
  /-- `DO_OVERLOAD` (R460): Current limiting for more than 1 ms sets OVERLOAD. -/
  | doOverload (ch : Fin 32)
  /-- `DO_THERMAL_SHUTDOWN` (R460): A stage reaches 150 °C and turns off, latching after 3 shutdowns in 10 s. -/
  | doThermalShutdown (ch : Fin 32)
  /-- `DO_THERMAL_RECOVERY` (R460): A stage has cooled by 15 K and turns on again. -/
  | doThermalRecovery (ch : Fin 32)
  /-- `DO_OPEN_LOAD` (R460): An on stage carries less than 5 mA for 100 ms. -/
  | doOpenLoad (ch : Fin 32)
  /-- `EXT_DRIVE` (R461): An off stage's readback is high for 1 ms after masking. -/
  | extDrive (ch : Fin 32)
  /-- `PARTNER_NO_DRIVE` (R464): A paralleled pin reads low while the expected level is high. -/
  | partnerNoDrive (ch : Fin 32)
  /-- `DARK_TEST_START` (R465): A scheduled dark test turns an on stage off. -/
  | darkTestStart (ch : Fin 32)
  /-- `DARK_TEST_END` (R465): The readback falls below 5 V or 250 us passes, and the test is judged. -/
  | darkTestEnd (ch : Fin 32) (below5V : Bool)
  /-- `PI_FREQ_TIMEOUT` (R467): No edge for 10 s sets the frequency to 0. -/
  | piFreqTimeout (p : Fin 8)
  /-- `ENC_Z_EDGE` (R470): A rising Z edge latches the count, and may home it. -/
  | encZEdge (e : Fin 4)
  /-- `ENC_INVALID_STEP` (R470): Both tracks change in one step, setting ENC_FAULT. -/
  | encInvalidStep (e : Fin 4)
  /-- `SSI_TELEGRAM_COMPLETE` (R471): An SSI telegram completes and updates the count, or fails. -/
  | ssiTelegramComplete (e : Fin 4) (raw : BitVec 32) (startLow monoHigh : Bool)
  /-- `ENC_SUPPLY_OVERLOAD` (R468): The encoder supply is overloaded. -/
  | encSupplyOverload
  /-- `AI_CONVERSION` (R479): An AI conversion completes on the device-time grid and its band is decided. -/
  | aiConversion (ch : Fin 16) (raw : Real32)
  /-- `LS_UPDATE` (R481): The transmitter supply voltage is updated every 1 ms. -/
  | lsUpdate (ch : Fin 16) (currentUa : Nat)
  /-- `LS_THERMAL_OFF` (R481): The LS driver reaches 140 °C and switches off. -/
  | lsThermalOff (ch : Fin 16)
  /-- `LS_THERMAL_RESTART` (R481): The LS supply switches on again after 1 s. -/
  | lsThermalRestart (ch : Fin 16)
  /-- `AO_SENSE_SAMPLE` (R485): The delivered current is measured every 50 us and compliance and open are judged. -/
  | aoSenseSample (ch : Fin 8) (mA : Real32)
  /-- `COMPLIANCE_CLEAR` (R485): No shortfall for 100 ms clears COMPLIANCE and OPEN. -/
  | complianceClear (ch : Fin 8)
  /-- `AO_THERMAL` (R484): An AO stage reaches 150 °C and folds back its current. -/
  | aoThermal (ch : Fin 8) (hot : Bool)
  /-- `HART_RESPONSE` (R491): A HART response ends a transaction. -/
  | hartResponse (k : Fin 24) (r : HartRsp)
  /-- `HART_BURST` (R491): An accepted burst frame updates the dynamic variables. -/
  | hartBurst (k : Fin 24) (r : HartRsp)
  /-- `HART_TRANSACTION_TIMEOUT` (R491): A transaction fails and is retried, and the device may become LOST. -/
  | hartTransactionTimeout (k : Fin 24)
  /-- `HART_REIDENTIFY` (R491): A LOST device is re-identified every 10 s. -/
  | hartReidentify (k : Fin 24)
  /-- `HART_SCAN_DUE` (R491): A cyclic scan of a device becomes due. -/
  | hartScanDue (k : Fin 24)
  /-- `HART_PT_REQ` (R493): A write queues a HART pass-through request. -/
  | hartPtReq (rq : Req) (data : Bytes)
  /-- `HART_PT_TIMEOUT` (R493): A pass-through request is not done within 2 s. -/
  | hartPtTimeout
  /-- `CMON_WINDOW` (R500): A CMON window ends and its count of CLKIN edges is judged. -/
  | cmonWindow (count : Nat)
  /-- `PLL_UNLOCK` (R499): The PLL lock detector reports loss of lock. -/
  | pllUnlock
  /-- `QUALIFICATION_GATE` (R505): A 10 ms qualification gate of CLKIN ends and is judged. -/
  | qualificationGate (count : Nat)
  /-- `DERAILLEUR_SWITCH` (R506): The derailleur completes a glitch-free change of a domain clock. -/
  | derailleurSwitch (d : Domain)
  /-- `DERAILLEUR_STALL` (R507): The derailleur watchdog expires and raises CLOCK_FAULT. -/
  | derailleurStall (d : Domain)
  /-- `CLK_SWITCH` (R506): A write requests a domain clock switch in MAINTENANCE. -/
  | clkSwitch (rq : Req) (v : BitVec 16)
  /-- `FMC_REQ` (R504): A write starts a frequency measurement. -/
  | fmcReq (rq : Req) (v : BitVec 64)
  /-- `FMC_DONE` (R504): The FMC gate ends and the count is reported. -/
  | fmcDone (count : BitVec 32)
  /-- `GATE_QUIESCE_ACK` (R508): A block acknowledges the quiesce request and its clock gate closes. -/
  | gateQuiesceAck (b : GateBlk)
  /-- `GATE_REFUSED` (R508): No acknowledgement within 1,024 cycles, so gating is abandoned. -/
  | gateRefused (b : GateBlk)
  /-- `SUPPLY_THRESHOLD_CROSSING` (R509): V_OR or a VIN crosses an erase, write or presence threshold. -/
  | supplyThresholdCrossing (n : SupNode) (mv : Nat)
  /-- `SUPPLY_FAILURE` (R510): V_OR falls below BROWNOUT or a core rail fails, starting hold-up. -/
  | supplyFailure (mv : Nat) (railFault : Bool)
  /-- `HOLDUP_READY` (R510): The hold-up store is charged. -/
  | holdupReady
  /-- `SUPPLY_FAIL_RESET` (R511): After the writes in flight complete, reset is asserted at supply failure. -/
  | supplyFailReset
  /-- `BACKUP_LOCKOUT` (R513): V_BKM falls through 3.1 V and the backup interface locks. -/
  | backupLockout
  /-- `BACKUP_UNLOCK` (R513): V_BKM has stayed above 3.1 V for 10 ms, so the interface unlocks. -/
  | backupUnlock
  /-- `BACKUP_POR` (R514): The backup domain's power-on reset clears its state. -/
  | backupPor
  /-- `RTC_COMPENSATION` (R516): Every 16 s the RTC is compensated for temperature. -/
  | rtcCompensation (tempC : Int)
  /-- `VBAT_MEASURE` (R512): VBAT is measured every 16 s. -/
  | vbatMeasure (mv : Nat)
  /-- `RTC_DISCIPLINE` (R518): Every 16 s while LOCKED the RTC is compared and shifted or set. -/
  | rtcDiscipline
  /-- `RTC_SHIFT` (R517): A write shifts the RTC prescaler. -/
  | rtcShift (rq : Req) (n : BitVec 16)
  /-- `RTC_SET` (R518): A write makes a manual seconds write to the RTC. -/
  | rtcSet (rq : Req) (v : BitVec 64)
  /-- `ALM_ARM` (R519): A write of a target second arms an RTC alarm. -/
  | almArm (rq : Req) (n : Fin 2) (v : BitVec 64)
  /-- `RTC_ALARM_FIRE` (R519): An RTC alarm fires, possibly asserting PWRON. -/
  | rtcAlarmFire (n : Fin 2)
  /-- `PWRON_TIMEOUT` (R520): PWRON is released 60 s after its assertion. -/
  | pwronTimeout
  /-- `PWRON_ACT` (R520): A write of 1 releases PWRON. -/
  | pwronAct (rq : Req)
  /-- `ER_RECORD_WRITE` (R532): The recorder handles a queued event as a repeat, a new record or a drop. -/
  | erRecordWrite
  /-- `OPTIME_STORE` (R526): The operating time is written to MRAM once per second. -/
  | optimeStore
  /-- `PMC_SEL` (R538): A write selects a counter's event and zeroes the counter. -/
  | pmcSel (rq : Req) (n : Fin 64) (v : BitVec 16)
  /-- `PMC_CLEAR` (R538): A write zeroes the counters whose bits are set. -/
  | pmcClear (rq : Req) (mask : BitVec 64)
  /-- `DISPLAY_FRAME_START` (R549): A display frame of six common waveforms starts. -/
  | displayFrameStart (hiMv midMv : Nat)
  /-- `DISPLAY_WAVEFORM_END` (R549): A common waveform ends; the next starts, or the frame completes or is abandoned. -/
  | displayWaveformEnd (hiMv midMv : Nat)
  /-- `DISPLAY_ICON_SAMPLE` (R547): The user icons are sampled every 1 s. -/
  | displayIconSample
  /-- `DISPLAY_TEMP_READ` (R550): The panel temperature is read and its band updated. -/
  | displayTempRead (tempC : Int)
  /-- `DISPLAY_FRAME_SCAN` (R553): The frame memory is checked against its CRC every 100 ms. -/
  | displayFrameScan
  /-- `EAP_HANDSHAKE` (R558): A DTLS handshake opens a session, and the client is admitted with a role or refused. -/
  | eapHandshake (port : Fin 3) (addr : EapAddr) (cert : Cert)
  /-- `SESSION_TIMEOUT` (R558): No valid record for 60 s ends a session. -/
  | sessionTimeout (sess : Nat)
  /-- `EAP_READ` (R567): A READ message returns the values of up to 16 objects. -/
  | eapRead (rq : Req) (tgt : Nat) (items : List ObjRef)
  /-- `EAP_WRITE` (R567): A WRITE message sets objects that have no row of their own. -/
  | eapWrite (rq : Req) (tgt : Nat) (items : List WriteItem)
  /-- `SUBSCRIBE` (R569): A subscription to a stream is opened. -/
  | subscribe (rq : Req) (r : SubReq)
  /-- `UNSUBSCRIBE` (R569): A subscription is ended. -/
  | unsubscribe (rq : Req) (subid : BitVec 8)
  /-- `EAP_NOP` (R558): A NOP message keeps a session open. -/
  | eapNop (rq : Req)
  /-- `NOTIFY_SEND` (R570): A NOTIFY carries the pending records of a subscription. -/
  | notifySend (subid : BitVec 8)
  /-- `TREND_SAMPLE` (R569): A trend subscription is sampled at a multiple of its period. -/
  | trendSample (subid : BitVec 8)
  /-- `FILE_OPEN_READ` (R572): A file is opened for reading. -/
  | fileOpenRead (rq : Req) (name : FileName)
  /-- `FILE_OPEN_WRITE` (R572): A file is opened for writing, marking a slot WRITING where it applies. -/
  | fileOpenWrite (rq : Req) (name : FileName) (total : Nat)
  /-- `FILE_BLOCK` (R572): A block of a file is read or written. -/
  | fileBlock (rq : Req) (fh : BitVec 8) (op : BlockOp)
  /-- `FILE_CLOSE` (R573): A file is closed, and a written file is completed. -/
  | fileClose (rq : Req) (fh : BitVec 8)
  /-- `FILE_ABANDON` (R572): A file is abandoned. -/
  | fileAbandon (rq : Req) (fh : BitVec 8)
  /-- `FILE_WRITE_TIMEOUT` (R572): A write file that receives no block for 30 s is abandoned. -/
  | fileWriteTimeout
  /-- `RELAY_CLOSE_TIMEOUT` (R573): No matching RELAY_ACK within 10 s, so the close answers PARTNER. -/
  | relayCloseTimeout
  /-- `RESTART_COLD` (R577): Restart command: a cold start. -/
  | restartCold (rq : Req) (readmit force : Bool)
  /-- `RESTART_WARM` (R577): Restart command: a warm start. -/
  | restartWarm (rq : Req) (readmit force : Bool)
  /-- `RESTART_MAINTENANCE` (R577): Restart command: a start into MAINTENANCE. -/
  | restartMaintenance (rq : Req) (readmit force : Bool)
  /-- `ACTIVATE` (R577): Command to activate the image in a slot, online or by restart. -/
  | activate (rq : Req) (slot : BitVec 8) (byRestart : Bool)
  /-- `ROLLBACK` (R64): Command to exchange ACTIVE and PREVIOUS. -/
  | rollback (rq : Req)
  /-- `HANDOVER` (R577): Command to request a planned handover. -/
  | handover (rq : Req) (force : Bool)
  /-- `REVERT_ACK` (R350): Command that permits one revert request. -/
  | revertAck (rq : Req)
  /-- `FAULT_RESET_ALL` (R578): Fault-reset command: apply every scope whose condition is present. -/
  | faultResetAll (rq : Req) (unit : BitVec 16)
  /-- `FAULT_RESET_TASK` (R578): Fault-reset command: release a halted task. -/
  | faultResetTask (rq : Req) (unit : BitVec 16)
  /-- `FAULT_RESET_CAN` (R578): Fault-reset command: end bus-off and restart rate detection on a controller. -/
  | faultResetCan (rq : Req) (unit : BitVec 16)
  /-- `FAULT_RESET_DIO` (R578): Fault-reset command: clear THERMAL_LATCHED on a DIO channel. -/
  | faultResetDio (rq : Req) (unit : BitVec 16)
  /-- `FAULT_RESET_RESYNC` (R578): Fault-reset command: clear the RESYNC_FAILED reason. -/
  | faultResetResync (rq : Req) (unit : BitVec 16)
  /-- `FAULT_RESET_FAILED` (R578): Fault-reset command: restart a module held in FAILED. -/
  | faultResetFailed (rq : Req) (unit : BitVec 16)
  /-- `TIME_SET` (R284): Time command: step device time. -/
  | timeSet (rq : Req) (v : BitVec 96)
  /-- `TIME_SHIFT` (R284): Time command: slew device time by an offset. -/
  | timeShift (rq : Req) (ns : BitVec 32)
  /-- `UTC_OFFSET` (R285): Time command: set the UTC offset. -/
  | utcOffset (rq : Req) (secs : BitVec 16)
  /-- `TRACE_ARM` (R241): Trace command: clear the buffers and arm the trace. -/
  | traceArm (rq : Req)
  /-- `TRACE_CMD_TRIGGER` (R240): Trace command: trigger the armed trace. -/
  | traceCmdTrigger (rq : Req)
  /-- `TRACE_STOP` (R242): Trace command: stop the trace as ABORTED. -/
  | traceStop (rq : Req)
  /-- `TRACE_RESET` (R577): Trace command: reset the trace to IDLE. -/
  | traceReset (rq : Req)
  /-- `BANK` (R66): Command to select the firmware bank for the next start. -/
  | bank (rq : Req) (bankB : Bool) (now force : Bool)
  /-- `OWNER_KEY_ENROL` (R48): Command to enrol the owner key into an empty record. -/
  | ownerKeyEnrol (rq : Req) (pubkey : Bytes)
  /-- `OWNER_KEY_ERASE` (R48): Command to erase the owner key record in MAINTENANCE. -/
  | ownerKeyErase (rq : Req)
  /-- `ER_CLEAR` (R535): Command to clear the event recorder in MAINTENANCE. -/
  | erClear (rq : Req)
  /-- `EXEC_MAX` (R162): A read returns and clears the largest execution time of a task. -/
  | execMax (rq : Req) (t : Fin 16)
  /-- `MARGIN_MIN` (R162): A read returns and clears the least deadline margin of a task. -/
  | marginMin (rq : Req) (t : Fin 16)
  /-- `LANE_MAX` (R218): A read returns and clears the largest cycles used in one frame of a lane. -/
  | laneMax (rq : Req) (l : Fin 4)
  /-- `LOOP_MISS` (R218): A read returns and clears the missed executions of a loop. -/
  | loopMiss (rq : Req) (n : Fin 512)
  /-- `EVAL_MAX` (R270): A read returns and clears the longest alarm evaluation. -/
  | evalMax (rq : Req)
  /-- `SHADOW_LAG` (R354): A read returns and clears the largest time from cycle end to commit. -/
  | shadowLag (rq : Req)
  /-- `SHARED_LOW` (R423): A read returns and clears the least number of free shared buffers. -/
  | sharedLow (rq : Req)
  /-- `NODE_MISS` (R423): A read returns and clears the cycles a node has missed. -/
  | nodeMiss (rq : Req) (node : Fin 256)
  /-- `VOR_MIN` (R521): A read returns and clears the least V_OR. -/
  | vorMin (rq : Req)
  /-- `PTP_MESSAGE_INTERVAL` (R286): At each logSyncInterval, logAnnounceInterval and logMinPdelayReqInterval the module sends its own Sync, Announce, Delay_Req or Pdelay_Req as its PTP role requires. -/
  | ptpMessageInterval (port : Fin 3) (kind : PtpKind)
  /-- `FRAME_TX_COMPLETE` (R397): An Ethernet frame finishes leaving a port; its buffer is freed and the port picks the next eligible queue by strict priority. -/
  | frameTxComplete (p : Port)
  /-- `SI_STATUS_TIMEOUT` (R388): No island status report has arrived for 30 ms, so STATUS_VALID clears. -/
  | siStatusTimeout
  /-- `EXT_DRIVE_CLEAR` (R461): The readback of an output has been low for 1 s, so EXT_DRIVE clears. -/
  | extDriveClear (ch : Fin 32)
  /-- `THERMAL_LATCH_RELEASE` (R460): The commanded value of a THERMAL_LATCHED stage has been FALSE for 10 ms, so the latch clears. -/
  | thermalLatchRelease (ch : Fin 32)
  /-- `ENC_FAULT_EXPIRY` (R470): 100 ms after the last invalid quadrature step, the encoder channel stops carrying BAD SENSOR_FAILURE. -/
  | encFaultExpiry (e : Fin 4)
  /-- `TIME_SHIFT_COMPLETE` (R284): A slew commanded by TIME_SHIFT has removed its whole offset, and ADDEND returns to its nominal value. -/
  | timeShiftComplete
  /-- `HOLDUP_STORE_EXHAUSTED` (R511): The hold-up store can no longer keep the digital core powered in reset, so the core loses power, the output stages go OFF and the next start becomes POWER_ON. -/
  | holdupStoreExhausted
  /-- `VBAT_CHANGEOVER` (R512): The backup domain changes its supply between VBAT and the internal capacitor as VBAT crosses 2.0 V, setting CAP_USED. -/
  | vbatChangeover (mv : Nat)
  /-- `PI_EDGE` (R467): A counted edge on a pulse input adds to the 32-bit count and is timestamped, or is rejected as a glitch. -/
  | piEdge (p : Fin 8) (rising : Bool) (widthNs : Nat)
  /-- `ENC_COUNT_STEP` (R470): A valid quadrature step on an incremental encoder's tracks changes the count by one. -/
  | encCountStep (e : Fin 4) (up : Bool)
  deriving DecidableEq, Repr

end Sys2Proof
end

