-- ==== Sys2Proof/Config.lean ====
section
/-! DEFINITION. What an implementation fixes, and the free values: constants without a body, so that no proof
can rest on one of them (log entry 1). -/

namespace Sys2Proof.Config

/-- A value the spec leaves undefined, by the number of free values drawn before it (R14; log entry 1). -/
opaque freeWord : Nat → BitVec 96

/-- The cost of a block of a type and version in the running firmware: BASE and PERPORT of the cost table (R166, R602; log entry 1). -/
opaque costEntry : BitVec 32 → Nat → Nat → Nat × Nat

/-- What the integrator of a `PID` gains in one execution, by KP, TI, the error and Δ in s (R105; log entry 1). -/
opaque pidIntegral : Real32 → Real32 → Real32 → Real32 → Real32
/-- The unfiltered derivative part of a `PID`, by KP, TD, the present and the previous PV, and Δ in s (R105; log entry 1). -/
opaque pidDerivative : Real32 → Real32 → Real32 → Real32 → Real32 → Real32

/-- The order of two REAL32 values one of which is NaN, as `MIN` and `MAX` take it (R105, R116; log entry 1). -/
opaque nanBefore : Real32 → Real32 → Bool

/-- The integer that value-mode `CONV` gives for a NaN, by target type (R105; log entry 1). -/
opaque nanToInt : Nat → Real32 → Int

/-- `DEV` of `VOTE3` with fewer than three inputs left (R105; log entry 1). -/
opaque voteDev : List Real32 → Real32 → Bool

/-- Whether the retained area fails its check at a start (R146; log entry 1). -/
opaque retainFails : Nat → Bool
/-- Whether a main firmware reads the retained layout that another has written (R146; log entry 1). -/
opaque retainReads : Nat → Nat → Bool
/-- Whether the n-th frame taken out of the pool fails its CRC: a soft error of the pool SRAM (R22, R24; log entry 1). -/
opaque poolFails : Nat → Bool

/-- Whether the flash fails the n-th programming of a header, and what it then holds there (R46; log entry 1). -/
opaque flashFails : Nat → Bool
/-- See `flashFails`. -/
opaque flashHolds : Nat → List (BitVec 8)

/-- The signature check of a firmware image: its signature block is not laid out by the spec (R67; log entry 1). -/
opaque fwSignatureGood : Bytes → Bool

/-- The addend that the servo sets after an offset, from the offset in ns and the addend in use; the model clamps
it to the range of R277 (R282; log entry 1). -/
opaque servoAddend : Int → Nat → Nat

/-- The addend that a commanded slew uses, from the offset in ns; clamped to the range of R277 (R284; log entry 1). -/
opaque shiftAddend : Int → Nat

/-- The clockIdentity that a serial number gives (R287; log entry 1). -/
opaque clockIdentity : BitVec 64 → BitVec 64

/-- clockAccuracy and offsetScaledLogVariance of the module's own clock (R286; log entry 1). -/
opaque clockAccuracy : Nat
/-- See `clockAccuracy`. -/
opaque clockVariance : Nat

/-- The octets of the first frame of a link-test pattern, by its code and word: seed and bit order are not given (R421; log entry 138). -/
opaque testPattern : Nat → BitVec 32 → List (BitVec 8)
/-- The octets that a DTLS record adds to a message (R556; log entry 1). -/
opaque dtlsOverhead : Nat
/-- The MAC address of the client of a session, learnt from its frames (R557; log entry 1). -/
opaque clientMac : Nat → BitVec 48

/-- The receiver delay, measured at the factory, that is taken off a capture, by source code, in 2⁻¹⁶ ns (R302; log entry 1). -/
opaque receiverDelay : Nat → Nat

/-- The time that a CAN frame takes on the wire, by the rates in use and what it carries, in 2⁻¹⁶ ns (R435; log entry 1). -/
opaque canFrameTime : Nat → List Nat → Nat
/-- The bytes of a shadow record whose layout the spec leaves open: granules of the shadow image, an output image, the states of a point,
of a group and of a task's timer bases (R331, R332; log entry 1). -/
opaque shadowBytes : ShRec → List (BitVec 8)
/-- The granule of the shadow image at which the contents of a record begin, which follows the plan (R331; log entry 1). -/
opaque shadowGranule : ShRec → Nat

/-- The CRC of a recorder slot fails at a start, by the start and the slot (R534). -/
opaque slotFails : Nat → Nat → Bool
/-- The frame memory of the display has changed by itself, by the scan (R553). -/
opaque frameFlips : Nat → Bool

end Sys2Proof.Config
end

