-- ==== Sys2Proof/Machine/Bits.lean ====
section
/-! DEFINITION. Byte order, sign, saturation and list helpers that the named operations use. -/

namespace Sys2Proof.Machine

/-- The number that bytes spell, least significant byte first (R8). -/
def leNat : Bytes → Nat
  | [] => 0
  | b :: t => b.toNat + 256 * leNat t

/-- The number that bytes spell, most significant byte first (R48, R49). -/
def beNat (b : Bytes) : Nat := leNat b.reverse

/-- `n` in `len` bytes, least significant byte first (R8). -/
def natLe : Nat → Nat → Bytes
  | 0, _ => []
  | len + 1, n => BitVec.ofNat 8 n :: natLe len (n / 256)

/-- `n` in `len` bytes, most significant byte first. -/
def natBe (len n : Nat) : Bytes := (natLe len n).reverse

/-- `len` bytes from offset `off`; a part that lies past the end is absent. -/
def slice (b : Bytes) (off len : Nat) : Bytes := (b.drop off).take len

/-- The unsigned little-endian field of `len` bytes at offset `off`. -/
def field (b : Bytes) (off len : Nat) : Nat := leNat (slice b off len)

/-- `n` read as a two's complement number of `w` bits (R10, R16). -/
def signed (w n : Nat) : Int :=
  if n % 2 ^ w < 2 ^ (w - 1) then ((n % 2 ^ w : Nat) : Int) else ((n % 2 ^ w : Nat) : Int) - (2 ^ w : Nat)

/-- The signed little-endian field of `len` bytes at offset `off`. -/
def sfield (b : Bytes) (off len : Nat) : Int := signed (8 * len) (field b off len)

/-- `i` as an unsigned number of `w` bits, wrapped. -/
def unsigned (w : Nat) (i : Int) : Nat := (i % (2 ^ w : Nat)).toNat

/-- `sat` of R16: `x` clamped to `lo` … `hi`. -/
def clamp (lo hi x : Int) : Int := if x < lo then lo else if hi < x then hi else x

/-- Bit `i` of `n`. -/
def bitOf (n i : Nat) : Bool := n / 2 ^ i % 2 == 1

/-- Bits `[i + len - 1 : i]` of `n`. -/
def bitsOf (n i len : Nat) : Nat := n / 2 ^ i % 2 ^ len

/-- A flag as 0 or 1. -/
def b2n (b : Bool) : Nat := if b then 1 else 0

/-- The word whose bit `i` is element `i` of `l`. -/
def packBits : List Bool → Nat
  | [] => 0
  | b :: t => b2n b + 2 * packBits t

/-- The element at position `i`, or `d` past the end. -/
def at_ {α : Type} (l : List α) (i : Nat) (d : α) : α := l.getD i d

/-- `l` with `f` applied to its element at position `i`; unchanged where there is none. -/
def upd {α : Type} : List α → Nat → (α → α) → List α
  | [], _, _ => []
  | a :: t, 0, f => f a :: t
  | a :: t, i + 1, f => a :: upd t i f

/-- `l` with its element at position `i` replaced. -/
def put {α : Type} (l : List α) (i : Nat) (a : α) : List α := upd l i fun _ => a

/-- `l` with `f i` applied to each element by its position from `i` on. -/
def mapFrom {α : Type} (f : Nat → α → α) : Nat → List α → List α
  | _, [] => []
  | i, a :: t => f i a :: mapFrom f (i + 1) t

/-- The position of the first element that satisfies `p`. -/
def indexOf? {α : Type} (p : α → Bool) : List α → Option Nat
  | [] => none
  | a :: t => if p a then some 0 else (indexOf? p t).map (· + 1)

/-- `f 0`, …, `f (n - 1)`. -/
def tabulate {α : Type} (n : Nat) (f : Nat → α) : List α := (List.range n).map f

/-- The elements of `l` with their positions from `i` on. -/
def enumFrom {α : Type} : Nat → List α → List (Nat × α)
  | _, [] => []
  | i, a :: t => (i, a) :: enumFrom (i + 1) t

/-- `x / y` rounded up. -/
def ceilDiv (x y : Nat) : Nat := (x + y - 1) / y

/-- `x / y` rounded to the nearest, halves away from zero. -/
def roundDiv (x : Int) (y : Nat) : Int :=
  if x < 0 then -(((2 * (-x) + y) / (2 * y : Int))) else (2 * x + y) / (2 * y : Int)

/-- A table kept as a list of (key, value) pairs, keys strictly rising, no value equal to the default. -/
abbrev SMap (α : Type) := List (Nat × α)

/-- The value at key `a`, the default `d` where none is listed. -/
def SMap.get {α : Type} (d : α) : SMap α → Nat → α
  | [], _ => d
  | (k, v) :: t, a => if a = k then v else if a < k then d else SMap.get d t a

/-- The table with key `a` at `x`, in canonical form: the default removes the entry. (An entry that a higher key before it hides from
every read stays hidden, so that a read after a write is right for every list.) -/
def SMap.set {α : Type} [DecidableEq α] (d : α) : SMap α → Nat → α → SMap α
  | [], a, x => if x = d then [] else [(a, x)]
  | (k, v) :: t, a, x =>
    if a < k then (if x = d then (k, v) :: t else (a, x) :: (k, v) :: t)
    else if a = k then (if x = d then t.filter (fun e => decide (k < e.1)) else (k, x) :: t)
    else (k, v) :: SMap.set d t a x

/-- The canonical form: keys above `lo` strictly rising, no default value listed. -/
def SMap.wfFrom {α : Type} [DecidableEq α] (d : α) : Nat → SMap α → Bool
  | _, [] => true
  | lo, (k, v) :: t => decide (lo ≤ k) && decide (v ≠ d) && SMap.wfFrom d (k + 1) t

/-- The canonical form of a table. -/
def SMap.wf {α : Type} [DecidableEq α] (d : α) (m : SMap α) : Bool := SMap.wfFrom d 0 m

/-- The table with the values of `l` at the keys from `a` on. -/
def SMap.setList {α : Type} [DecidableEq α] (d : α) : SMap α → Nat → List α → SMap α
  | m, _, [] => m
  | m, a, x :: t => SMap.setList d (SMap.set d m a x) (a + 1) t

/-- The `len` values from key `a` on. -/
def SMap.getList {α : Type} (d : α) (m : SMap α) : Nat → Nat → List α
  | 0, _ => []
  | len + 1, a => SMap.get d m a :: SMap.getList d m len (a + 1)

/-- The table without the entries of the keys `lo` to `hi - 1`: those keys are at the default. -/
def SMap.erase {α : Type} (m : SMap α) (lo hi : Nat) : SMap α :=
  m.filter fun e => decide (e.1 < lo) || decide (hi ≤ e.1)

end Sys2Proof.Machine
end

