-- ==== Sys2Proof/Machine/Float.lean ====
section
/-! DEFINITION. REAL32 arithmetic: IEEE 754 binary32, round to nearest, ties to even (R10, R116). -/

namespace Sys2Proof.Machine

/-- Sign bit. -/
def fSign (x : Real32) : Bool := x.getLsbD 31
/-- Exponent field. -/
def fExp (x : Real32) : Nat := x.toNat / 2 ^ 23 % 256
/-- Fraction field. -/
def fMan (x : Real32) : Nat := x.toNat % 2 ^ 23
/-- Not a number. -/
def fIsNaN (x : Real32) : Bool := fExp x == 255 && fMan x != 0
/-- Plus or minus infinity. -/
def fIsInf (x : Real32) : Bool := fExp x == 255 && fMan x == 0
/-- A finite number. -/
def fIsFin (x : Real32) : Bool := fExp x != 255
/-- Plus or minus zero. -/
def fIsZero (x : Real32) : Bool := x.toNat % 2 ^ 31 == 0

/-- The quiet NaN that an invalid operation gives. -/
def fNaN : Real32 := 0x7FC00000
/-- Infinity of a sign. -/
def fInf (neg : Bool) : Real32 := if neg then 0xFF800000 else 0x7F800000
/-- Zero of a sign. -/
def fZero (neg : Bool) : Real32 := if neg then 0x80000000 else 0
/-- 1.0. -/
def fOne : Real32 := 0x3F800000

/-- The magnitude of a finite number in units of 2⁻¹⁴⁹. -/
def fMag (x : Real32) : Nat :=
  if fExp x = 0 then fMan x else (fMan x + 2 ^ 23) * 2 ^ (fExp x - 1)

/-- A finite number in units of 2⁻¹⁴⁹. -/
def fUnits (x : Real32) : Int := if fSign x then -(fMag x : Int) else fMag x

/-- The number of bits of `n`. -/
def bitLen (n : Nat) : Nat := if n = 0 then 0 else n.log2 + 1

/-- `n / d` to the nearest integer, ties to even. -/
def rneDiv (n d : Nat) : Nat :=
  let q := n / d
  let r := n % d
  if 2 * r < d then q else if d < 2 * r then q + 1 else q + q % 2

/-- The binary32 magnitude nearest to `n / d` units of 2⁻¹⁴⁹, as its 31 low bits (overflow: infinity). -/
def roundMag (n d : Nat) : Nat :=
  -- the exponent field for which the quotient has 24 bits, 1 for the subnormal range
  let e0 := bitLen (n / d)
  let e := if e0 ≤ 24 then 1 else e0 - 23
  let r := rneDiv n (d * 2 ^ (e - 1))
  let bits := if r < 2 ^ 23 then r else (r - 2 ^ 23) + e * 2 ^ 23
  if 255 * 2 ^ 23 ≤ bits then 255 * 2 ^ 23 else bits

/-- The binary32 number nearest to ±`n / d` units of 2⁻¹⁴⁹. -/
def fRound (neg : Bool) (n d : Nat) : Real32 :=
  BitVec.ofNat 32 (roundMag n d + if neg then 2 ^ 31 else 0)

/-- The binary32 number nearest to the rational `n / d`; a zero is positive. -/
def fOfRat (n : Int) (d : Nat) : Real32 := fRound (decide (n < 0)) (n.natAbs * 2 ^ 149) d

/-- An integer as REAL32. -/
def fOfInt (n : Int) : Real32 := fOfRat n 1

/-- Sum. -/
def fAdd (x y : Real32) : Real32 :=
  if fIsNaN x || fIsNaN y then fNaN
  else if fIsInf x then (if fIsInf y && fSign x != fSign y then fNaN else x)
  else if fIsInf y then y
  else
    let s := fUnits x + fUnits y
    if s = 0 then fZero (fSign x && fSign y) else fRound (decide (s < 0)) s.natAbs 1

/-- Negation: the sign bit changes. -/
def fNeg (x : Real32) : Real32 := x ^^^ 0x80000000
/-- Absolute value: the sign bit clears. -/
def fAbs (x : Real32) : Real32 := x &&& 0x7FFFFFFF
/-- Difference. -/
def fSub (x y : Real32) : Real32 := if fIsNaN y then fNaN else fAdd x (fNeg y)

/-- Product. -/
def fMul (x y : Real32) : Real32 :=
  let s := fSign x != fSign y
  if fIsNaN x || fIsNaN y then fNaN
  else if fIsInf x || fIsInf y then (if fIsZero x || fIsZero y then fNaN else fInf s)
  else fRound s (fMag x * fMag y) (2 ^ 149)

/-- Quotient. -/
def fDiv (x y : Real32) : Real32 :=
  let s := fSign x != fSign y
  if fIsNaN x || fIsNaN y then fNaN
  else if fIsInf x then (if fIsInf y then fNaN else fInf s)
  else if fIsInf y then fZero s
  else if fIsZero y then (if fIsZero x then fNaN else fInf s)
  else fRound s (fMag x * 2 ^ 149) (fMag y)

/-- The integer square root, bit by bit from bit `k - 1` down, with root so far `r`. -/
def isqrtBits (n : Nat) : Nat → Nat → Nat
  | 0, r => r
  | k + 1, r => isqrtBits n k (if (r + 2 ^ k) * (r + 2 ^ k) ≤ n then r + 2 ^ k else r)

/-- The integer square root of `n`. -/
def isqrt (n : Nat) : Nat := isqrtBits n (bitLen n / 2 + 1) 0

/-- Square root. With `u` units of 2⁻¹⁴⁹ the root is `√(u · 2¹⁴⁹)` units; its integer part with 64
further bits and a sticky bit is rounded. -/
def fSqrt (x : Real32) : Real32 :=
  if fIsNaN x then fNaN
  else if fIsZero x then x
  else if fSign x then fNaN
  else if fIsInf x then x
  else
    let n := fMag x * 2 ^ 149 * 2 ^ 128
    let r := isqrt n
    fRound false (2 * r + if r * r = n then 0 else 1) (2 ^ 65)

/-- `x < y`; false where either is NaN. -/
def fLt (x y : Real32) : Bool :=
  if fIsNaN x || fIsNaN y then false
  else if fIsInf x then fSign x && !(fIsInf y && fSign y)
  else if fIsInf y then !fSign y
  else decide (fUnits x < fUnits y)

/-- `x = y` as numbers; false where either is NaN. -/
def fEq (x y : Real32) : Bool :=
  if fIsNaN x || fIsNaN y then false
  else if fIsInf x || fIsInf y then x == y
  else decide (fUnits x = fUnits y)

/-- `x ≤ y`. -/
def fLe (x y : Real32) : Bool := fLt x y || fEq x y

/-- The integer nearest to a finite number, ties to even; NaN and infinities are left to the caller. -/
def fToIntNear (x : Real32) : Int :=
  let m : Nat := rneDiv (fMag x) (2 ^ 149)
  if fSign x then -(m : Int) else m

/-- The integer part of a finite number, toward zero. -/
def fTrunc (x : Real32) : Int :=
  let m : Nat := fMag x / 2 ^ 149
  if fSign x then -(m : Int) else m

/-- `x` times the integer `k`, rounded to nearest with ties to even, saturated to `lo` … `hi`. -/
def fScaleSat (x : Real32) (k : Nat) (lo hi : Int) : Int :=
  if fIsNaN x then 0
  else if fIsInf x then (if fSign x then lo else hi)
  else
    let m : Nat := rneDiv (fMag x * k) (2 ^ 149)
    clamp lo hi (if fSign x then -(m : Int) else m)

end Sys2Proof.Machine
end

