-- ==== Sys2Proof/Machine/Real.lean ====
section
/-! DEFINITION. The functions of a formula that are no single IEEE 754 operation: `EXP`, `LN`, `SIN`, `COS`, `ATAN2` and `POW` in REAL32,
rounded to nearest with ties to even (R89, R116; log entry 108). Each is worked out in steps of 2⁻⁵¹² and rounded once. -/

namespace Sys2Proof.Machine

/-- 1.0 in steps of 2⁻⁵¹². -/
def fxOne : Nat := 2 ^ 512
/-- A product in steps of 2⁻⁵¹². -/
def fxMul (a b : Nat) : Nat := a * b / fxOne
/-- A finite number in steps of 2⁻⁵¹². -/
def fxOf (x : Real32) : Int := fUnits x * 2 ^ 363
/-- The REAL32 nearest to `v` steps. -/
def fxRound (v : Int) : Real32 := fRound (decide (v < 0)) v.natAbs (2 ^ 363)

/-- The terms x^k / k! from term `k`, whose value is `t`, on. -/
def expTerms (x : Nat) : Nat → Nat → Nat → Nat → Nat
  | 0, _, _, acc => acc
  | n + 1, k, t, acc => expTerms x n (k + 1) (fxMul t x / (k + 1)) (acc + t)
/-- The terms z^(2k+1) / (2k+1) of the inverse hyperbolic tangent, `p` the power of term `k`. -/
def atanhTerms (z2 : Nat) : Nat → Nat → Nat → Nat → Nat
  | 0, _, _, acc => acc
  | n + 1, k, p, acc => atanhTerms z2 n (k + 1) (fxMul p z2) (acc + p / (2 * k + 1))
/-- The logarithm of (1 + z) / (1 - z). -/
def fxLnRatio (z : Nat) : Nat := 2 * atanhTerms (fxMul z z) 170 0 z 0
/-- ln 2. -/
def fxLn2 : Nat := fxLnRatio (fxOne / 3)
/-- The logarithm of a positive finite number. -/
def fxLn (x : Real32) : Int :=
  let l := bitLen (fMag x)
  let m := fMag x * fxOne / 2 ^ (l - 1)
  fxLnRatio ((m - fxOne) * fxOne / (m + fxOne)) + ((l : Int) - 150) * fxLn2
/-- A mantissa that lies within 2⁻³⁰⁰ of a number of 40 bits is that number. -/
def snap (m : Nat) : Nat :=
  let q := (m + 2 ^ 471) / 2 ^ 472 * 2 ^ 472
  if m - q + (q - m) < 2 ^ 212 then q else m
/-- The exponential of `y` steps. -/
def fxExp (y : Int) : Real32 :=
  if y < -(110 * fxOne : Nat) then 0
  else if (90 * fxOne : Nat) < y then fInf false
  else
    let k := y / fxLn2
    let m := snap (expTerms (y - k * fxLn2).toNat 110 0 fxOne 0)
    let e := k - 363
    if e < 0 then fRound false m (2 ^ (-e).toNat) else fRound false (m * 2 ^ e.toNat) 1

/-- The terms of Euler's series of the arc tangent, `c` the factor t² / (1 + t²). -/
def atanTerms (c : Nat) : Nat → Nat → Nat → Nat → Nat
  | 0, _, _, acc => acc
  | n + 1, k, t, acc => atanTerms c n (k + 1) (fxMul t c * (2 * k + 2) / (2 * k + 3)) (acc + t)
/-- The arc tangent of `t` steps, 0 to 1. -/
def fxAtan (t : Nat) : Nat :=
  let d := fxOne + fxMul t t
  atanTerms (fxMul t t * fxOne / d) 530 0 (t * fxOne / d) 0
/-- π. -/
def fxPi : Nat := 4 * fxAtan fxOne
/-- The alternating terms of a sine or cosine, `t` the term whose factors start after `k`. -/
def trigTerms (r2 : Nat) : Nat → Nat → Nat → Bool → Int → Int
  | 0, _, _, _, acc => acc
  | n + 1, k, t, neg, acc =>
    trigTerms r2 n (k + 2) (fxMul t r2 / ((k + 1) * (k + 2))) (!neg) (if neg then acc - t else acc + t)
/-- A magnitude in steps reduced to less than a whole turn. -/
def fxTurn (x : Nat) : Nat := x % (2 * fxPi)

/-- `EXP`. -/
def fExpOf (x : Real32) : Real32 :=
  if fIsNaN x then fNaN else if fIsInf x then (if fSign x then 0 else x) else fxExp (fxOf x)
/-- `LN`. -/
def fLn (x : Real32) : Real32 :=
  if fIsNaN x then fNaN else if fIsZero x then fInf true else if fSign x then fNaN else if fIsInf x then x else fxRound (fxLn x)
/-- `SIN`. -/
def fSin (x : Real32) : Real32 :=
  if !fIsFin x then fNaN
  else if fIsZero x then x
  else
    let r := fxTurn (fxOf x).natAbs
    let v := trigTerms (fxMul r r) 75 1 r false 0
    fxRound (if fSign x then -v else v)
/-- `COS`. -/
def fCos (x : Real32) : Real32 :=
  if !fIsFin x then fNaN
  else
    let r := fxTurn (fxOf x).natAbs
    fxRound (trigTerms (fxMul r r) 75 0 fxOne false 0)
/-- The angle of (|b|, |a|), 0 to a quarter turn. -/
def fxAngle (a b : Real32) : Nat :=
  if fIsInf a then (if fIsInf b then fxPi / 4 else fxPi / 2)
  else if fIsInf b then 0
  else if fMag a = 0 then 0
  else if fMag a ≤ fMag b then fxAtan (fMag a * fxOne / fMag b)
  else fxPi / 2 - fxAtan (fMag b * fxOne / fMag a)
/-- `ATAN2`. -/
def fAtan2 (a b : Real32) : Real32 :=
  if fIsNaN a || fIsNaN b then fNaN
  else
    let v : Nat := if fSign b then fxPi - fxAngle a b else fxAngle a b
    if v = 0 then fZero (fSign a) else fxRound (if fSign a then -(v : Int) else v)

/-- A finite number is an integer. -/
def fIsInt (x : Real32) : Bool := fIsFin x && fMag x % 2 ^ 149 == 0
/-- A finite number is an odd integer. -/
def fIsOdd (x : Real32) : Bool := fIsInt x && fMag x / 2 ^ 149 % 2 == 1
/-- The power of a positive finite number. -/
def fPowPos (a b : Real32) : Real32 :=
  let y := fxLn a * fUnits b / 2 ^ 149
  fxExp y
/-- `POW`. -/
def fPow (a b : Real32) : Real32 :=
  let neg := fSign a && fIsOdd b
  let big := fLt fOne (fAbs a)
  if fIsZero b || a == fOne then fOne
  else if fIsNaN a || fIsNaN b then fNaN
  else if fIsInf b then (if fAbs a == fOne then fOne else if big != fSign b then fInf false else 0)
  else if fIsZero a || fIsInf a then (if fIsInf a != fSign b then fInf neg else fZero neg)
  else if fSign a && !fIsInt b then fNaN
  else let r := fPowPos (fAbs a) b; if neg then fNeg r else r

end Sys2Proof.Machine
end

