-- ==== Sys2Proof/Machine/TypesNet.lean ====
section
/-! DEFINITION. The block net after expansion: signals, instances, tasks' lists, and what a net holds while it runs
(03_block_programs.md). -/

namespace Sys2Proof.Machine

/-- A signal entry (R93). `writer` is the task of its driving instance and `port` its (instance, output port), filled in
at load. -/
structure SigCfg where
  stype : Nat
  const : Bool := false
  retain : Bool := false
  init : Nat := 0
  writer : Nat := 16
  driver : Option (Nat × Nat) := none
  deriving DecidableEq, Repr

/-- A binding entry (R95). -/
structure Bind where
  sig : Option Nat := none
  neg : Bool := false
  deriving DecidableEq, Repr

/-- An instance of the expanded net (R94, R102). `params` are the words of its parameter block; `poly` the type that its
polymorphic ports take (R88); `task` the task that lists it. -/
structure InstCfg where
  iid : BitVec 32
  type : Nat
  tver : Nat := 1
  retain : Bool := false
  binds : List Bind := []
  params : List (BitVec 32) := []
  poly : Nat := 3
  task : Nat := 16
  deriving DecidableEq, Repr

/-- An expanded block net (R92, R97, R104). -/
structure Net where
  sigs : List SigCfg := []
  insts : List InstCfg := []
  /-- The invocation lists of the 16 tasks. -/
  lists : List (List Nat) := []
  fcode : Bytes := []
  pmcVisible : Bool := false
  deriving DecidableEq, Repr

/-- What a net holds while it runs: the working cells, the cells as each writing task left them at the end of its last
completed cycle (R91), and the data of the instances (R100). -/
structure NetSt where
  cells : List Cell := []
  pub : List Cell := []
  data : List InstData := []
  deriving DecidableEq, Repr

end Sys2Proof.Machine
end

