-- ==== Sys2Proof/Machine/Lib.lean ====
section
/-! DEFINITION. The block library (03_block_programs.md): qualities, ports and parameters of the types, and the behaviour of
the types that only read their inputs, parameters and state. -/

namespace Sys2Proof.Machine

/-! Quality. -/

/-- `STATUS`: 0 BAD, 1 UNCERTAIN, 2 GOOD; 3 is read as BAD (R84). -/
def qStatus (q : BitVec 8) : Nat := let s := q.toNat / 64; if s = 3 then 0 else s
/-- `SUB`, a code that R85 does not list read as 0. -/
def qSub (q : BitVec 8) : Nat :=
  let u := q.toNat / 4 % 16
  let top := if qStatus q = 0 then 7 else if qStatus q = 1 then 5 else 1
  if u ≤ top then u else 0
/-- `LIMIT` (R84). -/
def qLimit (q : BitVec 8) : Nat := q.toNat % 4
/-- A quality byte (R84). -/
def qMk (status sub limit : Nat) : BitVec 8 := BitVec.ofNat 8 (status * 64 + sub * 4 + limit)
/-- GOOD NON_SPECIFIC. -/
def qGood : BitVec 8 := qMk 2 0 0
/-- BAD with a substatus. -/
def qBad (sub : Nat) : BitVec 8 := qMk 0 sub 0
/-- UNCERTAIN with a substatus. -/
def qUnc (sub : Nat) : BitVec 8 := qMk 1 sub 0
/-- The status is BAD. -/
def qIsBad (q : BitVec 8) : Bool := qStatus q == 0
/-- A quality with another `LIMIT`. -/
def qWithLimit (q : BitVec 8) (l : Nat) : BitVec 8 := qMk (qStatus q) (qSub q) l

/-- R86 over the contributing inputs in port order: the lowest status, the substatus of the first input at it. -/
def qDerive : List (BitVec 8) → BitVec 8
  | [] => qGood
  | [q] => qMk (qStatus q) (qSub q) 0
  | q :: t => if qStatus q ≤ qStatus (qDerive t) then qMk (qStatus q) (qSub q) 0 else qDerive t

/-! Values by type code of R93: 1 BOOL, 2 INT16, 3 INT32, 4 REAL32, 5 Q15, 6 TIME, 7 DTIME. -/

/-- The BOOL that a cell holds (R10, R83). -/
def vBool (v : SigVal) : Bool := v.toNat % 256 != 0
/-- A BOOL as a cell value. -/
def ofBool (b : Bool) : SigVal := if b then 1 else 0
/-- The REAL32 that a cell holds. -/
def vReal (v : SigVal) : Real32 := v.setWidth 32
/-- A REAL32 as a cell value. -/
def ofReal (r : Real32) : SigVal := r.setWidth 96
/-- Width in bits of a type. -/
def tyWidth (ty : Nat) : Nat := if ty = 1 then 8 else if ty = 2 || ty = 5 then 16 else if ty = 7 then 96 else 32
/-- The integer that a cell of INT16, INT32, Q15 or TIME holds. -/
def vInt (ty : Nat) (v : SigVal) : Int := signed (tyWidth ty) v.toNat
/-- An integer as a cell value of a type. -/
def ofInt (ty : Nat) (i : Int) : SigVal := BitVec.ofNat 96 (unsigned (tyWidth ty) i)
/-- Least and greatest value of an integer type. -/
def tyMin (ty : Nat) : Int := -(2 ^ (tyWidth ty - 1) : Nat)
/-- See `tyMin`. -/
def tyMax (ty : Nat) : Int := (2 ^ (tyWidth ty - 1) : Nat) - 1
/-- A value cut to the width of its type (R83). -/
def cutTo (ty : Nat) (v : SigVal) : SigVal := if ty = 1 then ofBool (vBool v) else BitVec.ofNat 96 (v.toNat % 2 ^ tyWidth ty)

/-- A number extended by the infinities and NaN, in units of 2⁻¹⁴⁹ (R105, `CMP`). -/
inductive Ext where
  | nan
  | neg
  | fin (i : Int)
  | pos
  deriving DecidableEq, Repr

/-- A REAL32 as an extended number. -/
def extReal (r : Real32) : Ext :=
  if fIsNaN r then .nan else if fIsInf r then (if fSign r then .neg else .pos) else .fin (fUnits r)
/-- The value of a cell as an extended number: Q15 as its fraction, TIME in ms (R105). -/
def extOf (ty : Nat) (v : SigVal) : Ext :=
  if ty = 4 then extReal (vReal v) else if ty = 5 then .fin (vInt ty v * 2 ^ 134) else .fin (vInt ty v * 2 ^ 149)
/-- `a < b`; false with NaN. -/
def Ext.lt : Ext → Ext → Bool
  | .nan, _ => false
  | _, .nan => false
  | .neg, .neg => false
  | .neg, _ => true
  | _, .neg => false
  | .pos, _ => false
  | .fin _, .pos => true
  | .fin a, .fin b => decide (a < b)
/-- `a = b`; false with NaN. -/
def Ext.eqv : Ext → Ext → Bool
  | .nan, _ => false
  | a, b => a == b
/-- An extended number less or plus a finite amount. -/
def Ext.shift : Ext → Int → Ext
  | .fin i, d => .fin (i + d)
  | e, _ => e

/-! Ports and parameters (R105). -/

/-- The type of a port. -/
inductive PortT where
  | ty (t : Nat)
  | num
  | numt
  | src
  | dst
  /-- The type that an STYPE parameter names, of any type. -/
  | any
  | boolOrReal
  | sel
  deriving DecidableEq, Repr

/-- A row of the library: versions, fixed inputs with their (P) mark, the variable inputs (least and most number, type),
outputs, number of parameter words, data bytes (R105). -/
structure LibRow where
  code : Nat
  vers : List Nat := [1]
  ins : List (PortT × Bool) := []
  var : Option (Nat × Nat × PortT) := none
  outs : List PortT := []
  params : Nat := 0
  dsize : Nat := 8
  deriving DecidableEq, Repr

/-- BOOL, INT16, INT32, REAL32, Q15, TIME and DTIME ports, plain and (P). -/
def pB : PortT × Bool := (.ty 1, false)
/-- See `pB`. -/
def pI : PortT × Bool := (.ty 3, false)
/-- See `pB`. -/
def pR : PortT × Bool := (.ty 4, false)
/-- See `pB`. -/
def pRP : PortT × Bool := (.ty 4, true)

/-- The library's first part: logic, edges, timers, counters, numeric types (R105). -/
def libA : List LibRow :=
  [ { code := 0x0001, var := some (2, 16, .ty 1), outs := [.ty 1] },
    { code := 0x0002, var := some (2, 16, .ty 1), outs := [.ty 1] },
    { code := 0x0003, var := some (2, 16, .ty 1), outs := [.ty 1] },
    { code := 0x0004, ins := [pB], outs := [.ty 1] },
    { code := 0x0005, ins := [pB, pB], outs := [.ty 1], dsize := 16 },
    { code := 0x0006, ins := [pB, pB], outs := [.ty 1], dsize := 16 },
    { code := 0x0010, ins := [pB], outs := [.ty 1], params := 1, dsize := 16 },
    { code := 0x0011, ins := [pB], outs := [.ty 1], params := 1, dsize := 16 },
    { code := 0x0020, ins := [pB, (.ty 6, true)], outs := [.ty 1, .ty 6], params := 1, dsize := 32 },
    { code := 0x0021, ins := [pB, (.ty 6, true)], outs := [.ty 1, .ty 6], params := 1, dsize := 32 },
    { code := 0x0022, ins := [pB, (.ty 6, true)], outs := [.ty 1, .ty 6], params := 1, dsize := 32 },
    { code := 0x0030, ins := [pB, pB, (.ty 3, true)], outs := [.ty 1, .ty 3], params := 2, dsize := 24 },
    { code := 0x0032, ins := [pB, pB, pB, pB, (.ty 3, true)], outs := [.ty 1, .ty 1, .ty 3], params := 2, dsize := 32 } ]
/-- The library's second part. -/
def libB : List LibRow :=
  [ { code := 0x0040, var := some (2, 8, .numt), outs := [.numt] },
    { code := 0x0041, ins := [(.numt, false), (.numt, false)], outs := [.numt] },
    { code := 0x0042, var := some (2, 8, .num), outs := [.num] },
    { code := 0x0043, ins := [(.num, false), (.num, false)], outs := [.num] },
    { code := 0x0044, var := some (2, 8, .numt), outs := [.numt] },
    { code := 0x0045, var := some (2, 8, .numt), outs := [.numt] },
    { code := 0x0046, ins := [(.numt, false), (.numt, true), (.numt, true)], outs := [.numt], params := 2, dsize := 16 },
    { code := 0x0047, ins := [pB, (.numt, false), (.numt, false)], outs := [.numt] },
    { code := 0x0050, ins := [(.numt, false), (.numt, false)], outs := [.ty 1], params := 2, dsize := 16 },
    { code := 0x0051, ins := [(.src, false)], outs := [.dst], params := 3, dsize := 16 },
    { code := 0x0060, ins := [pR, pRP, pRP, pRP, pRP], outs := [.ty 4], params := 5, dsize := 32 },
    { code := 0x0061, ins := [pR, pRP], outs := [.ty 4], params := 2, dsize := 24 },
    { code := 0x0062, ins := [pR, pRP, pRP], outs := [.ty 4], params := 2, dsize := 24 },
    { code := 0x0063, ins := [pR], outs := [.ty 4], params := 1, dsize := 16 },
    { code := 0x0065, ins := [pR, pR, pR, pRP], outs := [.ty 4, .ty 1, .ty 2], params := 2, dsize := 24 },
    { code := 0x0070, vers := [1, 2], ins := [pR, pR, pR, pB, pR, pRP, pRP, pRP], outs := [.ty 4], params := 5, dsize := 48 } ]
/-- The library's third part: input and output types, time, system and formula. -/
def libC : List LibRow :=
  [ { code := 0x0071, ins := [(.ty 5, false), (.ty 5, false), (.ty 2, false), pB], outs := [.ty 5, .ty 5, .ty 2, .ty 2],
      params := 1, dsize := 24 },
    { code := 0x0080, outs := [.ty 1, .ty 7], params := 1, dsize := 16 },
    { code := 0x0081, ins := [pB], outs := [.ty 1, .ty 2], params := 1, dsize := 16 },
    { code := 0x0082, outs := [.ty 4], params := 1, dsize := 16 },
    { code := 0x0083, ins := [pR], outs := [.ty 4], params := 1, dsize := 16 },
    { code := 0x0084, ins := [pB], outs := [.ty 3, .ty 4], params := 2, dsize := 24 },
    { code := 0x0086, outs := [.any], params := 3, dsize := 16 },
    { code := 0x0087, ins := [(.any, false)], params := 3, dsize := 16 },
    { code := 0x0088, outs := [.ty 3, .ty 3, .ty 3, .ty 3, .ty 3, .ty 3, .ty 3, .ty 3, .ty 1, .ty 1], params := 2, dsize := 24 },
    { code := 0x0089, ins := [pB, pI, pI, pI, pI, pI, pI, pI, pI], outs := [.ty 1, .ty 2], params := 2, dsize := 24 },
    { code := 0x008B, ins := [pB], outs := [.ty 1, .ty 1, .ty 1, .ty 2], params := 1, dsize := 16 },
    { code := 0x0090, ins := [(.boolOrReal, false)], params := 1 },
    { code := 0x0091, outs := [.ty 2, .ty 1, .ty 1, .ty 1], params := 1, dsize := 16 },
    { code := 0x00A0, outs := [.ty 7] },
    { code := 0x00A2, ins := [pB, (.ty 7, false), (.ty 6, false)], outs := [.ty 1, .ty 2], params := 3, dsize := 24 },
    { code := 0x00A3, ins := [pB, (.ty 7, false)], outs := [.ty 2], params := 4, dsize := 24 },
    { code := 0x00B0, outs := [.sel], params := 1 },
    { code := 0x00B1, outs := [.ty 3, .ty 3], params := 2, dsize := 16 },
    { code := 0x00B2, ins := [pB, pI, pI, pI, pI, pI, pI], outs := [.ty 1], params := 2, dsize := 16 },
    { code := 0x00B3, ins := [pB], outs := [.ty 3], params := 2, dsize := 16 },
    { code := 0x00C0, ins := [pR, pR, pR, pR, pR, pR, pR, pR], outs := [.ty 4], params := 1, dsize := 16 } ]

/-- The row of a type code. -/
def libRow (code : Nat) : Option LibRow := (libA ++ libB ++ libC).find? fun r => r.code == code
/-- Parameter words of a type at a version, for a parameter block whose first word is `n` (R96, R105). -/
def libParams (r : LibRow) (tver n : Nat) : Nat :=
  if r.code = 0x0063 then 1 + 2 * n else if r.code = 0x0070 && tver = 2 then 6 else r.params
/-- Data bytes of a type at a version (R105). -/
def libSize (r : LibRow) (tver n : Nat) : Nat :=
  if r.code = 0x0063 then 16 + 8 * n else if r.code = 0x0070 && tver = 2 then 56 else r.dsize
/-- Least and most number of inputs. -/
def LibRow.inRange (r : LibRow) : Nat × Nat := match r.var with | some (lo, hi, _) => (lo, hi) | none => (r.ins.length, r.ins.length)
/-- The inputs of an instance with `n` of them. -/
def LibRow.inPorts (r : LibRow) (n : Nat) : List (PortT × Bool) :=
  match r.var with | some (_, _, t) => List.replicate n (t, false) | none => r.ins

/-! Evaluation. -/

/-- An input as a block reads it: value, quality, connected (R87, R95); `held` where a (P) input is `BAD` and another value is used. -/
structure In where
  v : SigVal := 0
  q : BitVec 8 := qGood
  conn : Bool := false
  held : Bool := false
  deriving DecidableEq, Repr

/-- An output: its value, `none` where the signal keeps the value it held (R89), and its quality. -/
structure Outp where
  v : Option SigVal
  q : BitVec 8
  deriving DecidableEq, Repr

/-- The qualities of the connected inputs among `l`. -/
def qualsOf (l : List In) : List (BitVec 8) := (l.filter (·.conn)).map (·.q)
/-- R86 over inputs. -/
def qOf (l : List In) : BitVec 8 := qDerive (qualsOf l)
/-- Input `i`. -/
def inAt (l : List In) (i : Nat) : In := at_ l i {}
/-- BOOL input `i`. -/
def inB (l : List In) (i : Nat) : Bool := vBool (inAt l i).v
/-- REAL32 input `i`. -/
def inR (l : List In) (i : Nat) : Real32 := vReal (inAt l i).v
/-- An output with a value. -/
def outV (v : SigVal) (q : BitVec 8) : Outp := ⟨some v, q⟩
/-- A BOOL output. -/
def outB (b : Bool) (q : BitVec 8) : Outp := ⟨some (ofBool b), q⟩
/-- An integer output of type `ty`, saturated, `LIMIT` set when it saturates (R89). -/
def outSat (ty : Nat) (i : Int) (q : BitVec 8) : Outp :=
  ⟨some (ofInt ty (clamp (tyMin ty) (tyMax ty) i)),
   if i < tyMin ty then qWithLimit q 1 else if tyMax ty < i then qWithLimit q 2 else q⟩
/-- A REAL32 output: a result that is not finite keeps the value, with `BAD` `MATH` (R89). -/
def outR (r : Real32) (q : BitVec 8) : Outp := if fIsFin r then ⟨some (ofReal r), q⟩ else ⟨none, qBad 6⟩

/-- An edge memory (R110 to R112): `first` is the FIRST parameter, `init` the level before the first execution, `m` and `k` the
memory and whether it holds a level. Gives the previous level where one may be compared, and the new memory. -/
def edgeMem (first init clk bad m k : Bool) : Option Bool × Bool × Bool :=
  if bad then (none, m, k)
  else if !k && first then (none, clk, true)
  else (some (if k then m else init), clk, true)
/-- A rising edge under R601: the edge and the new memory. -/
def riseEdge (i : In) (d : InstData) : Bool × InstData :=
  let r := edgeMem false false (vBool i.v) (qIsBad i.q) d.m1 d.k1
  (r.1 == some false && vBool i.v, { d with m1 := r.2.1, k1 := r.2.2 })

/-- ET after Δ of `dt` phases, capped at `pt` ms, with the part below 1 ms carried (R107, R108). -/
def addEt (d : InstData) (dt pt : Nat) : InstData :=
  let s := d.sub + dt
  let e := d.et + s / 1600000
  if pt ≤ e then { d with et := pt, sub := 0 } else { d with et := e, sub := s % 1600000 }
/-- `PT` in use in ms: below 0 it is used as 0 (R108). -/
def ptOf (i : In) : Nat := (vInt 6 i.v).toNat

/-- `TON` (R108, R109). -/
def evalTon (inp : Bool) (pt dt : Nat) (d : InstData) : InstData :=
  let d1 := if inp then (if d.m1 then addEt d dt pt else { d with et := 0, sub := 0 }) else { d with et := 0, sub := 0 }
  { d1 with q := inp && decide (pt ≤ d1.et), m1 := inp }
/-- `TOF` (R108, R109). -/
def evalTof (inp : Bool) (pt dt : Nat) (d : InstData) : InstData :=
  if inp then { d with et := 0, sub := 0, q := true, m1 := true }
  else if d.m1 then { d with et := 0, sub := 0, q := decide (0 < pt), m1 := false }
  else if d.q then
    let d1 := addEt d dt pt
    { d1 with q := decide (d1.et < pt), m1 := false }
  else { d with et := Nat.min d.et pt, q := false, m1 := false }
/-- `TP` (R108, R109). -/
def evalTp (inp : Bool) (pt dt : Nat) (d : InstData) : InstData :=
  if d.timing then
    let d1 := addEt d dt pt
    { d1 with q := decide (d1.et < pt), timing := decide (d1.et < pt), m1 := inp }
  else if inp && !d.m1 then { d with et := 0, sub := 0, q := decide (0 < pt), timing := decide (0 < pt), m1 := true }
  else if inp then { d with et := Nat.min d.et pt, q := false, m1 := true }
  else { d with et := 0, sub := 0, q := false, m1 := false }

/-- `LIMIT` of a counter's CV (R113). -/
def cvLimit (cv : Int) : Nat := if cv = tyMin 3 then 1 else if cv = tyMax 3 then 2 else 0
/-- CV within INT32 (R113). -/
def cvSat (cv : Int) : Int := clamp (tyMin 3) (tyMax 3) cv

/-- The result of an integer, TIME or Q15 `MUL` (R89, R105): exact over all inputs, rounded once. -/
def mulExact (ty : Nat) (xs : List Int) : Int :=
  let p := xs.foldl (· * ·) 1
  if ty = 5 then (let k : Int := 2 ^ (15 * (xs.length - 1)); (2 * p + k) / (2 * k)) else p
/-- The result of an integer or Q15 `DIV` with a divisor other than 0 (R105). -/
def divExact (ty : Nat) (a b : Int) : Int :=
  if ty = 5 then
    let n := if b < 0 then -a * 32768 else a * 32768
    let m : Int := b.natAbs
    (2 * n + m) / (2 * m)
  else Int.tdiv a b

/-- The relation of `CMP` (R105). -/
def cmpRel (op : Nat) (a b : Ext) : Bool :=
  match op with
  | 0 => b.lt a
  | 1 => b.lt a || a.eqv b
  | 2 => a.eqv b
  | 3 => !a.eqv b
  | 4 => a.lt b || a.eqv b
  | _ => a.lt b
/-- Q of `CMP` after an execution (R105). -/
def cmpNext (op : Nat) (hys : Int) (a b : Ext) (q : Bool) : Bool :=
  if cmpRel op a b then true
  else if op = 2 || op = 3 then false
  else if op ≤ 1 then (if a.lt (b.shift (-hys)) then false else q)
  else if (b.shift hys).lt a then false else q

/-- Value `x` comes before `y` for `MIN` (R105). -/
def beforeOf (ty : Nat) (x y : SigVal) : Bool :=
  if ty = 4 then
    if fIsNaN (vReal x) || fIsNaN (vReal y) then Config.nanBefore (vReal x) (vReal y) else fLt (vReal x) (vReal y)
  else decide (vInt ty x < vInt ty y)
/-- The least (or greatest) input; among equal values the first (R105). -/
def pick (less : SigVal → SigVal → Bool) : List In → In → In
  | [], b => b
  | i :: t, b => pick less t (if less i.v b.v then i else b)

/-- Value-mode `CONV` (R105). -/
def convValue (src dst : Nat) (v : SigVal) (q : BitVec 8) : Outp :=
  if src = dst then (if dst = 4 then outR (vReal v) q else outV v q)
  else if src = 4 then
    let r := vReal v
    let k := if dst = 5 then 32768 else 1
    let i : Int :=
      if fIsNaN r then clamp (tyMin dst) (tyMax dst) (Config.nanToInt dst r)
      else if fIsInf r then (if fSign r then tyMin dst - 1 else tyMax dst + 1)
      else
        let m : Nat := rneDiv (fMag r * k) (2 ^ 149)
        if fSign r then -(m : Int) else m
    outSat dst i q
  else if dst = 4 then
    outR (fOfRat (vInt src v) (if src = 5 then 32768 else 1)) q
  else if src = 5 then
    let m : Nat := rneDiv (vInt 5 v).natAbs 32768
    outSat dst (if vInt 5 v < 0 then -(m : Int) else m) q
  else if dst = 5 then outSat dst (vInt src v * 32768) q
  else outSat dst (vInt src v) q

/-- `CHAR`: the segment of the pairs that x lies on, or the end value with its `LIMIT` (R105). -/
def charAt : List (Real32 × Real32) → Real32 → Real32 × Nat
  | [], _ => (0, 0)
  | [(_, y)], _ => (y, 2)
  | (x0, y0) :: (x1, y1) :: t, x =>
    if fLt x x0 then (y0, 1)
    else if fLe x x1 then (fAdd y0 (fDiv (fMul (fSub x x0) (fSub y1 y0)) (fSub x1 x0)), 0)
    else charAt ((x1, y1) :: t) x
/-- Words in pairs. -/
def pairsOf : List (BitVec 32) → List (Real32 × Real32)
  | a :: b :: t => (a, b) :: pairsOf t
  | _ => []

/-- The middle of three REAL32 values. -/
def median3 (a b c : Real32) : Real32 :=
  let mn (x y : Real32) : Real32 := if fLt y x then y else x
  let mx (x y : Real32) : Real32 := if fLt x y then y else x
  mx (mn a b) (mn (mx a b) c)

/-- `VOTE3` (R105): outputs Y, DEV and NGOOD. -/
def evalVote (ins : List In) (two : Nat) : List Outp :=
  let xs := (ins.take 3).filter fun i => !qIsBad i.q
  let q := qOf xs
  let dl := inAt ins 3
  let r := xs.map fun i => vReal i.v
  let qd := qDerive (qualsOf xs ++ qualsOf [dl])
  let n : Outp := outV (ofInt 2 xs.length) q
  match r with
  | [a, b, c] =>
    let mx := if fLt a b then (if fLt b c then c else b) else (if fLt a c then c else a)
    let mn := if fLt b a then (if fLt c b then c else b) else (if fLt c a then c else a)
    [outR (median3 a b c) q, outB (fLt (vReal dl.v) (fSub mx mn)) qd, n]
  | [a, b] =>
    let y := if two = 0 then fDiv (fAdd a b) 0x40000000 else if two = 1 then (if fLt b a then b else a) else (if fLt a b then b else a)
    [outR y (qUnc 0), outB (Config.voteDev r (vReal dl.v)) qd, n]
  | [a] => [outR a (qUnc 2), outB (Config.voteDev r (vReal dl.v)) qd, n]
  | _ => [⟨none, qOf ((ins.take 3))⟩, outB (Config.voteDev r (vReal dl.v)) (qOf (ins.take 3)), outV (ofInt 2 0) (qOf (ins.take 3))]

/-- Binary operators of a formula, codes of R116. -/
def formula2 (op : Nat) (a b : Real32) : Real32 :=
  match op with
  | 0x001 => fAdd a b
  | 0x002 => fSub a b
  | 0x003 => fMul a b
  | 0x004 => fDiv a b
  | 0x007 => if fIsNaN a || fIsNaN b then (if Config.nanBefore b a then b else a) else if fLt b a then b else a
  | 0x008 => if fIsNaN a || fIsNaN b then (if Config.nanBefore b a then a else b) else if fLt a b then b else a
  | 0x010 => if fLt b a then fOne else 0
  | 0x011 => if fLt a b then fOne else 0
  | 0x009 => fPow a b
  | _ => fAtan2 a b
/-- Unary operators of a formula (R116). -/
def formula1 (op : Nat) (b : Real32) : Real32 :=
  match op with
  | 0x005 => fNeg b
  | 0x006 => fAbs b
  | 0x00A => fSqrt b
  | 0x00B => fExpOf b
  | 0x00C => fLn b
  | 0x00D => fSin b
  | _ => fCos b
/-- Operands that an operator pops; none for an undefined code (R116). -/
def formulaPops (op : Nat) : Option Nat :=
  if op = 0x012 then some 3
  else if op = 0x005 || op = 0x006 || (0x00A ≤ op && op ≤ 0x00E) then some 1
  else if (0x001 ≤ op && op ≤ 0x004) || (0x007 ≤ op && op ≤ 0x009) || op = 0x00F || op = 0x010 || op = 0x011 then some 2
  else none
/-- The stack after one token (R115, R116). -/
def formulaStep (xs : List Real32) (cs : List Real32) (y : Real32) (stk : List Real32) (tok : Nat) : List Real32 :=
  let arg := tok % 4096
  match tok / 4096 with
  | 1 => at_ xs (arg - 1) 0 :: stk
  | 2 => at_ cs arg 0 :: stk
  | 3 => y :: stk
  | _ =>
    match formulaPops arg, stk with
    | some 1, b :: t => formula1 arg b :: t
    | some 2, b :: a :: t => formula2 arg a b :: t
    | some 3, c :: b :: a :: t => (if fEq c 0 then b else a) :: t
    | _, s => s
/-- Constants and tokens of the formula at byte offset `off` (R114). -/
def formulaParts (code : Bytes) (off : Nat) : List Real32 × List Nat :=
  let ntok := field code off 1
  let ncon := field code (off + 1) 1
  (tabulate ncon fun i => BitVec.ofNat 32 (field code (off + 4 + 4 * i) 4),
   tabulate ntok fun i => field code (off + 4 + 4 * ncon + 2 * i) 2)
/-- `FORMULA` (R114 to R117). -/
def evalFormula (code : Bytes) (off : Nat) (ins : List In) (y : Real32) : Outp :=
  let p := formulaParts code off
  let used := (enumFrom 1 ins).filterMap fun e => if p.2.contains (0x1000 + e.1) then some e.2 else none
  match p.2.foldl (formulaStep (ins.map fun i => vReal i.v) p.1 y) [] with
  | r :: _ => outR r (qOf used)
  | [] => outR 0 (qOf used)
/-- The check of a formula (R117). -/
def formulaOk (code : Bytes) (off : Nat) : Bool :=
  let ncon := field code (off + 1) 1
  let depth := field code (off + 2) 1
  let step (st : Option Nat) (tok : Nat) : Option Nat :=
    st.bind fun d =>
      let arg := tok % 4096
      let push : Option Nat := if d + 1 ≤ 16 && d + 1 ≤ depth then some (d + 1) else none
      match tok / 4096 with
      | 0 => (formulaPops arg).bind fun k => if k ≤ d then some (d - k + 1) else none
      | 1 => if 1 ≤ arg && arg ≤ 8 then push else none
      | 2 => if arg < ncon then push else none
      | 3 => if arg = 0 then push else none
      | _ => none
  off % 4 == 0 && decide (1 ≤ field code off 1) && decide (field code off 1 ≤ 64) && decide (ncon ≤ 16) &&
    ((formulaParts code off).2.foldl step (some 0) == some 1)

/-- Parameter word `i` of an instance. -/
def pw (ps : List (BitVec 32)) (i : Nat) : BitVec 32 := at_ ps i 0

/-- One execution of `PID` (R105): a parallel law on SP - PV with derivative on PV and FF added, limited to OUTLO … OUTHI, the integrator
stopped at the limits; in manual the integrator tracks MV_M, so that the return to auto is without a bump. Version 2 filters the
derivative with TF as `LAG` does. What the integral and derivative parts gain in one execution the spec leaves open (log entry 109). -/
def evalPid (tver dt : Nat) (first : Bool) (rs : List Real32) (man : Bool) (ps : List (BitVec 32)) (d : InstData) : Real32 × InstData :=
  let r (i : Nat) : Real32 := at_ rs i 0
  let dl := fOfRat dt 1600000000
  let kp := r 5
  let e := fSub (r 1) (r 0)
  let i0 := if first then 0 else at_ d.st 0 0
  let raw := if first then 0 else Config.pidDerivative kp (r 7) (r 0) (at_ d.st 1 0) dl
  let tf := if tver < 2 ∨ d.mapTf then 0 else pw ps 5
  let d0 := at_ d.st 2 0
  let dp := if first || fLe tf 0 then raw else fAdd d0 (fDiv (fMul (fSub raw d0) dl) (fAdd tf dl))
  let rest := fAdd (fAdd (fMul kp e) dp) (r 2)
  let lo := pw ps 3
  let hi := pw ps 4
  if man then (r 4, { d with st := [fSub (r 4) rest, r 0, dp] })
  else
    let i1 := if first then i0 else fAdd i0 (Config.pidIntegral kp (r 6) e dl)
    let u := fAdd rest i1
    if fLt hi u then (hi, { d with st := [i0, r 0, dp] })
    else if fLt u lo then (lo, { d with st := [i0, r 0, dp] })
    else (u, { d with st := [i1, r 0, dp] })

/-- The outputs and the new state of a type that reads only its inputs, parameters and state; `dt` is Δ in phases,
`first` the first execution (R105 to R117). None for the other types. `SCALE` with INLO = INHI keeps Y, and LIMIT of `RATE` is 2 while it
limits a rise and 1 while it limits a fall (DESIGN CHOICE, log entry 147). -/
def libEval (code tver ty : Nat) (fcode : Bytes) (ps : List (BitVec 32)) (dt : Nat) (first : Bool) (ins : List In)
    (d : InstData) : Option (List Outp × InstData) :=
  let q := qOf ins
  let bs := ins.map fun i => vBool i.v
  let xs := ins.map fun i => vInt ty i.v
  let rs := ins.map fun i => vReal i.v
  let i0 := inAt ins 0
  let i1 := inAt ins 1
  match code with
  | 0x0001 => some ([outB (bs.all id) q], d)
  | 0x0002 => some ([outB (bs.any id) q], d)
  | 0x0003 => some ([outB (bs.foldl xor false) q], d)
  | 0x0004 => some ([outB (!vBool i0.v) q], d)
  | 0x0005 => let r := inB ins 0 || (d.q && !inB ins 1); some ([outB r q], { d with q := r })
  | 0x0006 => let r := !inB ins 1 && (inB ins 0 || d.q); some ([outB r q], { d with q := r })
  | 0x0010 =>
    let c := vBool i0.v
    let e := edgeMem (pw ps 0 != 0) false c (qIsBad i0.q) d.m1 d.k1
    some ([outB (e.1 == some false && c) q], { d with m1 := e.2.1, k1 := e.2.2 })
  | 0x0011 =>
    let c := vBool i0.v
    let e := edgeMem (pw ps 0 != 0) true c (qIsBad i0.q) d.m1 d.k1
    some ([outB (e.1 == some true && !c) q], { d with m1 := e.2.1, k1 := e.2.2 })
  | 0x0020 | 0x0021 | 0x0022 =>
    let pt := ptOf i1
    let c := vBool i0.v
    let d1 := if code = 0x0020 then evalTon c pt dt d else if code = 0x0021 then evalTof c pt dt d else evalTp c pt dt d
    -- PT contributes only while it runs on its last usable value (R109)
    let qt := qDerive (qualsOf [i0] ++ (if i1.held then [i1.q] else []))
    some ([outB d1.q qt, outV (ofInt 6 d1.et) qt], d1)
  | 0x0030 =>
    let e := edgeMem (pw ps 1 != 0) false (vBool i0.v) (qIsBad i0.q) d.m1 d.k1
    let up := e.1 == some false && vBool i0.v
    let cv := if inB ins 1 then 0 else if up then cvSat (d.cv + 1) else d.cv
    some ([outB (decide (vInt 3 (inAt ins 2).v ≤ cv)) q,
           outV (ofInt 3 cv) (qWithLimit (qOf (ins.take 2)) (cvLimit cv))],
          { d with cv := cv, m1 := e.2.1, k1 := e.2.2 })
  | 0x0032 =>
    let e := edgeMem (pw ps 1 != 0) false (vBool i0.v) (qIsBad i0.q) d.m1 d.k1
    let f := edgeMem (pw ps 1 != 0) false (vBool i1.v) (qIsBad i1.q) d.m2 d.k2
    let up := e.1 == some false && vBool i0.v
    let dn := f.1 == some false && vBool i1.v
    let pv := vInt 3 (inAt ins 4).v
    let cv := if inB ins 2 then 0 else if inB ins 3 then pv
      else if up && !dn then cvSat (d.cv + 1) else if dn && !up then cvSat (d.cv - 1) else d.cv
    some ([outB (decide (pv ≤ cv)) q, outB (decide (cv ≤ 0)) q, outV (ofInt 3 cv) (qWithLimit q (cvLimit cv))],
          { d with cv := cv, m1 := e.2.1, k1 := e.2.2, m2 := f.2.1, k2 := f.2.2 })
  | 0x0040 => some ([if ty = 4 then outR (rs.tail.foldl fAdd (at_ rs 0 0)) q else outSat ty xs.sum q], d)
  | 0x0041 => some ([if ty = 4 then outR (fSub (at_ rs 0 0) (at_ rs 1 0)) q else outSat ty (at_ xs 0 0 - at_ xs 1 0) q], d)
  | 0x0042 => some ([if ty = 4 then outR (rs.tail.foldl fMul (at_ rs 0 0)) q else outSat ty (mulExact ty xs) q], d)
  | 0x0043 =>
    let a := at_ xs 0 0
    let b := at_ xs 1 0
    some ([if ty = 4 then outR (fDiv (at_ rs 0 0) (at_ rs 1 0)) q
           else if b = 0 then outV (ofInt ty (if a = 0 then 0 else if a < 0 then tyMin ty else tyMax ty)) (qBad 6)
           else outSat ty (divExact ty a b) q], d)
  | 0x0044 =>
    let p := pick (beforeOf ty) ins.tail i0
    some ([if ty = 4 then outR (vReal p.v) p.q else outV p.v p.q], d)
  | 0x0045 =>
    let p := pick (fun x y => beforeOf ty y x) ins.tail i0
    some ([if ty = 4 then outR (vReal p.v) p.q else outV p.v p.q], d)
  | 0x0046 =>
    let lo := i1.v
    let hi := (inAt ins 2).v
    let lt (x y : SigVal) : Bool := if ty = 4 then fLt (vReal x) (vReal y) else decide (vInt ty x < vInt ty y)
    let mk (v : SigVal) (q : BitVec 8) : Outp := if ty = 4 then outR (vReal v) q else outV v q
    some ([if lt hi lo then mk lo (qBad 1)
           else if lt i0.v lo then mk lo (qWithLimit q 1)
           else if lt hi i0.v then mk hi (qWithLimit q 2) else mk i0.v q], d)
  | 0x0047 =>
    let s := if inB ins 0 then inAt ins 2 else i1
    let qs := qOf [i0, s]
    some ([if ty = 4 then outR (vReal s.v) qs else outV s.v qs], d)
  | 0x0050 =>
    let r := cmpNext (pw ps 0).toNat (fUnits (pw ps 1)) (extOf ty i0.v) (extOf ty i1.v) d.q
    some ([outB r q], { d with q := r })
  | 0x0051 =>
    some ([if (pw ps 2).toNat % 256 = 1 then outV i0.v q
           else convValue ((pw ps 0).toNat % 256) ((pw ps 1).toNat % 256) i0.v q], d)
  | 0x0060 =>
    let lo := at_ rs 1 0
    let hi := at_ rs 2 0
    let ol := at_ rs 3 0
    let oh := at_ rs 4 0
    if fEq lo hi then some ([⟨none, qBad 1⟩], d)
    else
      let y := fAdd ol (fDiv (fMul (fSub (at_ rs 0 0) lo) (fSub oh ol)) (fSub hi lo))
      let mn := if fLt oh ol then oh else ol
      let mx := if fLt oh ol then ol else oh
      some ([if pw ps 4 != 0 && fLt y mn then outR mn (qWithLimit q 1)
             else if pw ps 4 != 0 && fLt mx y then outR mx (qWithLimit q 2) else outR y q], d)
  | 0x0061 =>
    let x := at_ rs 0 0
    let t := at_ rs 1 0
    let dl := fOfRat dt 1600000000
    let y := if first || fLe t 0 then x else fAdd d.y (fDiv (fMul (fSub x d.y) dl) (fAdd t dl))
    some ([outR y q], if fIsFin y then { d with y := y } else d)
  | 0x0062 =>
    let x := at_ rs 0 0
    let dl := fOfRat dt 1600000000
    let up := fMul (at_ rs 1 0) dl
    let dn := fMul (at_ rs 2 0) dl
    let e := fSub x d.y
    let r : Real32 × Nat := if fLt up e then (fAdd d.y up, 2) else if fLt e (fNeg dn) then (fSub d.y dn, 1) else (x, 0)
    some ([outR r.1 (qWithLimit q r.2)], if fIsFin r.1 then { d with y := r.1 } else d)
  | 0x0063 =>
    let r := charAt (pairsOf (ps.drop 1)) (at_ rs 0 0)
    some ([outR r.1 (qWithLimit q r.2)], d)
  | 0x0065 => some (evalVote ins (pw ps 1).toNat, d)
  | 0x0070 =>
    let r := evalPid tver dt first rs (inB ins 3) ps d
    some ([outR r.1 q], if fIsFin r.1 then r.2 else d)
  | 0x00C0 =>
    let o := evalFormula fcode (pw ps 0).toNat ins d.y
    some ([o], match o.v with | some v => { d with y := vReal v } | none => d)
  | _ => none

end Sys2Proof.Machine
end

