-- ==== Sys2Proof/Machine/Crypto.lean ====
section
/-! DEFINITION. The checks that the spec names by their standards: CRC-32 (R44), SHA-256 and
ECDSA P-256 (R48, R49), HMAC-SHA-256 (R307). -/

namespace Sys2Proof.Machine

/-- `k` steps of the reflected CRC register `r` with polynomial `poly` (R44). -/
def crcBits (poly : Nat) : Nat → Nat → Nat
  | 0, r => r
  | k + 1, r => crcBits poly k (if r % 2 = 1 then (r / 2) ^^^ poly else r / 2)

/-- The CRC-32 register after bytes (R44). -/
def crc32Reg : Nat → Bytes → Nat
  | r, [] => r
  | r, b :: t => crc32Reg (crcBits 0xEDB88320 8 (r ^^^ b.toNat)) t

/-- The CRC-32 of bytes (R44). -/
def crc32 (b : Bytes) : Nat := crc32Reg 0xFFFFFFFF b ^^^ 0xFFFFFFFF

/-- The largest number of at most `n` bits whose `e`-th power is at most `v`, found bit by bit from `acc` on. -/
def rootBits (e v : Nat) : Nat → Nat → Nat
  | 0, acc => acc
  | n + 1, acc => rootBits e v n (if (acc + 2 ^ n) ^ e ≤ v then acc + 2 ^ n else acc)

/-- The prime numbers below 312: the first 64. -/
def smallPrimes : List Nat :=
  (List.range 312).filter fun n => decide (2 ≤ n) && (List.range n).all fun d => decide (d < 2) || n % d != 0

/-- The first 32 bits of the fractional part of the `e`-th root of `p`: SHA-256 takes its constants so (FIPS 180-4). -/
def rootFraction (e p : Nat) : BitVec 32 := BitVec.ofNat 32 (rootBits e (p * 2 ^ (32 * e)) 40 0)

/-- The round constants of SHA-256: the cube roots of the first 64 primes. -/
def shaK : List (BitVec 32) := smallPrimes.map (rootFraction 3)

/-- The eight working words of SHA-256. -/
structure ShaReg where
  a : BitVec 32
  b : BitVec 32
  c : BitVec 32
  d : BitVec 32
  e : BitVec 32
  f : BitVec 32
  g : BitVec 32
  h : BitVec 32
  deriving DecidableEq, Repr

/-- The initial hash value: the square roots of the first eight primes. -/
def shaInit : ShaReg :=
  let r (p : Nat) := rootFraction 2 p
  ⟨r 2, r 3, r 5, r 7, r 11, r 13, r 17, r 19⟩

/-- One round with constant `k` and schedule word `w`. -/
def shaRound (r : ShaReg) (k w : BitVec 32) : ShaReg :=
  let s1 := r.e.rotateRight 6 ^^^ r.e.rotateRight 11 ^^^ r.e.rotateRight 25
  let ch := (r.e &&& r.f) ^^^ (~~~r.e &&& r.g)
  let t1 := r.h + s1 + ch + k + w
  let s0 := r.a.rotateRight 2 ^^^ r.a.rotateRight 13 ^^^ r.a.rotateRight 22
  let mj := (r.a &&& r.b) ^^^ (r.a &&& r.c) ^^^ (r.b &&& r.c)
  ⟨t1 + (s0 + mj), r.a, r.b, r.c, r.d + t1, r.e, r.f, r.g⟩

/-- The next schedule word from the last sixteen, newest first. -/
def shaNext (w : List (BitVec 32)) : BitVec 32 :=
  let w2 := w.getD 1 0
  let w15 := w.getD 14 0
  (w2.rotateRight 17 ^^^ w2.rotateRight 19 ^^^ (w2 >>> 10)) + w.getD 6 0 +
    (w15.rotateRight 7 ^^^ w15.rotateRight 18 ^^^ (w15 >>> 3)) + w.getD 15 0

/-- The schedule, newest first, with `n` more words. -/
def shaSched : Nat → List (BitVec 32) → List (BitVec 32)
  | 0, w => w
  | n + 1, w => shaSched n (shaNext w :: w)

/-- The words of a 64-byte block, big-endian. -/
def shaWords : Nat → Bytes → List (BitVec 32)
  | 0, _ => []
  | n + 1, b => BitVec.ofNat 32 (beNat (b.take 4)) :: shaWords n (b.drop 4)

/-- The hash value after one block. -/
def shaBlock (h : ShaReg) (blk : Bytes) : ShaReg :=
  let w := (shaSched 48 (shaWords 16 blk).reverse).reverse
  let r := (shaK.zip w).foldl (fun r kw => shaRound r kw.1 kw.2) h
  ⟨h.a + r.a, h.b + r.b, h.c + r.c, h.d + r.d, h.e + r.e, h.f + r.f, h.g + r.g, h.h + r.h⟩

/-- The hash value after `n` blocks. -/
def shaBlocks : Nat → ShaReg → Bytes → ShaReg
  | 0, h, _ => h
  | n + 1, h, b => shaBlocks n (shaBlock h (b.take 64)) (b.drop 64)

/-- SHA-256 of bytes, 32 bytes. -/
def sha256 (b : Bytes) : Bytes :=
  let zeros := (119 - b.length % 64) % 64
  let p := b ++ [0x80] ++ List.replicate zeros 0 ++ natBe 8 (8 * b.length)
  let h := shaBlocks (p.length / 64) shaInit p
  [h.a, h.b, h.c, h.d, h.e, h.f, h.g, h.h].flatMap fun w => natBe 4 w.toNat

/-- HMAC-SHA-256 (RFC 2104) of `msg` under `key`. -/
def hmacSha256 (key msg : Bytes) : Bytes :=
  let k0 := if 64 < key.length then sha256 key else key
  let k := k0 ++ List.replicate (64 - k0.length) 0
  sha256 (k.map (· ^^^ 0x5c) ++ sha256 (k.map (· ^^^ 0x36) ++ msg))

/-- The field prime of P-256. -/
def p256P : Nat := 2 ^ 256 - 2 ^ 224 + 2 ^ 192 + 2 ^ 96 - 1
/-- The group order of P-256. -/
def p256N : Nat := 0xffffffff00000000ffffffffffffffffbce6faada7179e84f3b9cac2fc632551
/-- The coefficient b of P-256. -/
def p256B : Nat := 0x5ac635d8aa3a93e7b3ebbd55769886bc651d06b0cc53b0f63bce3c3e27d2604b
/-- The base point of P-256. -/
def p256G : Nat × Nat :=
  (0x6b17d1f2e12c4247f8bce6e563a440f277037d812deb33a0f4a13945d898c296,
   0x4fe342e2fe1a7f9b8ee7eb4a7c0f9e162bce33576b315ececbb6406837bf51f5)

/-- `a - b` modulo `m`. -/
def subMod (m a b : Nat) : Nat := (a + (m - b % m)) % m

/-- `b ^ e` modulo `m` by `fuel` squarings. -/
def powMod (m : Nat) : Nat → Nat → Nat → Nat → Nat
  | 0, _, _, acc => acc
  | fuel + 1, b, e, acc => powMod m fuel (b * b % m) (e / 2) (if e % 2 = 1 then acc * b % m else acc)

/-- The inverse of `a` modulo the prime `m`. -/
def invMod (m a : Nat) : Nat := powMod m 256 (a % m) (m - 2) 1

/-- A point of the curve: none is the point at infinity. -/
abbrev EcPt := Option (Nat × Nat)

/-- The sum of two points of P-256. -/
def ptAdd : EcPt → EcPt → EcPt
  | none, q => q
  | p, none => p
  | some (x1, y1), some (x2, y2) =>
    if x1 = x2 then
      if (y1 + y2) % p256P = 0 then none
      else
        let l := (3 * x1 * x1 + (p256P - 3)) * invMod p256P (2 * y1) % p256P
        let x3 := subMod p256P (l * l) (x1 + x2)
        some (x3, subMod p256P (l * subMod p256P x1 x3) y1)
    else
      let l := subMod p256P y2 y1 * invMod p256P (subMod p256P x2 x1) % p256P
      let x3 := subMod p256P (l * l) (x1 + x2)
      some (x3, subMod p256P (l * subMod p256P x1 x3) y1)

/-- `k · p` by `fuel` doublings. -/
def ptMul : Nat → Nat → EcPt → EcPt → EcPt
  | 0, _, _, acc => acc
  | fuel + 1, k, p, acc => ptMul fuel (k / 2) (ptAdd p p) (if k % 2 = 1 then ptAdd acc p else acc)

/-- The point lies on the curve. -/
def onCurve (x y : Nat) : Bool :=
  decide (x < p256P) && decide (y < p256P) &&
    decide (y * y % p256P = (x * x * x + (p256P - 3) * x + p256B) % p256P)

/-- ECDSA P-256 verification of signature `sig` (r, s big-endian) over SHA-256 of `msg` with the public key
`pub` (X, Y big-endian) (R48, R49). -/
def ecdsaVerify (pub msg sig : Bytes) : Bool :=
  let qx := beNat (slice pub 0 32)
  let qy := beNat (slice pub 32 32)
  let r := beNat (slice sig 0 32)
  let s := beNat (slice sig 32 32)
  onCurve qx qy && decide (0 < r) && decide (r < p256N) && decide (0 < s) && decide (s < p256N) &&
    (let e := beNat (sha256 msg)
     let w := invMod p256N s
     match ptAdd (ptMul 256 (e * w % p256N) (some p256G) none) (ptMul 256 (r * w % p256N) (some (qx, qy)) none) with
     | none => false
     | some (x, _) => decide (x % p256N = r))

end Sys2Proof.Machine
end

