-- ==== Sys2Proof/Machine/TypesTime.lean ====
section
/-! DEFINITION. The state and configuration types of device time and timed actions (09_time_and_timed_actions.md). -/

namespace Sys2Proof.Machine

/-- The time base (R275 to R278). `mono` is elapsed time in phases of 0.625 ns; `root` counts ROOT cycles; `now` is
device time in units of 2⁻³⁰ ns since the PTP epoch. -/
structure TimeBase where
  mono : Nat := 0
  root : Nat := 0
  now : Nat := 0
  addend : BitVec 32 := 0xA0000000
  /-- The number of the cadence tick that comes next (R130). -/
  nextTick : Nat := 1
  /-- The forced override: ROOT runs from the internal oscillator at 25 MHz (R503). -/
  slow : Bool := false
  /-- The levels of `SYNC0` and `SYNC1` at the pins (R17, R28, R298). -/
  sync : List Bool := [false, false]
  deriving DecidableEq, Repr

/-- Time quality (R279). -/
inductive TimeQ where
  | free
  | locking
  | locked
  | holdover
  | degraded
  deriving DecidableEq, Repr

/-- The code of a quality state (R279). -/
def TimeQ.code : TimeQ → Nat
  | .free => 0
  | .locking => 1
  | .locked => 2
  | .holdover => 3
  | .degraded => 4

/-- The PTP record (R288). -/
structure PtpCfg where
  profile : Nat := 0
  gmCapable : Bool := false
  boundary : Bool := false
  transparent : Bool := false
  domain : Nat := 0
  /-- P1, P2 and P5. -/
  ports : BitVec 3 := 0
  prio1 : Nat := 128
  prio2 : Nat := 128
  clockClass : Nat := 248
  stepMode : BitVec 3 := 0
  logSync : Int := 0
  logAnn : Int := 0
  logPdly : Int := 0
  annTmo : Nat := 3
  stepLimit : Nat := 1000000
  lockThr : Nat := 20
  holdDrift : Nat := 50
  holdLimit : Nat := 10000
  deriving DecidableEq, Repr

/-- A foreign master heard on a port: its latest Announce, the elapsed instant of it and of the one before
(R286, IEEE 1588-2019 9.3.2.5). -/
structure Foreign where
  ann : Announce
  at_ : Nat
  before : Option Nat
  deriving DecidableEq, Repr

/-- A slew commanded by `TIME_SHIFT` (R284): offset in ns and the ROOT count at its start. -/
structure Shift where
  ns : Int
  fromRoot : Nat
  deriving DecidableEq, Repr

/-- The PTP clock (R279 to R287, R310, R311). -/
structure Ptp where
  quality : TimeQ := .free
  foreign : List Foreign := []
  parent : Option Announce := none
  gmSelf : Bool := false
  /-- An offset from the present parent has been measured. -/
  measured : Bool := false
  offset : Int := 0
  /-- The path delay to the parent, and the delay of the link at each port under the peer-to-peer profiles (R286). -/
  pathDelay : Nat := 0
  linkDelay : List Nat := [0, 0, 0]
  /-- Consecutive sync intervals within LOCK_THR, above 4 × LOCK_THR, above STEP_LIMIT. -/
  goodRun : Nat := 0
  badRun : Nat := 0
  farRun : Nat := 0
  /-- Elapsed instant at which HOLDOVER began. -/
  holdFrom : Nat := 0
  steps : Nat := 0
  lastStep : Int := 0
  stepAt : BitVec 96 := 0
  stepped : Bool := false
  qualityFell : Bool := false
  slewing : Bool := false
  traceable : Bool := false
  timeUnset : Bool := false
  utcValid : Bool := false
  /-- The UTC offset held (R285); kept in the backup domain. -/
  utc : Int := 0
  /-- The leap announced for the end of the UTC day: +1 or −1, 0 for none. -/
  leap : Int := 0
  shift : Option Shift := none
  /-- Sequence numbers of the messages that the module sends, per port and kind. -/
  seqs : List (BitVec 16) := List.replicate 12 0
  deriving DecidableEq, Repr

/-- Result codes of a comparator (R291). -/
inductive CmpCode where
  | armed
  | late
  | discarded
  | horizon
  | notLocked
  | stepped
  | fired
  | noUnit
  deriving DecidableEq, Repr

/-- The number of a result code (R291). -/
def CmpCode.code : CmpCode → Nat
  | .armed => 0
  | .late => 1
  | .discarded => 2
  | .horizon => 3
  | .notLocked => 4
  | .stepped => 5
  | .fired => 6
  | .noUnit => 7

/-- The record of a timed-output unit (R298). -/
structure TouCfg where
  unum : Nat
  route : Nat := 0xFF
  edge : Nat := 0
  nocal : Bool := false
  width : Nat := 0
  period : Nat := 0
  latePol : Nat := 0
  lockReq : Nat := 0
  deriving DecidableEq, Repr

/-- A timed-output unit (R292, R294, R313). The late and lock policies of the latest arming are held with it. -/
structure Tou where
  armed : Bool := false
  /-- The target, short time. -/
  target : BitVec 64 := 0
  /-- The period in ns. -/
  period : Nat := 0
  lockReq : Nat := 0
  missed : Nat := 0
  last : CmpCode := .armed
  lateSeen : Bool := false
  steppedSeen : Bool := false
  suppressed : Bool := false
  /-- A one-shot has fired. -/
  done : Bool := false
  level : Bool := false
  /-- Elapsed instant of the last edge. -/
  edgeAt : Option Nat := none
  /-- Elapsed instant of the trailing edge. -/
  pulseEnd : Option Nat := none
  /-- Armed by a `TOU_ARM` instance, so that the armed state is shadowed (R301). -/
  byBlock : Bool := false
  deriving DecidableEq, Repr

/-- The record of a capture unit (R302). -/
structure TcuCfg where
  unum : Nat
  src : Nat := 0xFF
  edge : Nat := 3
  deriving DecidableEq, Repr

/-- A capture record (R303). -/
structure CapRec where
  ts : BitVec 96
  edge : Nat
  tq : Nat
  seq : BitVec 16
  deriving DecidableEq, Repr

/-- A capture unit (R303, R314). -/
structure Tcu where
  fifo : List CapRec := []
  overflow : Bool := false
  tooClose : Bool := false
  dropped : Nat := 0
  seq : BitVec 16 := 0
  /-- Elapsed instant of the last captured edge. -/
  lastAt : Option Nat := none
  deriving DecidableEq, Repr

/-- An entry of the action table (R305). -/
structure ActionCfg where
  action : Nat
  unit : Nat
  latePol : Nat := 0
  lockReq : Nat := 0
  deriving DecidableEq, Repr

/-- A sender of act-at-time messages and its last accepted (`SEQ`, `T`) pairs, newest first (R307). -/
structure AatSender where
  node : Nat
  iid : Nat
  pairs : List (Nat × Nat)
  deriving DecidableEq, Repr

/-- The receiver of act-at-time messages (R306, R307, R312); senders most recently heard first. -/
structure Aat where
  rx : BitVec 32 := 0
  accepted : BitVec 32 := 0
  duplicate : BitVec 32 := 0
  late : BitVec 32 := 0
  discarded : BitVec 32 := 0
  notLocked : BitVec 32 := 0
  tagFail : BitVec 32 := 0
  unmapped : BitVec 32 := 0
  senders : List AatSender := []
  deriving DecidableEq, Repr

end Sys2Proof.Machine
end

