-- ==== Sys2Proof/Machine/TimeOps.lean ====
section
/-! DEFINITION. Device time, its formats and quality, comparators, timed-output and capture units and the act-at-time
receiver on their own state (R275 to R307). -/

namespace Sys2Proof.Machine

/-- Units of device time (2⁻³⁰ ns) in a nanosecond. -/
def unitsPerNs : Nat := 2 ^ 30
/-- Phases of 0.625 ns in a ROOT cycle: 4, and 64 in the forced override (R18, R503). -/
def TimeBase.cyclePhases (t : TimeBase) : Nat := if t.slow then 64 else 4
/-- Units of device time that a ROOT cycle adds: `ADDEND`, 16 times as much in the forced override (R277, R503). -/
def TimeBase.cycleUnits (t : TimeBase) : Nat := if t.slow then 16 * t.addend.toNat else t.addend.toNat
/-- `n` ROOT cycles pass. -/
def TimeBase.pass (t : TimeBase) (n : Nat) : TimeBase :=
  { t with mono := t.mono + n * t.cyclePhases, root := t.root + n, now := t.now + n * t.cycleUnits }
/-- ROOT cycles until elapsed instant `due`. -/
def TimeBase.cyclesTo (t : TimeBase) (due : Nat) : Nat := ceilDiv (due - t.mono) t.cyclePhases
/-- ROOT cycles until device time `u`. -/
def TimeBase.cyclesToNow (t : TimeBase) (u : Nat) : Nat := ceilDiv (u - t.now) t.cycleUnits
/-- Device time that a phase of 0.625 ns adds within a ROOT cycle (R278). -/
def phaseUnits : Nat := 40960 * 2 ^ 14
/-- The first phase at or after device time `u` (R278, R292): the ROOT cycles until its cycle, and its number there; the override resolves
no phases (R502). -/
def TimeBase.phaseAt (t : TimeBase) (u : Nat) : Nat × Nat :=
  let n := (u - t.now) / t.cycleUnits
  let k := ceilDiv (u - t.now - n * t.cycleUnits) phaseUnits
  if t.slow then (t.cyclesToNow u, 0) else if k < 4 then (n, k) else (n + 1, 0)
/-- The phase at elapsed instant `due`, likewise (R294). -/
def TimeBase.phaseOn (t : TimeBase) (due : Nat) : Nat × Nat :=
  if t.slow then (t.cyclesTo due, 0) else ((due - t.mono) / 4, (due - t.mono) % 4)

/-- Phases in `n` microseconds, milliseconds and seconds. -/
def phUs (n : Nat) : Nat := n * 1600
/-- See `phUs`. -/
def phMs (n : Nat) : Nat := n * 1600000
/-- See `phUs`. -/
def phS (n : Nat) : Nat := n * 1600000000

/-! Formats. -/

/-- Device time in 2⁻¹⁶ ns. -/
def ticksOf (now : Nat) : Nat := now / 2 ^ 14
/-- A DTIME by its seconds, nanoseconds and fraction (R275). -/
def dtimeMk (sec nsec frac : Nat) : BitVec 96 :=
  BitVec.ofNat 96 (frac % 2 ^ 16 + nsec % 2 ^ 30 * 2 ^ 16 + sec % 2 ^ 48 * 2 ^ 48)
/-- Fields of a DTIME (R275). -/
def dtSec (t : BitVec 96) : Nat := t.toNat / 2 ^ 48
/-- See `dtSec`. -/
def dtNsec (t : BitVec 96) : Nat := t.toNat / 2 ^ 16 % 2 ^ 30
/-- See `dtSec`. -/
def dtFrac (t : BitVec 96) : Nat := t.toNat % 2 ^ 16
/-- `NSEC` is in range (R275). -/
def dtValid (t : BitVec 96) : Bool := decide (dtNsec t < 1000000000)
/-- A DTIME in 2⁻¹⁶ ns. -/
def dtTicks (t : BitVec 96) : Nat := (dtSec t * 1000000000 + dtNsec t) * 65536 + dtFrac t
/-- A count of 2⁻¹⁶ ns as a DTIME. -/
def dtOfTicks (n : Nat) : BitVec 96 :=
  dtimeMk (n / 65536 / 1000000000) (n / 65536 % 1000000000) (n % 65536)
/-- Device time as a DTIME (R275). -/
def TimeBase.dtime (t : TimeBase) : BitVec 96 := dtOfTicks (ticksOf t.now)
/-- Device time at a phase of the present ROOT cycle (R278); the override resolves none (R502). -/
def TimeBase.dtAt (t : TimeBase) (phase : Nat) : BitVec 96 :=
  dtOfTicks (ticksOf t.now + if t.slow then 0 else phase * 40960)
/-- Device time as it was at the elapsed instant `x`, since which the rate has not changed and no step has been made (R19). -/
def TimeBase.dtBefore (t : TimeBase) (x : Nat) : BitVec 96 :=
  dtOfTicks (ticksOf (t.now - (t.mono - x) / t.cyclePhases * t.cycleUnits))
/-- The short time of a DTIME (R276). -/
def shortOf (t : BitVec 96) : BitVec 64 := t.setWidth 64
/-- Fields of a short time (R276). -/
def shSec (t : BitVec 64) : Nat := t.toNat / 2 ^ 48
/-- See `shSec`. -/
def shNsec (t : BitVec 64) : Nat := t.toNat / 2 ^ 16 % 2 ^ 30
/-- See `shSec`. -/
def shFrac (t : BitVec 64) : Nat := t.toNat % 2 ^ 16
/-- `diff` of R289, in 2⁻¹⁶ ns. -/
def shortDiff (t now : BitVec 64) : Int :=
  let ds := signed 16 ((shSec t + 65536 - shSec now) % 65536)
  let dn := ds * 1000000000 + ((shNsec t : Int) - shNsec now)
  dn * 65536 + ((shFrac t : Int) - shFrac now)
/-- A short time later by `n` 2⁻¹⁶ ns, with the carries of R275. -/
def shortAdd (t : BitVec 64) (n : Nat) : BitVec 64 :=
  shortOf (dtOfTicks ((shSec t * 1000000000 + shNsec t) * 65536 + shFrac t + n))

/-- What R290 finds of a DTIME target: refused beyond the horizon, past, or its short time. -/
inductive TargetRes where
  | horizon
  | past
  | short (t : BitVec 64)
  deriving DecidableEq, Repr

/-- The check of a DTIME target against full device time (R290). -/
def checkTarget (t now : BitVec 96) : TargetRes :=
  let d : Int := (dtTicks t : Int) - dtTicks now
  let h : Int := 32767 * 1000000000 * 65536
  if h < d then .horizon else if d < -h then .past else .short (shortOf t)

/-! Timed-output units. -/

/-- `EDGE` leading levels: pulse high, set high drive high; pulse low, set low drive low; toggle inverts (R298). -/
def touEdgeLevel (edge : Nat) (level : Bool) : Bool :=
  if edge = 0 || edge = 2 then true else if edge = 1 || edge = 3 then false else !level

/-- A unit fires with a code (R292, R295): the edge is produced unless `LOCKREQ` 2 suppresses it. The second part
tells that an edge was produced. `mono` is the elapsed instant, `now` the short time, `q` the time quality. -/
def Tou.fire (u : Tou) (c : TouCfg) (code : CmpCode) (q : TimeQ) (now : BitVec 64) (mono : Nat) : Tou × Bool :=
  let sup := u.lockReq == 2 && (q == .free || q == .degraded)
  let code := if sup then CmpCode.notLocked else code
  let u1 := { u with last := code, suppressed := u.suppressed || sup, lateSeen := u.lateSeen || code == CmpCode.late,
                     steppedSeen := u.steppedSeen || code == CmpCode.stepped }
  let u2 := if sup then u1
    else { u1 with level := touEdgeLevel c.edge u1.level,
                   edgeAt := some mono
                   pulseEnd := if c.edge ≤ 1 then some (mono + c.width * 8 / 5) else none }
  if u2.period = 0 then ({ u2 with armed := false, done := true }, !sup)
  else
    let p := u2.period * 65536
    let t1 := shortAdd u2.target p
    let d := shortDiff t1 now
    let k := if d ≤ 0 then ((-d).toNat / p) + 1 else 0
    ({ u2 with target := shortAdd t1 (k * p), missed := u2.missed + k }, !sup)

/-- Arming (R292): `t` has passed R290 (`none` where it is past beyond the horizon), `p` is the period in ns.
The second part is the result code, the third tells that an edge was produced. -/
def Tou.arm (u : Tou) (c : TouCfg) (t : Option (BitVec 64)) (p latePol lockReq : Nat) (q : TimeQ) (now : BitVec 64)
    (mono : Nat) (byBlock : Bool) : Tou × CmpCode × Bool :=
  let past := match t with | some t => decide (shortDiff t now ≤ 0) | none => true
  if 1 ≤ lockReq && q != .locked then (u, .notLocked, false)
  else if past then
    if latePol = 1 then (u, .discarded, false)
    else
      let r := ({ u with target := t.getD now, period := p, armed := true, lockReq := lockReq, done := false,
                         byBlock := byBlock } : Tou).fire c .late q now mono
      (r.1, .late, r.2)
  else ({ u with target := t.getD now, period := p, armed := true, lockReq := lockReq, done := false, last := .armed,
                 byBlock := byBlock }, .armed, false)

/-- The trailing edge of a pulse at elapsed instant `mono` (R294). -/
def Tou.trail (u : Tou) (mono : Nat) : Tou := { u with level := !u.level, pulseEnd := none, edgeAt := some mono }

/-- A step of device time has taken place: units whose target has passed fire with `STEPPED`; a unit left more
than the horizon before its target is disarmed (R292, R293). `back` tells how far a backward step went, in 2⁻¹⁶ ns. -/
def Tou.onStep (u : Tou) (c : TouCfg) (q : TimeQ) (old now : BitVec 64) (delta : Int) (mono : Nat) : Tou × Bool :=
  if !u.armed then (u, false)
  else
    let d := shortDiff u.target old - delta
    if (32767 * 1000000000 * 65536 : Int) < d then ({ u with armed := false, last := .horizon }, false)
    else if d ≤ 0 then u.fire c .stepped q now mono
    else (u, false)

/-- Status fields `STATE` of R313: 0 IDLE, 1 ARMED, 2 PULSE, 3 DONE. -/
def Tou.state (u : Tou) : Nat := if u.pulseEnd.isSome then 2 else if u.armed then 1 else if u.done then 3 else 0
/-- `TOU_STAT` (R313). -/
def Tou.stat (u : Tou) (route : Nat) : Nat :=
  u.state + 4 * b2n (decide (0 < u.period)) + 16 * u.last.code + 256 * b2n u.lateSeen + 512 * b2n u.steppedSeen +
    1024 * b2n u.suppressed + 65536 * route

/-! Capture units. -/

/-- An edge on a unit's source at elapsed instant `mono`, stamped `ts` (R303): captured, dropped or too close. The
second part tells that a capture was made. -/
def Tcu.capture (u : Tcu) (c : TcuCfg) (rising : Bool) (ts : BitVec 96) (tq mono : Nat) : Tcu × Bool :=
  if !(if rising then bitOf c.edge 0 else bitOf c.edge 1) then (u, false)
  else if (match u.lastAt with | some a => decide (mono < a + 8) | none => false) then ({ u with tooClose := true }, false)
  else
    let u1 := { u with seq := u.seq + 1, lastAt := some mono }
    if u.fifo.length < 16 then
      ({ u1 with fifo := u.fifo ++ [{ ts := ts, edge := if rising then 1 else 2, tq := tq, seq := u.seq }] }, true)
    else ({ u1 with overflow := true, dropped := min 65535 (u.dropped + 1) }, true)

/-- The 16 bytes of a capture record (R303). -/
def CapRec.bytes (r : CapRec) : Bytes := natLe 12 r.ts.toNat ++ natLe 1 r.edge ++ natLe 1 r.tq ++ natLe 2 r.seq.toNat

/-- A read of `TCU_POP`: the oldest record and the unit without it; all 0 when empty (R303, R310). -/
def Tcu.pop (u : Tcu) : Bytes × Tcu :=
  match u.fifo with
  | [] => (List.replicate 16 0, u)
  | r :: t => (r.bytes, { u with fifo := t })

/-- `TCU_STAT` (R314). -/
def Tcu.stat (u : Tcu) (src : Nat) : Nat :=
  u.fifo.length + 32 * b2n u.overflow + 64 * b2n u.tooClose + 256 * src + 65536 * u.dropped

/-! Act-at-time messages. -/

/-- An act-at-time message (R304). -/
structure ActMsg where
  ver : Nat
  senderLocked : Bool
  src : Nat
  dest : Nat
  action : Nat
  iid : Nat
  seq : Nat
  t : BitVec 96
  deriving DecidableEq, Repr

/-- The fields of a message (R304). -/
def parseActMsg (b : Bytes) : ActMsg :=
  { ver := field b 0 1, senderLocked := bitOf (field b 1 1) 0, src := field b 2 2, dest := field b 4 2,
    action := field b 6 2, iid := field b 8 4, seq := field b 12 4, t := BitVec.ofNat 96 (field b 16 12) }

/-- The first 32 bytes of a message (R304). -/
def actMsgHead (a : ActMsg) : Bytes :=
  natLe 1 a.ver ++ natLe 1 (b2n a.senderLocked) ++ natLe 2 a.src ++ natLe 2 a.dest ++ natLe 2 a.action ++
    natLe 4 a.iid ++ natLe 4 a.seq ++ natLe 12 a.t.toNat ++ natLe 4 0
/-- The tag of a message's first 32 bytes under the peloton action key (R304). -/
def actTag (key head : Bytes) : Bytes := (hmacSha256 key head).take 8
/-- A message with its tag (R304). -/
def actMsgBytes (key : Bytes) (a : ActMsg) : Bytes := actMsgHead a ++ actTag key (actMsgHead a)

/-- The 256 senders after a message of one: most recently heard first (R307). -/
def Aat.heard (a : Aat) (node iid : Nat) : Aat :=
  let others := a.senders.filter fun s => !(s.node == node && s.iid == iid)
  let mine := (a.senders.find? fun s => s.node == node && s.iid == iid).getD { node := node, iid := iid, pairs := [] }
  { a with senders := (mine :: others).take 256 }
/-- The pairs held for a sender (R307). -/
def Aat.pairs (a : Aat) (node iid : Nat) : List (Nat × Nat) :=
  match a.senders.find? fun s => s.node == node && s.iid == iid with
  | some s => s.pairs
  | none => []
/-- A pair is accepted from a sender: the last 16 are held (R307). -/
def Aat.remember (a : Aat) (node iid seq t : Nat) : Aat :=
  { a with senders := a.senders.map fun s => if s.node = node ∧ s.iid = iid then { s with pairs := ((seq, t) :: s.pairs).take 16 } else s }

/-! Time quality. -/

/-- `ADDEND` within R277. -/
def clampAddend (n : Nat) : BitVec 32 := BitVec.ofNat 32 (Nat.min 0xA028F5C3 (Nat.max 0x9FD70A3D n))
/-- The addend of a commanded slew of `ns`: above the nominal value for a positive offset, below it for a negative (R277, R284). -/
def slewAddend (ns : Int) : BitVec 32 :=
  if 0 < ns then BitVec.ofNat 32 (Nat.min 0xA028F5C3 (Nat.max 0xA0000001 (Config.shiftAddend ns)))
  else if ns < 0 then BitVec.ofNat 32 (Nat.min 0x9FFFFFFF (Nat.max 0x9FD70A3D (Config.shiftAddend ns)))
  else 0xA0000000
/-- The ROOT cycles that a slew takes in all (R284). -/
def slewCycles (ns : Int) (addend : BitVec 32) : Nat :=
  ceilDiv (ns.natAbs * unitsPerNs) ((addend.toNat : Int) - 0xA0000000).natAbs

/-- The estimated error in ns, a part of one counted as a whole; none unbounded (R279). -/
def Ptp.estError (p : Ptp) (holdDrift mono : Nat) : Option Nat :=
  match p.quality with
  | .locked => some 50
  | .holdover => some (50 + ceilDiv (holdDrift * (mono - p.holdFrom)) (phS 1))
  | _ => none

/-- The quality becomes `q`; leaving `LOCKED` sets `QUALITY_FELL` (R280, R311). -/
def Ptp.toQuality (p : Ptp) (q : TimeQ) : Ptp :=
  { p with quality := q, goodRun := 0, badRun := 0, farRun := 0,
           qualityFell := p.qualityFell || (p.quality == .locked && q != .locked) }

/-- A data set of the best master clock algorithm: priority1, class, accuracy, variance, priority2, identity,
steps removed, sender, in the order of comparison (R286, IEEE 1588-2019 9.3.4). -/
def annKey (a : Announce) : List Nat :=
  [a.prio1, a.clsQ, a.accuracy, a.variance, a.prio2, a.gmId.toNat, a.stepsRemoved, a.senderId.toNat, a.port.val]
/-- Lexicographic order. -/
def keyLt : List Nat → List Nat → Bool
  | [], _ => false
  | _, [] => false
  | a :: s, b :: t => decide (a < b) || (a == b && keyLt s t)

/-- The announce interval of a record in phases (R288). -/
def annInterval (c : PtpCfg) : Nat :=
  if 0 ≤ c.logAnn then phS (2 ^ c.logAnn.toNat) else phS 1 / 2 ^ (-c.logAnn).toNat
/-- A foreign master is qualified: two Announce messages within four announce intervals; one under IEEE 802.1AS (R286). -/
def Foreign.qualified (f : Foreign) (c : PtpCfg) : Bool :=
  c.profile == 2 || (match f.before with | some b => decide (f.at_ ≤ b + 4 * annInterval c) | none => false)
/-- The foreign masters after an Announce (R286). -/
def Ptp.hear (p : Ptp) (a : Announce) (mono : Nat) : Ptp :=
  let old := p.foreign.find? fun f => f.ann.port == a.port && f.ann.senderId == a.senderId
  let rest := p.foreign.filter fun f => !(f.ann.port == a.port && f.ann.senderId == a.senderId)
  { p with foreign := { ann := a, at_ := mono, before := old.map (·.at_) } :: rest }
/-- The best of the qualified foreign masters. -/
def bestForeign (c : PtpCfg) : List Foreign → Option Announce
  | [] => none
  | f :: t =>
    if f.qualified c then
      match bestForeign c t with
      | some b => if keyLt (annKey b) (annKey f.ann) then some b else some f.ann
      | none => some f.ann
    else bestForeign c t

/-- The module's own data set as grandmaster; slot B announces priority2 + 1 (R287, R288). -/
def ownDataset (c : PtpCfg) (clockId : BitVec 64) (slotB : Bool) : Announce :=
  { port := 0, gmId := clockId, senderId := clockId, prio1 := c.prio1, clsQ := c.clockClass,
    accuracy := Config.clockAccuracy, variance := Config.clockVariance, prio2 := c.prio2 + b2n slotB, stepsRemoved := 0,
    utcOffset := 0, utcValid := false, leap61 := false, leap59 := false, traceable := false }

/-- The choice of the best master clock algorithm: own clock, a parent, or none (R280, R286). -/
inductive Bmca where
  | self
  | parent (a : Announce)
  | none
  deriving DecidableEq, Repr

/-- The best master clock algorithm (R286). -/
def bmca (c : PtpCfg) (own : Announce) (f : List Foreign) : Bmca :=
  match bestForeign c f with
  | some b => if c.gmCapable && keyLt (annKey own) (annKey b) then .self else .parent b
  | none => if c.gmCapable then .self else .none

/-- The quality after the best master clock algorithm has chosen (R280). Without a parent no rate removes an offset and no other
grandmaster announces its traceability (R311). -/
def Ptp.choose (p : Ptp) (b : Bmca) (mono : Nat) : Ptp :=
  match b with
  | .self =>
    let p1 := { p with gmSelf := true, parent := Option.none, measured := false, slewing := false, traceable := false }
    if p.quality == .degraded then p1 else if p.quality == .locked then p1 else p1.toQuality .locked
  | .parent a =>
    let same := match p.parent with | some o => o.senderId == a.senderId && o.port == a.port | .none => false
    let p1 := { p with gmSelf := false, parent := some a, measured := p.measured && same, slewing := p.slewing && same,
                       traceable := if same then p.traceable else a.traceable }
    match p.quality with
    | .locked => if p.gmSelf then p1.toQuality .locking else p1
    | .holdover => p1.toQuality .locking
    | _ => p1
  | .none =>
    let p1 := { p with gmSelf := false, parent := Option.none, measured := false, slewing := false, traceable := false }
    match p.quality with
    | .locked => if p.gmSelf then p1.toQuality .free else { p1.toQuality .holdover with holdFrom := mono }
    | .locking => p1.toQuality .free
    | _ => p1

/-- A Sync from the parent with its offset (R280, R282): the state after it, and whether device time steps. -/
def Ptp.sync (p : Ptp) (c : PtpCfg) (offset : Int) (delay : Nat) : Ptp × Bool :=
  let mag := offset.natAbs
  let far := decide (c.stepLimit < mag)
  let p1 := { p with offset := offset, pathDelay := delay, measured := true, slewing := decide (c.lockThr < mag) && !far }
  let runs (q : Ptp) : Ptp :=
    { q with goodRun := if mag ≤ c.lockThr then q.goodRun + 1 else 0,
             badRun := if 4 * c.lockThr < mag then q.badRun + 1 else 0,
             farRun := if far then q.farRun + 1 else 0 }
  match p.quality with
  | .free => (runs (p1.toQuality .locking), far)
  | .locking =>
    let q := runs p1
    if 16 ≤ q.goodRun then (q.toQuality .locked, false) else (q, decide (16 ≤ q.farRun))
  | .locked =>
    if p.gmSelf then (p1, false)
    else
      let q := runs p1
      let st := decide (16 ≤ q.farRun)
      if 4 ≤ q.badRun then ({ q.toQuality .locking with farRun := q.farRun }, st) else (q, st)
  | _ => (p1, false)

end Sys2Proof.Machine
end

