-- ==== Sys2Proof/Machine/TypesAlarm.lean ====
section
/-! DEFINITION. The state and configuration types of the alarm engine (08_alarm_engine.md). -/

namespace Sys2Proof.Machine

/-- A point descriptor (R248). -/
structure PtCfg where
  pid : BitVec 32
  pnum : Nat
  ptype : Nat := 0
  invert : Bool := false
  shelvable : Bool := false
  badIsAlarm : Bool := false
  srckind : Nat := 1
  level : Nat := 0
  prio : Nat := 1
  sgroup : Nat := 0xFF
  fgroup : Nat := 0xFF
  src : Nat := 0
  lim : Real32 := 0
  dband : Real32 := 0
  ondly : Nat := 0
  offdly : Nat := 0
  aux : Nat := 0
  shlvmax : Nat := 1
  deriving DecidableEq, Repr

/-- A suppression-group descriptor (R256). -/
structure SgCfg where
  sig : Nat := 0xFFFFFF
  reldly : Nat := 0
  deriving DecidableEq, Repr

/-- A first-out group descriptor (R266). -/
structure FoCfg where
  rstsig : Option Nat := none
  settle : Nat := 20
  gnum : Nat
  part : List Nat := []
  deriving DecidableEq, Repr

/-- The `ALARMS` section (R247). -/
structure AlarmsCfg where
  flood : Nat := 100
  points : List PtCfg := []
  sgrps : List SgCfg := []
  fgrps : List FoCfg := []
  deriving DecidableEq, Repr

/-- An alarm point (R251 to R258, R272). `vis` is the state the point has while it is not hidden: 0 NORMAL, 1 UNACK,
2 ACKED, 3 RTN_UNACK. -/
structure Pt where
  vis : Nat := 0
  c : Bool := false
  a : Bool := false
  badq : Bool := false
  first : Bool := false
  simul : Bool := false
  occ : BitVec 16 := 0
  /-- Phases for which c has stood against a (R253). -/
  held : Nat := 0
  /-- Device time at which c turned TRUE, and the onset of the latest raise. -/
  cAt : BitVec 96 := 0
  onset : BitVec 96 := 0
  /-- The time quality at both (R262). -/
  cTq : Nat := 0
  onTq : Nat := 0
  /-- The alignment of device time in ns when c turned TRUE; none unbounded (R268). -/
  cAl : Option Nat := none
  /-- Rate samples, oldest first, and phases since the newest (R252). -/
  samples : List Real32 := []
  since : Nat := 0
  /-- Operating time at which shelving ends. -/
  shelved : Option Nat := none
  oos : Bool := false
  suppressed : Bool := false
  value : Real32 := 0
  deriving DecidableEq, Repr

/-- A suppression group (R256, R274): `left` is the part of RELDLY that is left, in ms. -/
structure Sg where
  active : Bool := false
  left : Option Nat := none
  badq : Bool := false
  deriving DecidableEq, Repr

/-- A candidate of a first-out group (R267 to R269); times in 2⁻¹⁶ ns, `align` none unbounded. -/
structure Cand where
  node : Nat
  pid : BitVec 32
  pnum : Nat
  tc : Nat
  sgran : Nat
  align : Option Nat
  deriving DecidableEq, Repr

/-- A first-out group (R267, R273): 0 ARMED, 1 COLLECTING, 2 DECIDED. -/
structure Fo where
  state : Nat := 0
  epoch : BitVec 16 := 0
  /-- Own candidates and, on the arbiter, all candidates. -/
  own : List Cand := []
  cands : List Cand := []
  /-- Elapsed instants of the arbiter's decision and of the participant's own (R267). -/
  settleAt : Option Nat := none
  partialAt : Option Nat := none
  winner : Option Cand := none
  simul : Bool := false
  partial_ : Bool := false
  uncertain : Bool := false
  nsim : Nat := 0
  lastRst : Bool := false
  deriving DecidableEq, Repr

/-- A publication record (R262). -/
structure PubRec where
  seq : BitVec 32
  pid : BitVec 32
  pnum : Nat
  state : Nat
  cause : Nat
  tev : BitVec 96
  value : Real32
  tq : Nat
  pflags : Nat
  occ : BitVec 16
  deriving DecidableEq, Repr

/-- A publication record before its sequence number: priority, cause and the point as it then stands; `tq` the time quality at
`tev` where it is not that of the publication (R262); `tag` the place of the waiting command that it answers (R579). -/
structure PubItem where
  prio : Nat
  cause : Nat
  tev : BitVec 96
  d : PtCfg
  p : Pt
  tq : Option Nat := none
  tag : Option Nat := none
  deriving DecidableEq, Repr

/-- An `ALARM` command that waits for the evaluations that apply it (R251, R579): its operation, and the points still to come with the
occurrence that it names; the outcome so far. -/
structure AlmCmd where
  rq : Req
  op : Nat
  mins : Nat := 0
  accepted : BitVec 96
  /-- The time quality at the acceptance (R262). -/
  tq : Nat := 0
  left : List (BitVec 32 × BitVec 16)
  status : Nat
  seq : Nat := 0
  state : Nat := 0
  deriving DecidableEq, Repr

/-- The alarm engine (R250 to R271). Points and groups stand in the order of their descriptors. -/
structure Ae where
  cfg : AlarmsCfg := {}
  pts : List Pt := []
  sgs : List Sg := []
  fos : List Fo := []
  running : Bool := false
  flood : Bool := false
  evalLate : Bool := false
  pubGap : Bool := false
  seq : BitVec 32 := 0
  /-- The publication ring, oldest first (R262). -/
  ring : List PubRec := []
  /-- Raises of the present second and of the nine before it; evaluations of the present second; seconds for which the count
  has been low (R265). -/
  raises : List Nat := [0, 0, 0, 0, 0, 0, 0, 0, 0, 0]
  evals : Nat := 0
  lowFor : Nat := 0
  /-- A RESYNC record is due at the next evaluation (R260). -/
  resync : Bool := false
  lastEval : BitVec 96 := 0
  /-- Commands accepted and not applied yet, oldest first (R251); records that belong to the present evaluation (R259, R263). -/
  cmds : List AlmCmd := []
  due : List PubItem := []
  /-- Points with `SRCKIND` 0 that have changed outside an evaluation with their task: the next alarm stream carries them (R264). -/
  late : List Nat := []
  evalMax : Nat := 0
  deriving DecidableEq, Repr

end Sys2Proof.Machine
end

