-- ==== Sys2Proof/Machine/AlarmOps.lean ====
section
/-! DEFINITION. The alarm engine on its own state: conditions, delays, hidden states, publication and first-out decisions
(R250 to R274). -/

namespace Sys2Proof.Machine

/-- A source as latched at an evaluation (R250): its value as BOOL and REAL32, its quality, and for a DIO channel the corrected
change-of-state timestamp. -/
structure ASrc where
  b : Bool := false
  r : Real32 := 0
  q : BitVec 8 := qGood
  ts : Option (BitVec 96) := none
  deriving DecidableEq, Repr

/-- Phases between rate samples, a sixteenth of the window (R252). -/
def rateStep (d : PtCfg) : Nat := phMs d.aux / 16
/-- The rate samples after `dt` phases with value `v` (R252). -/
def Pt.sampleRate (p : Pt) (d : PtCfg) (v : Real32) (dt : Nat) : Pt :=
  if d.ptype = 3 then
    let s := p.since + dt
    if p.samples.isEmpty || rateStep d ≤ s then
      { p with samples := (p.samples ++ [v]).drop (p.samples.length - 15), since := if p.samples.isEmpty then 0 else s - rateStep d }
    else { p with since := s }
  else p
/-- The raw condition c (R252). -/
def rawCond (d : PtCfg) (p : Pt) (src sp : ASrc) : Bool :=
  let v := src.r
  match d.ptype with
  | 0 => xor src.b d.invert
  | 1 =>
    if d.level ≤ 1 then fLe d.lim v || (p.c && fLe (fSub d.lim d.dband) v)
    else fLe v d.lim || (p.c && fLe v (fAdd d.lim d.dband))
  | 2 =>
    let e := fAbs (fSub v sp.r)
    fLe d.lim e || (p.c && fLe (fSub d.lim d.dband) e)
  | _ =>
    if p.samples.length < 16 then false
    else
      let r := fDiv (fMul (fSub v (at_ p.samples 0 0)) (fOfInt 1000)) (fOfInt d.aux)
      if d.level = 0 then fLe d.lim r || (p.c && fLe (fSub d.lim d.dband) r)
      else fLe r (fNeg d.lim) || (p.c && fLe r (fAdd (fNeg d.lim) d.dband))

/-- The point is hidden (R254). -/
def Pt.hidden (p : Pt) : Bool := p.oos || p.suppressed || p.shelved.isSome
/-- The state code of R254: hidden states take precedence in the order 6, 5, 4. -/
def Pt.state (p : Pt) : Nat := if p.oos then 6 else if p.suppressed then 5 else if p.shelved.isSome then 4 else p.vis
/-- The point leaves its last hidden state (R255). -/
def Pt.unhide (p : Pt) : Pt := if p.hidden then p else if p.a then { p with vis := 1, occ := p.occ + 1 } else { p with vis := 0 }

/-- The time at an evaluation: device time, its quality and its alignment (R262, R268). -/
structure AtTime where
  now : BitVec 96
  tq : Nat
  al : Option Nat
  deriving DecidableEq, Repr
/-- The condition and its delays after `dt` phases (R252, R253). -/
def Pt.evalCond (p : Pt) (d : PtCfg) (src sp : ASrc) (dt : Nat) (w : AtTime) : Pt :=
  let bad := qIsBad src.q || (d.ptype == 2 && qIsBad sp.q)
  let p := { p with badq := bad, value := src.r }
  if bad && !d.badIsAlarm then p
  else
    let p := if bad then p else p.sampleRate d src.r dt
    let c := if bad then true else rawCond d p src sp
    let p1 := if c && !p.c then { p with cAt := src.ts.getD w.now, cTq := w.tq, cAl := w.al } else p
    let held := if c = p.a then 0 else if c != p.c then 0 else p1.held + dt
    { p1 with c := c, held := held }
/-- The alarm condition a rises at this evaluation (R253). -/
def Pt.rises (p : Pt) (d : PtCfg) : Bool := p.c && !p.a && decide (phMs d.ondly ≤ p.held)
/-- The alarm condition a falls at this evaluation (R253). -/
def Pt.falls (p : Pt) (d : PtCfg) : Bool := !p.c && p.a && decide (phMs d.offdly ≤ p.held)
/-- a rises: → UNACK with a new occurrence where the point is not hidden (R254). -/
def Pt.raise (p : Pt) : Pt :=
  let p1 := { p with a := true, held := 0, onset := p.cAt, onTq := p.cTq }
  if p.hidden then p1 else { p1 with vis := 1, occ := p.occ + 1 }
/-- a falls: UNACK → RTN_UNACK, ACKED → NORMAL where the point is not hidden (R254). -/
def Pt.clear (p : Pt) : Pt :=
  let p1 := { p with a := false, held := 0 }
  if p.hidden then p1 else { p1 with vis := if p.vis = 1 then 3 else if p.vis = 2 then 0 else p.vis }
/-- Acknowledged: UNACK → ACKED, RTN_UNACK → NORMAL (R254). -/
def Pt.ack (p : Pt) : Pt := { p with vis := if p.vis = 1 then 2 else if p.vis = 3 then 0 else p.vis }

/-- The record that an item gives (R262). -/
def PubItem.rec_ (i : PubItem) (seq : BitVec 32) (tq : Nat) (flood : Bool) : PubRec :=
  { seq := seq, pid := i.d.pid, pnum := i.d.pnum, state := i.p.state, cause := i.cause, tev := i.tev, value := i.p.value, tq := i.tq.getD tq,
    pflags := b2n flood + 2 * b2n i.p.badq + 4 * b2n i.p.first + 8 * b2n i.p.simul, occ := i.p.occ }
/-- A record enters the ring of 16,384 (R262). -/
def Ae.push (a : Ae) (mk : BitVec 32 → PubRec) : Ae :=
  { a with seq := a.seq + 1, ring := (a.ring ++ [mk (a.seq + 1)]).drop (a.ring.length - 16383) }
/-- The order of the records of one evaluation instant: ascending priority, then ascending point number (R263). -/
def pubOrder (items : List PubItem) : List PubItem :=
  items.mergeSort fun x y => decide (x.prio < y.prio) || (x.prio == y.prio && decide (x.d.pnum ≤ y.d.pnum))
/-- Records of one evaluation instant enter the ring (R263). -/
def Ae.publish (a : Ae) (items : List PubItem) (tq : Nat) : Ae :=
  (pubOrder items).foldl (fun a i => a.push fun s => i.rec_ s tq a.flood) a
/-- The `SEQ` of the last record that `publish` gives for the command in place `k` (R579). -/
def Ae.tagSeq (a : Ae) (items : List PubItem) (k : Nat) : Option Nat :=
  ((enumFrom 1 (pubOrder items)).filterMap fun e => if e.2.tag = some k then some (a.seq + BitVec.ofNat 32 e.1).toNat else none).getLast?

/-- What one point's evaluation gives: the point, its records, and whether it raised while it may compete for first-out
(not SUPPRESSED, not OUT_OF_SERVICE) and whether it raised visibly (R254, R267). -/
structure PtOut where
  p : Pt
  items : List PubItem := []
  competes : Bool := false
  raised : Bool := false
  deriving DecidableEq, Repr

/-- Suppression of a point follows its group (R251 step 2, R256). -/
def Pt.suppress (p : Pt) (d : PtCfg) (sup : Bool) (now : BitVec 96) : PtOut :=
  if sup && !p.suppressed then
    let p1 := { p with suppressed := true }
    { p := p1, items := if p.oos then [] else [{ prio := d.prio, cause := 6, tev := now, d := d, p := p1 }] }
  else if !sup && p.suppressed then
    let p1 := ({ p with suppressed := false }).unhide
    { p := p1, items := if p.oos then [] else [{ prio := d.prio, cause := 7, tev := now, d := d, p := p1 }] }
  else { p := p }
/-- Shelving that has run out ends (R251 step 3). -/
def Pt.unshelve (p : Pt) (d : PtCfg) (now : BitVec 96) : PtOut :=
  if p.shelved.isSome then
    let p1 := ({ p with shelved := none }).unhide
    { p := p1, items := if p.oos || p.suppressed then [] else [{ prio := d.prio, cause := 5, tev := now, d := d, p := p1 }] }
  else { p := p }
/-- The state transition of a point whose condition has been evaluated (R254). -/
def Pt.transition (p : Pt) (d : PtCfg) (now : BitVec 96) : PtOut :=
  if p.rises d then
    let p1 := p.raise
    { p := p1, competes := !p.suppressed && !p.oos, raised := !p.hidden,
      items := if p.hidden then [] else [{ prio := d.prio, cause := 1, tev := p1.onset, d := d, p := p1, tq := some p1.onTq }] }
  else if p.falls d then
    let p1 := p.clear
    { p := p1, items := if p.hidden then [] else [{ prio := d.prio, cause := 2, tev := now, d := d, p := p1 }] }
  else { p := p }
/-- Records with the source value and quality of the evaluation that makes them (R262). -/
def valued (p : Pt) (items : List PubItem) : List PubItem :=
  items.map fun i => { i with p := { i.p with value := p.value, badq := p.badq } }
/-- Steps 2 to 5 of a point's evaluation (R251), after step 1 has given `items`. `sup` is its group's suppression, `optime` operating time
in ms, `cond` step 4. -/
def Pt.steps (p : Pt) (items : List PubItem) (d : PtCfg) (sup : Bool) (now : BitVec 96) (optime : Nat) (cond : Pt → Pt) : PtOut :=
  let s := p.suppress d sup now
  let u := match s.p.shelved with
    | some t => if t ≤ optime then s.p.unshelve d now else { p := s.p }
    | none => { p := s.p }
  let c := cond u.p
  let t := c.transition d now
  { t with items := valued c (items ++ s.items ++ u.items) ++ t.items }

/-- A suppression group after `ms` milliseconds with its signal (R256). -/
def Sg.step (g : Sg) (c : SgCfg) (b : Bool) (q : BitVec 8) (ms : Nat) : Sg :=
  if qIsBad q then { active := false, left := none, badq := true }
  else if b then { active := true, left := none, badq := false }
  else match g.left with
    | some n => if n ≤ ms then { active := false, left := none, badq := false } else { g with left := some (n - ms), badq := false }
    | none => if g.active then (if c.reldly = 0 then {} else { active := true, left := some c.reldly, badq := false })
              else { g with badq := false }

/-- Raises of the last 10 s (R265). -/
def Ae.floodCount (a : Ae) : Nat := a.raises.sum
/-- `n` raises are counted and `FLOOD` is judged (R265). -/
def Ae.countRaises (a : Ae) (n : Nat) : Ae :=
  let a1 := { a with raises := upd a.raises 0 (· + n) }
  if a.cfg.flood < a1.floodCount then { a1 with flood := true, lowFor := 0 } else a1
/-- A second of the flood window ends (R265). -/
def Ae.floodSecond (a : Ae) : Ae :=
  let low := decide (a.floodCount ≤ a.cfg.flood / 2)
  let lf := if low then a.lowFor + 1 else 0
  { a with raises := 0 :: a.raises.take 9, evals := 0, lowFor := lf, flood := a.flood && decide (lf < 10) }

/-- `PT_STAT` (R272). -/
def Pt.stat (p : Pt) : Nat :=
  p.state + 8 * b2n p.a + 16 * b2n p.badq + 32 * b2n p.first + 64 * b2n p.simul + 256 * p.occ.toNat

/-! First-out groups. -/

/-- Lower and upper end of a candidate's interval in 2⁻¹⁶ ns; none unbounded (R268). -/
def Cand.lower (k : Cand) : Option Int := k.align.map fun a => (k.tc : Int) - (k.sgran + a) * 65536
/-- See `Cand.lower`. -/
def Cand.upper (k : Cand) : Option Int := k.align.map fun a => (k.tc : Int) + a * 65536
/-- Order of interval ends with unbounded upper ends last. -/
def upLt : Option Int → Option Int → Bool
  | some a, some b => decide (a < b)
  | some _, none => true
  | none, _ => false
/-- Order of lower ends with unbounded lower ends first. -/
def loLt : Option Int → Option Int → Bool
  | some a, some b => decide (a < b)
  | none, some _ => true
  | _, none => false
/-- Candidate `k` wins over candidate `o` (R268). -/
def Cand.beats (k o : Cand) (byTc : Bool) : Bool :=
  if byTc then decide (k.tc < o.tc) || (k.tc == o.tc && (decide (k.node < o.node) || (k.node == o.node && decide (k.pnum < o.pnum))))
  else if upLt k.upper o.upper then true
  else if upLt o.upper k.upper then false
  else if loLt k.lower o.lower then true
  else if loLt o.lower k.lower then false
  else decide (k.node < o.node) || (k.node == o.node && decide (k.pnum < o.pnum))
/-- The best of a list. -/
def bestCand (byTc : Bool) : List Cand → Option Cand
  | [] => none
  | k :: t => match bestCand byTc t with
    | some b => if b.beats k byTc then some b else some k
    | none => some k
/-- The intervals overlap (R267). -/
def Cand.overlaps (k o : Cand) : Bool :=
  let ge (a b : Option Int) : Bool := match a, b with | some x, some y => decide (y ≤ x) | _, _ => true
  ge k.upper o.lower && ge o.upper k.lower

/-- A decision (R268): winner, simultaneous candidates by ascending upper end, and TIME_UNCERTAIN. -/
structure FoDecision where
  winner : Cand
  sim : List Cand
  uncertain : Bool
  deriving DecidableEq, Repr
/-- The decision over candidates (R268). -/
def decideFo (ks : List Cand) : Option FoDecision :=
  let un := ks.all fun k => k.align.isNone
  (bestCand un ks).map fun w =>
    let sim := (ks.filter fun k => k != w).filter fun k => match k.lower, w.upper with
      | some l, some u => decide (l ≤ u)
      | _, _ => true
    { winner := w, sim := sim.mergeSort fun a b => !(upLt b.upper a.upper), uncertain := un }

/-- `FO_CANDIDATE` (R269). -/
def foCandidateBytes (gnum : Nat) (epoch : BitVec 16) (k : Cand) : Bytes :=
  natLe 1 1 ++ natLe 1 gnum ++ natLe 2 epoch.toNat ++ natLe 2 k.node ++ natLe 2 0 ++ natLe 4 k.pid.toNat ++
    natLe 12 (dtOfTicks k.tc).toNat ++ natLe 4 k.sgran ++ natLe 4 (k.align.getD 0xFFFFFFFF) ++ natLe 8 0
/-- A received candidate (R269); its point number is not carried, its identity stands in for the order. -/
def parseCandidate (b : Bytes) : Cand :=
  let a := field b 28 4
  { node := field b 4 2, pid := BitVec.ofNat 32 (field b 8 4), pnum := field b 8 4,
    tc := dtTicks (BitVec.ofNat 96 (field b 12 12)), sgran := field b 24 4, align := if a = 0xFFFFFFFF then none else some a }
/-- An entry of `FO_DECIDED` laid out as `WINNER` (R269). -/
def foEntry (k : Cand) : Bytes := natLe 2 k.node ++ natLe 2 0 ++ natLe 4 k.pid.toNat
/-- The simultaneous candidates that `FO_DECIDED` lists, at most 7 (R268). -/
def FoDecision.listed (d : FoDecision) : List Cand := d.sim.take 7
/-- `FO_DECIDED` (R269). -/
def foDecidedBytes (gnum : Nat) (epoch : BitVec 16) (d : FoDecision) (partial_ : Bool) : Bytes :=
  natLe 1 2 ++ natLe 1 gnum ++ natLe 2 epoch.toNat ++ natLe 1 d.listed.length ++
    natLe 1 (b2n (!d.sim.isEmpty) + 2 * b2n partial_ + 4 * b2n d.uncertain) ++ natLe 2 0 ++ foEntry d.winner ++
    natLe 12 (dtOfTicks d.winner.tc).toNat ++ natLe 4 0 ++
    ((d.listed.flatMap foEntry) ++ List.replicate 56 0).take 56
/-- `FO_RESET` (R269). -/
def foResetBytes (gnum : Nat) (epoch : BitVec 16) : Bytes := natLe 1 3 ++ natLe 1 gnum ++ natLe 2 epoch.toNat

/-- The group is armed under an epoch (R267); what its last decision marked stays to be read (R273). -/
def Fo.arm (g : Fo) (epoch : BitVec 16) : Fo :=
  { g with state := 0, epoch := epoch, own := [], cands := [], settleAt := none, partialAt := none, winner := none }
/-- An own candidate of a participant: kept and sent when it is the earliest, or overlaps the earliest, up to 8 (R267); the arbiter
discards a repeat (R269).
The second part tells whether it is sent. `part` and `settle` in ms. -/
def Fo.offerOwn (g : Fo) (k : Cand) (arbiter : Bool) (settle mono : Nat) : Fo × Bool :=
  if g.state = 2 then (g, false)
  else if arbiter && g.cands.any fun o => o.node == k.node && o.pid == k.pid then (g, false)
  else
    let first := g.own.isEmpty
    let sends := first || ((match bestCand false g.own with | some e => k.overlaps e || k.beats e false | none => true) &&
      decide (g.own.length < 8))
    let g1 := { g with state := 1, own := if sends then g.own ++ [k] else g.own,
                       cands := if sends && arbiter then g.cands ++ [k] else g.cands,
                       settleAt := if arbiter && g.settleAt.isNone then some (mono + phMs settle) else g.settleAt,
                       partialAt := if !arbiter && g.partialAt.isNone then some (mono + phMs (settle + 10)) else g.partialAt }
    (g1, sends && !arbiter)
/-- A candidate received by the arbiter (R267, R269): the group, and whether it is late. -/
def Fo.receive (g : Fo) (k : Cand) (epoch : BitVec 16) (settle mono : Nat) : Fo × Bool :=
  if epoch != g.epoch then (g, false)
  else if g.cands.any fun o => o.node == k.node && o.pid == k.pid then (g, false)
  else if g.state = 2 then (g, true)
  else ({ g with state := 1, cands := g.cands ++ [k],
                 settleAt := if g.settleAt.isNone then some (mono + phMs settle) else g.settleAt }, false)
/-- The group takes a decision (R267, R273). -/
def Fo.decide (g : Fo) (d : FoDecision) (partial_ : Bool) : Fo :=
  { g with state := 2, winner := some d.winner, simul := !d.sim.isEmpty, partial_ := partial_, uncertain := d.uncertain,
           nsim := d.listed.length, settleAt := none, partialAt := none }
/-- `FO_STAT` (R273). -/
def Fo.stat (g : Fo) (arbiter : Bool) : Nat :=
  g.state + 4 * b2n arbiter + 8 * b2n g.simul + 16 * b2n g.partial_ + 32 * b2n g.uncertain + 256 * g.nsim + 65536 * g.epoch.toNat
/-- `SG_STAT` (R274). -/
def Sg.stat (g : Sg) (members : Nat) : Nat := b2n g.active + 2 * b2n g.left.isSome + 4 * b2n g.badq + 65536 * members
/-- `AE_STATE` (R271). -/
def Ae.stateWord (a : Ae) : Nat := b2n a.running + 4 * b2n a.flood + 8 * b2n a.evalLate + 16 * b2n a.pubGap

/-- The 32 bytes of a publication record (R262). -/
def PubRec.bytes (r : PubRec) : Bytes :=
  natLe 4 r.seq.toNat ++ natLe 4 r.pid.toNat ++ natLe 2 r.pnum ++ natLe 1 r.state ++ natLe 1 r.cause ++ natLe 12 r.tev.toNat ++
    natLe 4 r.value.toNat ++ natLe 1 r.tq ++ natLe 1 r.pflags ++ natLe 2 r.occ.toNat

end Sys2Proof.Machine
end

