-- ==== Sys2Proof/Machine/TypesTandem.lean ====
section
/-! DEFINITION. The state types of tandem redundancy, of the interlock and of the field output stages
(01_architecture.md R25 to R33, 10_tandem_redundancy.md, 20_connectors_and_ratings.md R584). -/

namespace Sys2Proof.Machine

/-- The roles of R317. -/
inductive Role where
  | offline
  | solo
  | catchingUp
  | standby
  | active
  | detached
  | failed
  deriving DecidableEq, Repr

/-- The code of a role (R317). -/
def Role.code : Role → Nat
  | .offline => 0
  | .solo => 1
  | .catchingUp => 2
  | .standby => 3
  | .active => 4
  | .detached => 5
  | .failed => 6

/-- The role of a code of R317; 7 and above name none. -/
def roleOfCode : Nat → Option Role
  | 0 => some .offline
  | 1 => some .solo
  | 2 => some .catchingUp
  | 3 => some .standby
  | 4 => some .active
  | 5 => some .detached
  | 6 => some .failed
  | _ => none

/-- The readings of `ILK_PEER` (R321). -/
inductive PeerLine where
  | unclaimed
  | claimed
  | open_
  deriving DecidableEq, Repr

/-- The code of a reading (R326, R355). -/
def PeerLine.code : PeerLine → Nat
  | .unclaimed => 0
  | .claimed => 1
  | .open_ => 2

/-- The tandem record (R316), with the defaults of its zeros in place. -/
structure TandemRec where
  home : Nat := 0
  swapOnScore : Bool := false
  lossTmoUs : Nat := 150
  tRevertS : Nat := 300
  swapMargin : Nat := 20
  swapHoldS : Nat := 10
  unfitScore : Nat := 60
  raw : Bytes := List.replicate 16 0
  deriving DecidableEq, Repr

/-- The contents of a bell frame (R326). -/
structure Bell where
  role : Nat
  claiming : Bool
  act : Bool
  release : Bool
  fit : Bool
  home : Bool
  revertWait : Bool
  seq : BitVec 32
  health : BitVec 64
  score : Nat
  tq : Nat
  peerline : Nat
  shseq : BitVec 32
  tsend : BitVec 64
  icrc : BitVec 32
  fwmain : BitVec 32
  aostage : List Q15
  deriving DecidableEq, Repr

/-- One bell path as received (R328): the instant of the last valid bell, the start of the present run of
valid bells, the mark silent, the instant from which silence is counted, the last `SEQ` and the missing bells. -/
structure BPath where
  last : Option Nat := none
  runFrom : Option Nat := none
  silent : Bool := false
  seq : Option Nat := none
  lost : BitVec 32 := 0
  deriving DecidableEq, Repr

/-- The instants that bound the interlock's timers (R318 to R324). `peerSince` is the instant since which
`ILK_PEER` has had its present reading; `claimedAt` that of the own claim; `claimCond` the condition of R322
that made the claim (0: start-up). -/
structure Ilk where
  peer : PeerLine := .open_
  peerSince : Nat := 0
  ownClaim : Bool := false
  claimedAt : Nat := 0
  claimCond : Nat := 0
  /-- Start-up claim: `ILK_PEER` has read `OPEN` ever since the claim (R318). -/
  openThroughout : Bool := false
  /-- Refresh of the claim by the tandem logic (R321): whether it goes on, and the last one. -/
  keeperRefresh : Bool := true
  keeperAt : Nat := 0
  act : Bool := false
  actAt : Nat := 0
  /-- The instant at which ACT last counted as cleared, kept through resets (R29). -/
  actClearedAt : Nat := 0
  everAct : Bool := false
  /-- The module is in its power-on reset (R29). -/
  powerReset : Bool := true
  /-- Instant at which the first claim condition of R322 held. -/
  condAt : Nat := 0
  conflictAt : Option Nat := none
  recheckAt : Option Nat := none
  openWaitAt : Option Nat := none
  redecideAt : Option Nat := none
  peerBlockedAt : Option Nat := none
  enableAt : Option Nat := none
  /-- Claims on silence are spent until a new condition arises (R324). -/
  silenceSpent : Bool := false
  glitch : Bool := false
  deriving DecidableEq, Repr

/-- A planned handover between request and T_h (R340, R341): T_h in DTIME, the requester's reason, whether this
module gives up ACT, whether `HO_ACK` has come, whether the release or the take has been done. -/
structure HoPend where
  th : BitVec 96
  reason : Nat
  giving : Bool
  acked : Bool := false
  deriving DecidableEq, Repr

/-- Handovers: the one pending, the last one, those with reasons 2 and 3 by operating time (R340, R350). -/
structure Ho where
  pend : Option HoPend := none
  /-- A request sent to the partner and not yet answered. -/
  asked : Option Nat := none
  lastAt : Option Nat := none
  counted : List Nat := []
  waitAck : Bool := false
  permit : Bool := false
  swapFrom : Option Nat := none
  revertFrom : Option Nat := none
  lastCause : Nat := 0
  deriving DecidableEq, Repr

/-- The shadow traffic (R331 to R335, R344). -/
structure Shadow where
  /-- Last `BSEQ` sent, and last committed (R326, R333). -/
  bseq : BitVec 32 := 0
  cseq : BitVec 32 := 0
  /-- Batches sent within the last second: instant, length in bytes (R354). -/
  sent : List (Nat × Nat) := []
  /-- Last `BSEQ` received; none where any may follow. -/
  rxSeq : Option (BitVec 32) := none
  hdr : Option BatchHdr := none
  recs : List ShRec := []
  gapSeen : Bool := false
  lost : BitVec 32 := 0
  lagNs : Nat := 0
  /-- Batches sent and not yet seen committed: (BSEQ, end of cycle). -/
  flying : List (BitVec 32 × Nat) := []
  /-- Last committed cycle image per task: (task, apply instant, overrun, items). -/
  images : List (Nat × BitVec 64 × Bool × List OutItem) := []
  /-- Time-base record per task: (task, release number, remainder, trigger pending, last release). -/
  bases : List (Nat × Nat × Nat × Bool × Nat) := []
  /-- Resynchronisation: attempt (0: none), start instant, bulk data complete, tasks and alarm stream seen since. -/
  attempt : Nat := 0
  startedAt : Nat := 0
  attemptAt : Nat := 0
  bulkDone : Bool := false
  seenTasks : List Nat := []
  seenAlarm : Bool := false
  ms : Nat := 0
  /-- A resynchronisation is asked for and waits for a re-plan without measured costs (R181). -/
  waiting : Bool := false
  /-- The holder of ACT is sending the bulk blocks. -/
  serving : Bool := false
  deriving DecidableEq, Repr

/-- Health figures (R345 to R350). `tested` holds the bits that patrol tests and start-up set; `ecc` the operating
time in ms of each corrected error of the last hour. -/
structure Health where
  tested : BitVec 30 := 0
  ecc : List Nat := []
  tempC : Int := 0
  ownPinOk : Bool := true
  score : Nat := 100
  standbyUnfit : Bool := false
  /-- End instant of the last pass of each patrol test. -/
  patrolAt : List (Patrol × Nat) := []
  recomputedAt : Nat := 0
  /-- Bits [7:0] and [18] of the health word as R348 last judged them. -/
  defects : Nat := 0
  deriving DecidableEq, Repr

/-- Tandem redundancy. -/
structure Tandem where
  role : Role := .offline
  detach : Nat := 0
  ilk : Ilk := {}
  /-- The configuration of R316, in use since the start. -/
  trec : TandemRec := {}
  slotB : Bool := false
  tl : BPath := {}
  hb : BPath := {}
  hbCrcErr : BitVec 32 := 0
  bell : Option Bell := none
  /-- Instants of the last valid bell frames that showed the partner `ACTIVE` or `SOLO`, and `STANDBY` (R184, R318). -/
  runsAt : Option Nat := none
  standbyAt : Option Nat := none
  /-- Flags of the last valid heartbeat: CLAIMING, ACT, RELEASE, FIT. -/
  hbFlags : Option (BitVec 4) := none
  /-- Own bell generator (R326, R327). -/
  seqTl : BitVec 32 := 0
  seqHb : BitVec 8 := 0
  bellDue : Nat := 0
  releaseMark : Bool := false
  /-- Twin-link lanes up, instants at which they last changed. -/
  lane0 : Bool := false
  lane1 : Bool := false
  lane0At : Nat := 0
  lane1At : Nat := 0
  /-- `LSEQ` of the last frame sent of each `LTYPE` (R329). -/
  lseq : List (BitVec 32) := [0, 0, 0]
  partnerHello : Option Hello := none
  ho : Ho := {}
  sh : Shadow := {}
  hl : Health := {}
  switchovers : BitVec 32 := 0
  lastTakeover : BitVec 96 := 0
  takeoverNs : Nat := 0
  /-- FAILED: the instant of the record, the cause of the next start, the operating times of starts counted by R319. -/
  failedAt : Option Nat := none
  failCause : Nat := 0
  starts : List Nat := []
  deriving DecidableEq, Repr

/-- The states of a field output stage (R29). -/
inductive Stage where
  | drive
  | hold
  | off
  | kickstand
  deriving DecidableEq, Repr

/-- A field output stage: its state and the last refresh by the logic side (R29). -/
structure OutStage where
  st : Stage := .hold
  refresh : Option Nat := none
  deriving DecidableEq, Repr

end Sys2Proof.Machine
end

