-- ==== Sys2Proof/Machine/TandemOps.lean ====
section
/-! DEFINITION. Named operations of tandem redundancy: bells, paths, the interlock, the role decisions, the field
output stages and the health score (01_architecture.md, 10_tandem_redundancy.md). -/

namespace Sys2Proof.Machine

/-- The tandem record of an `IDENTITY` section `b`, its bytes 64 to 79; `none` where a field is outside its range (R316). Reserved
bits are ignored (R13). -/
def parseTandemRec (b : Bytes) : Option TandemRec :=
  let home := field b 64 1
  let tfl := field b 65 1
  let loss := field b 66 2
  let trev := field b 68 4
  let marg := field b 72 1
  let hold := field b 73 1
  let unfit := field b 74 1
  if home ≤ 2 ∧ (loss = 0 ∨ 75 ≤ loss ∧ loss ≤ 1000) ∧ (trev = 0 ∨ 10 ≤ trev ∧ trev ≤ 86400)
      ∧ (marg = 0 ∨ 5 ≤ marg ∧ marg ≤ 50) ∧ unfit ≤ 100 then
    some { home := home, swapOnScore := bitOf tfl 0, lossTmoUs := if loss = 0 then 150 else loss,
           tRevertS := if trev = 0 then 300 else trev, swapMargin := if marg = 0 then 20 else marg,
           swapHoldS := if hold = 0 then 10 else hold, unfitScore := if unfit = 0 then 60 else unfit,
           raw := slice b 64 16 }
  else none

/-- The first 60 bytes of a bell frame (R326). -/
def Bell.head (b : Bell) : Bytes :=
  [1, 1, BitVec.ofNat 8 b.role,
   BitVec.ofNat 8 (packBits [b.claiming, b.act, b.release, b.fit, b.home, b.revertWait])]
  ++ natLe 4 b.seq.toNat ++ natLe 8 b.health.toNat ++ natLe 1 b.score ++ natLe 1 b.tq ++ natLe 1 b.peerline ++ [0]
  ++ natLe 4 b.shseq.toNat ++ natLe 8 b.tsend.toNat ++ natLe 4 b.icrc.toNat ++ natLe 4 b.fwmain.toNat
  ++ ((List.range 8).map fun i => natLe 2 (at_ b.aostage i 0).toNat).flatten ++ natLe 4 0

/-- A bell frame (R326). -/
def Bell.bytes (b : Bell) : Bytes := b.head ++ natLe 4 (crc32 b.head)

/-- A received bell frame: valid where it has 64 bytes and its `BCRC` is correct (R328). -/
def parseBell (f : Bytes) : Option Bell :=
  if f.length = 64 ∧ field f 60 4 = crc32 (slice f 0 60) ∧ field f 0 1 = 1 then
    let fl := field f 3 1
    some { role := field f 2 1, claiming := bitOf fl 0, act := bitOf fl 1, release := bitOf fl 2, fit := bitOf fl 3,
           home := bitOf fl 4, revertWait := bitOf fl 5, seq := BitVec.ofNat 32 (field f 4 4),
           health := BitVec.ofNat 64 (field f 8 8), score := field f 16 1, tq := field f 17 1,
           peerline := field f 18 1, shseq := BitVec.ofNat 32 (field f 20 4), tsend := BitVec.ofNat 64 (field f 24 8),
           icrc := BitVec.ofNat 32 (field f 32 4), fwmain := BitVec.ofNat 32 (field f 36 4),
           aostage := (List.range 8).map fun i => BitVec.ofNat 16 (field f (40 + 2 * i) 2) }
  else none

/-- The module remembers when bell frames last showed its partner `ACTIVE` or `SOLO`, and `STANDBY` (R184, R318). -/
def Tandem.noteRole (t : Tandem) (b : Bell) (mono : Nat) : Tandem :=
  { t with runsAt := if b.role = 1 ∨ b.role = 4 then some mono else t.runsAt
           standbyAt := if b.role = 3 then some mono else t.standbyAt }

/-- Header and payload of a twin-link frame (R329). -/
def tlBody (ltype : Nat) (lseq : BitVec 32) (p : Bytes) : Bytes :=
  natLe 1 ltype ++ [0] ++ natLe 2 p.length ++ natLe 4 lseq.toNat ++ p

/-- A twin-link frame: header, payload and CRC-32 (R329). -/
def tlFrame (ltype : Nat) (lseq : BitVec 32) (p : Bytes) : Bytes := tlBody ltype lseq p ++ natLe 4 (crc32 (tlBody ltype lseq p))

/-- `LTYPE` and payload of a received twin-link frame; one whose CRC is wrong is discarded (R329). -/
def parseTl (f : Bytes) : Option (Nat × Bytes) :=
  let n := field f 2 2
  if f.length = n + 12 ∧ n ≤ 4096 ∧ field f (n + 8) 4 = crc32 (slice f 0 (n + 8)) then some (field f 0 1, slice f 8 n) else none

/-- The bell of a twin-link frame; none in a frame that is discarded, of another `LTYPE`, or whose `BCRC` is wrong (R328, R329). -/
def tlBell (f : Bytes) : Option Bell :=
  match parseTl f with
  | some (1, p) => parseBell p
  | _ => none

/-- The header of a batch (R332). -/
def batchHead (h : BatchHdr) : Bytes :=
  natLe 1 h.btype ++ natLe 1 h.task ++ natLe 2 (b2n h.overrun) ++ natLe 4 h.bseq.toNat ++ natLe 4 h.relnum.toNat ++ natLe 4 0
    ++ natLe 8 h.apply.toNat ++ natLe 4 h.nrec ++ natLe 4 h.blen

/-- `RTYPE` of a record (R332): what the table gives no record of its own travels in granules. -/
def recType : ShRec → Nat
  | .output _ => 2
  | .loop .. => 3
  | .alarm _ => 4
  | .foGroup _ => 5
  | .timeBase .. => 6
  | .tou .. => 7
  | .commit _ => 8
  | .cell .. => 1
  | .block .. => 1
  | .image .. => 1
  | .sgroup .. => 1
  | .pubSeq _ => 1

/-- `ADDR` of a record (R332). -/
def recAddr : ShRec → Nat
  | .loop n .. => n
  | .alarm p => p.pnum
  | .foGroup g => g.gnum
  | .tou u .. => u
  | .output _ => 0
  | .timeBase .. => 0
  | .commit _ => 0
  | r => Config.shadowGranule r

/-- `n` bytes from the front of `b`, filled up with zeros. -/
def padTo (n : Nat) (b : Bytes) : Bytes := (b ++ List.replicate n 0).take n

/-- The payload of a record (R332). The flags of a `TOU` record are `armed` and LOCKREQ (DESIGN CHOICE, log entry 143). -/
def recPayload : ShRec → Bytes
  | .loop _ yPrev y0 k phase mode words =>
    natLe 2 yPrev.toNat ++ natLe 2 y0.toNat ++ natLe 2 k ++ natLe 1 phase ++ natLe 1 mode
      ++ ((List.range 256).map fun i => natLe 4 (at_ words i 0).toNat).flatten
  | .tou _ target period lockReq armed => natLe 8 target.toNat ++ natLe 4 period ++ natLe 4 (b2n armed + 2 * lockReq)
  | .commit crc => natLe 4 crc.toNat
  | .alarm p => padTo 16 (Config.shadowBytes (.alarm p))
  | .foGroup g => padTo 16 (Config.shadowBytes (.foGroup g))
  | .output i => Config.shadowBytes (.output i)
  | .timeBase t n r tr c b l => Config.shadowBytes (.timeBase t n r tr c b l)
  | r => padTo (64 * ceilDiv (Config.shadowBytes r).length 64) (Config.shadowBytes r)

/-- A record with its 8-byte header (R332). -/
def recBytes (r : ShRec) : Bytes :=
  natLe 1 (recType r) ++ [0] ++ natLe 2 (recPayload r).length ++ natLe 4 (recAddr r) ++ recPayload r

/-- The batch from its header up to its `COMMIT` record (R332). -/
def batchBody (h : BatchHdr) (recs : List ShRec) : Bytes := batchHead h ++ (recs.map recBytes).flatten

/-- The `COMMIT` record that a batch of these records ends with (R332). -/
def batchCommit (h : BatchHdr) (recs : List ShRec) : ShRec := .commit (BitVec.ofNat 32 (crc32 (batchBody h recs)))

/-- A complete batch, whose last record is its `COMMIT`, checks: the CRC is that of header and records, and NREC counts them (R332, R333). -/
def batchChecks (h : BatchHdr) (recs : List ShRec) : Bool :=
  decide (recs.getLast? = some (batchCommit h recs.dropLast)) && decide (h.nrec = recs.length)

/-- `BLEN` of a batch of these records, `COMMIT` included (R332). -/
def batchLen (recs : List ShRec) : Nat := 32 + (recs.map fun r => (recBytes r).length).sum + 12

/-- The 64-byte granules that records carry (R331, R538). -/
def granulesOf (recs : List ShRec) : Nat :=
  ((recs.filter fun r => recType r == 1).map fun r => (recPayload r).length / 64).sum

/-- The shadow segments that carry a byte stream, after the frame numbered `lseq` (R329, R332). -/
def shadowFrames (lseq : BitVec 32) (b : Bytes) : List Bytes :=
  (List.range (ceilDiv b.length 4096)).map fun i => tlFrame 2 (lseq + 1 + BitVec.ofNat 32 i) (slice b (4096 * i) 4096)

/-- One step of CRC-6, polynomial x⁶ + x + 1, bits most significant first (R327). -/
def crc6Step (c : Nat) (bit : Bool) : Nat :=
  let fb := bitOf c 5 != bit
  (c * 2 % 64) ^^^ (if fb then 3 else 0)

/-- CRC-6 over the `n` low bits of `v`, most significant first (R327). -/
def crc6 : Nat → Nat → Nat → Nat
  | 0, _, c => c
  | n + 1, v, c => crc6 n v (crc6Step c (bitOf v n))

/-- A heartbeat frame's 20 bits from `SEQ` on (R327). -/
def heartbeatBits (seq flags : Nat) : BitVec 20 :=
  let v := seq % 256 * 64 + flags % 64
  BitVec.ofNat 20 (v * 64 + crc6 14 v 0)

/-- `SEQ` and flags of a heartbeat frame; `none` where the CRC is wrong (R327, R328). -/
def parseHeartbeat (b : BitVec 20) : Option (Nat × Nat) :=
  let v := b.toNat / 64
  if crc6 14 v 0 = b.toNat % 64 then some (v / 64, v % 64) else none

/-- A path on a valid bell with sequence number `seq` of `w` bits: the run of valid bells, the missing ones (R328). -/
def BPath.valid (p : BPath) (w seq mono loss : Nat) : BPath :=
  let broken := match p.last with | some l => decide (l + loss < mono) | none => true
  let miss := match p.seq with | some s => (seq + 2 ^ w - (s + 1) % 2 ^ w) % 2 ^ w | none => 0
  { p with last := some mono, seq := some seq, lost := p.lost + BitVec.ofNat 32 miss,
           runFrom := if broken then some mono else p.runFrom.or (some mono) }

/-- The path has gone silent (R328). -/
def BPath.goSilent (p : BPath) : BPath := { p with silent := true, runFrom := none }

/-- The instant at which a path becomes silent: `loss` after its last valid bell, or after `from_` where none came (R328). -/
def BPath.silentDue (p : BPath) (loss from_ : Nat) : Nat := p.last.getD from_ + loss

/-- The path shows the partner now: a valid bell within `loss`, and the path in service (R328, R355). -/
def BPath.inService (p : BPath) (mono loss : Nat) : Bool :=
  !p.silent && (match p.last with | some l => decide (mono ≤ l + loss) | none => false)

/-- A valid bell has come on the path within `w` before `mono`. -/
def BPath.heard (p : BPath) (mono w : Nat) : Bool :=
  match p.last with | some l => decide (mono ≤ l + w) | none => false

/-- The instant at which valid bells have come for 1 s without a break, where they go on up to it and, if it has passed, up to `mono`
(R320, R328). -/
def BPath.steadyAt (p : BPath) (loss mono : Nat) : Option Nat :=
  match p.runFrom, p.last with
  | some a, some l => if Nat.max (a + phS 1) mono ≤ l + loss then some (a + phS 1) else none
  | _, _ => none

/-- LOSS_TMO in phases. -/
def TandemRec.loss (r : TandemRec) : Nat := phUs r.lossTmoUs

/-- The reading that the receiver takes from a line voltage in mV: `held` says that the voltage has stayed in its band
for 50 µs (R584). -/
def readPeer (prev : PeerLine) (mv : Nat) (held : Bool) : PeerLine :=
  if mv ≤ 2000 then .unclaimed
  else if 8000 ≤ mv then .claimed
  else if 4000 ≤ mv ∧ mv ≤ 6000 ∧ held then .open_
  else prev

/-- `ILK_PEER` as R29 and the claim conditions take it: `OPEN` counts as claimed (R321). -/
def PeerLine.asClaimed : PeerLine → Bool
  | .unclaimed => false
  | _ => true

/-- The interlock with a new reading of `ILK_PEER`. -/
def Ilk.setPeer (k : Ilk) (p : PeerLine) (mono : Nat) : Ilk :=
  if p = k.peer then k
  else { k with peer := p, peerSince := mono, openThroughout := k.openThroughout && decide (p = .open_) }

/-- The interlock with its own claim asserted on a condition of R322 (0: start-up). -/
def Ilk.assert (k : Ilk) (cond mono : Nat) : Ilk :=
  if k.ownClaim then k
  else { k with ownClaim := true, claimedAt := mono, claimCond := cond, condAt := mono, keeperRefresh := true,
                keeperAt := mono, openThroughout := decide (k.peer = .open_), openWaitAt := none, recheckAt := none,
                redecideAt := none, silenceSpent := k.silenceSpent || decide (cond = 2) }

/-- The interlock with its own claim released: the ACT latch clears with it (R323), and ACT counts as cleared (R29). -/
def Ilk.release (k : Ilk) (mono : Nat) : Ilk :=
  { k with ownClaim := false, act := false, actClearedAt := if k.act then mono else k.actClearedAt,
           conflictAt := none, peerBlockedAt := none, enableAt := none, openThroughout := false }

/-- The instant at which the ACT latch sets: own claim, and `ILK_PEER` unclaimed for 20 µs (R323). -/
def Ilk.actDue (k : Ilk) : Option Nat :=
  if k.ownClaim && !k.act && decide (k.peer = .unclaimed) then some (Nat.max k.claimedAt (k.peerSince + phUs 20)) else none

/-- The ACT latch sets (R323); the stages may enable 5 µs later (R30). -/
def Ilk.latch (k : Ilk) (mono : Nat) : Ilk :=
  { k with act := true, actAt := mono, everAct := true, conflictAt := none, peerBlockedAt := none,
           enableAt := some (mono + phUs 5) }

/-- The instant at which a standby claims on condition 1 of R322. -/
def Tandem.standbyClaimDue (t : Tandem) : Option Nat :=
  if decide (t.role = .standby) && !t.ilk.ownClaim && decide (t.ilk.peer = .unclaimed) then
    some (t.ilk.peerSince + phUs 2) else none

/-- A claim made without ACT meets the partner's: the cases of R324. -/
def Tandem.conflict (t : Tandem) : Bool :=
  t.ilk.ownClaim && !t.ilk.act &&
    (decide (t.ilk.peer = .claimed) || decide (t.role = .standby) && decide (t.ilk.peer = .open_))

/-- The partner's role as its last valid bell frame shows it, 7 when no partner is heard on either path (R355). -/
def Tandem.partnerRole (t : Tandem) (mono : Nat) : Nat :=
  if t.tl.heard mono (phS 1) || t.hb.heard mono (phS 1) then (t.bell.map (·.role)).getD 7 else 7

/-- A partner is present (R346). -/
def Tandem.partnerPresent (t : Tandem) (mono : Nat) : Bool :=
  t.tl.heard mono (phS 1) || t.hb.heard mono (phS 1) || t.ilk.peer.asClaimed

/-- An instant lies within the 2 ms before `mono`. -/
def within2Ms (a : Option Nat) (mono : Nat) : Bool := match a with | some x => decide (mono ≤ x + phMs 2) | none => false

/-- Some valid bell of the 2 ms before `mono` shows the partner `ACTIVE` or `SOLO` (R318, R322). -/
def Tandem.partnerRuns (t : Tandem) (mono : Nat) : Bool := within2Ms t.runsAt mono

/-- Some valid bell of the 2 ms before `mono` shows the partner `ACTIVE`, `SOLO` or `STANDBY` (R184). -/
def Tandem.partnerUp (t : Tandem) (mono : Nat) : Bool := t.partnerRuns mono || within2Ms t.standbyAt mono

/-- The partner counts as gone (R320). -/
def Tandem.partnerGone (t : Tandem) (mono : Nat) : Bool :=
  decide (t.ilk.peer = .unclaimed) && decide (t.ilk.peerSince + t.trec.loss ≤ mono)
    || t.tl.heard mono t.trec.loss && (match t.bell with | some b => b.role == 6 || b.role == 0 | none => false)

/-- The partner is `STANDBY`, as its bells show it. -/
def Tandem.partnerStandby (t : Tandem) (mono : Nat) : Bool := t.partnerRole mono == 3

/-- The partner's bells show `FIT`. -/
def Tandem.partnerFit (t : Tandem) : Bool := (t.bell.map (·.fit)).getD false

/-- The payload rate of the twin link by its lanes up, bytes/s (R333). -/
def Tandem.linkRate (t : Tandem) : Nat :=
  if t.lane0 && t.lane1 then 1187500000 else if t.lane0 || t.lane1 then 593750000 else 0

/-- Shadowing is permitted at the plan's shadow rate (R335, R320). -/
def Tandem.shadowPermitted (t : Tandem) (rate : Nat) : Bool :=
  t.lane0 && t.lane1 || (t.lane0 || t.lane1) && decide (rate ≤ 445312500)

/-- The state of a field output stage (R29, first row that matches). `silent`: the logic has been silent for the
output timeout; `cleared`: the output timeout has run since ACT cleared. -/
def stageOf (act peerClaimed clockFault silent cleared : Bool) : Stage :=
  if clockFault then (if peerClaimed then .off else .kickstand)
  else if act then (if !silent then .drive else if peerClaimed then .hold else .kickstand)
  else if peerClaimed then .off
  else if cleared then .kickstand
  else .hold

/-- A stage at `mono` with output timeout `otmo`: R29, and R30 for a stage that is OFF. -/
def OutStage.restage (o : OutStage) (k : Ilk) (clockFault : Bool) (otmo mono : Nat) : OutStage :=
  let ref := Nat.max (o.refresh.getD 0) k.actAt
  let s := stageOf k.act k.peer.asClaimed clockFault (decide (ref + otmo ≤ mono))
    (!k.powerReset && decide (k.actClearedAt + otmo ≤ mono))
  { o with st := if o.st = .off ∧ s ≠ .off ∧ k.act ∧ k.enableAt.isSome then .off else s }

/-- The deduction of a bit of the health word (R346). -/
def deduction : Nat → Nat
  | 0 => 30 | 1 => 30 | 2 => 30 | 3 => 30
  | 4 => 15 | 5 => 15 | 6 => 15 | 7 => 15
  | 8 => 2 | 9 => 5 | 10 => 15 | 11 => 15 | 12 => 15 | 13 => 10 | 14 => 10 | 15 => 10 | 16 => 10
  | 17 => 40 | 18 => 40 | 19 => 5 | 20 => 10 | 21 => 5 | 22 => 5 | 23 => 5 | 24 => 10 | 25 => 10
  | 26 => 5 | 27 => 10 | 28 => 5 | 29 => 30
  | _ => 0

/-- The health score of a health word: max(0, 100 − the deductions of its set bits) (R347). -/
def healthScore (w : BitVec 64) : Nat :=
  100 - ((List.range 30).map fun i => if w.getLsbD i then deduction i else 0).sum

/-- Fitness (R347). -/
def isFit (w : BitVec 64) (score unfit : Nat) (standbyOrAct : Bool) : Bool :=
  decide (unfit ≤ score) && decide (w.toNat % 256 = 0) && !w.getLsbD 17 && !w.getLsbD 18 && standbyOrAct

/-- A control frame's payload: `CTYPE`, 3 reserved bytes and what follows (R330). -/
def ctrlMsg (ctype : Nat) (rest : Bytes) : Bytes := BitVec.ofNat 8 ctype :: [0, 0, 0] ++ rest

/-- A `HELLO` message (R330). -/
def helloMsg (h : Hello) : Bytes :=
  ctrlMsg 1 (natLe 4 h.fwMain.toNat ++ natLe 4 h.shadowLo.toNat ++ natLe 4 h.shadowHi.toNat ++ natLe 4 h.icrc.toNat
    ++ natBe 32 h.planHash.toNat ++ natLe 1 h.excl.toNat ++ natLe 1 (b2n h.slotB))

/-- The check of R344 step 1: the detach reason of the first failed check, 0 where all pass. `excl` is the own exclusion
set, and a newcomer with an exclusion in force compares no plan hash. -/
def helloCheck (own partner : Hello) : Nat :=
  let within (v lo hi : BitVec 32) : Bool := decide (lo.toNat ≤ v.toNat) && decide (v.toNat ≤ hi.toNat)
  if !(within own.fwMain partner.shadowLo partner.shadowHi && within partner.fwMain own.shadowLo own.shadowHi) then 1
  else if own.excl ≠ 0 then 4
  else if own.icrc ≠ partner.icrc then 2
  else if own.planHash ≠ partner.planHash then 3
  else 0

/-- Device time of T_h in units. -/
def HoPend.units (p : HoPend) : Nat := dtTicks p.th * 2 ^ 14

/-- `STANDBY_UNFIT` (R347): a module holding ACT whose `STANDBY` partner's bells show `FIT` clear. -/
def Tandem.standbyUnfit (t : Tandem) (mono : Nat) : Bool := t.ilk.act && t.partnerStandby mono && !t.partnerFit

/-- `TANDEM_STATE` (R355), from elapsed time, device time in units and the own fitness. -/
def Tandem.stateWord (t : Tandem) (mono now : Nat) (fit : Bool) : Nat :=
  let loss := t.trec.loss
  t.role.code + 8 * t.partnerRole mono + 64 * b2n t.ilk.act + 128 * b2n t.ilk.ownClaim + 256 * t.ilk.peer.code
  + 1024 * b2n (t.tl.inService mono loss) + 2048 * b2n (t.hb.inService mono loss) + 4096 * b2n fit
  + 8192 * b2n (t.standbyUnfit mono) + 16384 * b2n t.ho.waitAck
  + 32768 * b2n (t.trec.home == (if t.slotB then 2 else 1))
  + 65536 * (if t.role = .detached then t.detach else 0)
  + 1048576 * b2n (t.lane0 != t.lane1) + 2097152 * b2n (match t.ho.pend with | some p => decide (now < p.units) | none => false) + 4194304 * b2n t.ilk.glitch

end Sys2Proof.Machine
end

