-- ==== Sys2Proof/Machine/TypesAn.lean ====
section
/-! DEFINITION. The state types of the analogue loops and HART (15_analogue_loops.md). -/

namespace Sys2Proof.Machine

/-- An AI record (R477). -/
structure AiCfg where
  use : Nat := 0
  rate : Nat := 0
  ls : Bool := false
  hart : Bool := false
  vtx : Nat := 80
  rloop : Nat := 0
  deriving DecidableEq, Repr

/-- An AO record (R478), with the defaults of R463. -/
structure AoCfg where
  use : Nat := 0
  kick : Nat := 0
  otmoMs : Nat := 20
  kval : Real32 := 0
  hart : Bool := false
  deriving DecidableEq, Repr

/-- A trim entry (R487). -/
structure TrimCfg where
  cls : Nat
  ch : Nat
  pos : Nat
  serial : Nat
  t4 : Real32
  t20 : Real32
  deriving DecidableEq, Repr

/-- A `HART` entry (R490). -/
structure HartCfg where
  ao : Bool
  ch : Nat
  acceptBurst : Bool
  checkId : Bool
  poll : Nat
  expdt : Nat
  mfr : Nat
  devid : Nat
  scan : Nat
  retry : Nat
  scanPer : Nat
  deriving DecidableEq, Repr

/-- A current input (R479 to R482). `qual` and `limit` are held with the conversion. -/
structure AiCh where
  mA : Real32 := 0
  raw : Real32 := 0
  done : Bool := false
  /-- Device time of the last conversion, in 2⁻³⁰ ns; the earliest one after a step (R479). -/
  at_ : Nat := 0
  ts : BitVec 96 := 0
  notBefore : Nat := 0
  band : Nat := 0
  qual : Nat := 0
  limit : Nat := 0
  keeper : Bool := true
  lsOn : Bool := false
  lsMv : Nat := 0
  lsUa : Nat := 0
  lsLimit : Bool := false
  lsThermal : Bool := false
  lsLimitSeen : Bool := false
  lsAt : Nat := 0
  lsOffAt : Nat := 0
  /-- A conversion has completed since the supply was enabled (R481). -/
  lsConv : Bool := false
  deriving DecidableEq, Repr

/-- A current output (R484, R485, R489): commanded current before trim (none: OFF), the stage command r, the stage and the sense. -/
structure AoCh where
  cmd : Option Real32 := none
  r : Option Real32 := none
  out : OutStage := {}
  rb : Real32 := 0
  short : Nat := 0
  maskTo : Nat := 0
  lastShort : Nat := 0
  compliance : Bool := false
  open_ : Bool := false
  thermal : Bool := false
  seen : Bool := false
  sampleAt : Nat := 0
  testFrom : Option Nat := none
  deriving DecidableEq, Repr

/-- How a HART request addresses its device (R491). -/
inductive HartAddr where
  | short (poll : Nat)
  | long (expdt devid : Nat)
  deriving DecidableEq, Repr

/-- What a HART channel is doing (R491). -/
inductive HartTrans where
  | ident
  | scan
  | pass
  deriving DecidableEq, Repr

/-- A HART device (R491, R498). -/
structure HartDev where
  st : Nat := 0
  mismatch : Bool := false
  burstSeen : Bool := false
  devStat : BitVec 8 := 0
  rc : BitVec 8 := 0
  fails : Nat := 0
  id : Bytes := List.replicate 8 0
  dv : List Real32 := [0, 0, 0, 0]
  trans : Option HartTrans := none
  tries : Nat := 0
  identDue : Bool := false
  scanDue : Bool := false
  scanAt : Option Nat := none
  reidentAt : Option Nat := none
  deriving DecidableEq, Repr

/-- The pass-through request (R493). -/
structure HartPt where
  entry : Nat
  cmd : BitVec 8
  tag : BitVec 8
  data : Bytes
  due : Nat
  deriving DecidableEq, Repr

/-- The analogue section. -/
structure An where
  supplyOk : Bool := false
  suppliedAt : Nat := 0
  shed : Bool := false
  adcRef : Bool := false
  trimStale : Bool := false
  ai : List AiCh := List.replicate 16 {}
  ao : List AoCh := List.replicate 8 {}
  hart : List HartDev := []
  pt : Option HartPt := none
  ptRsp : Bytes := []
  deriving DecidableEq, Repr

end Sys2Proof.Machine
end

