-- ==== Sys2Proof/Machine/AnOps.lean ====
section
/-! DEFINITION. Named operations of the analogue loops and HART (15_analogue_loops.md). -/

namespace Sys2Proof.Machine

/-- `n / d` mA as REAL32. -/
def maOf (n d : Nat) : Real32 := fOfRat (n : Int) d

/-- Conversions per second of a rate code (R477). -/
def aiRate (code : Nat) : Nat := at_ [4000, 2000, 1000, 500, 100, 50] code 50

/-- The conversion period in 2⁻³⁰ ns of device time (R479). -/
def aiPeriod (code : Nat) : Nat := 1000000000 / aiRate code * 2 ^ 30

/-- The next completion instant of a channel: the first grid instant after its last one and not before a bound (R479). -/
def AiCh.next (h : AiCh) (c : AiCfg) : Nat :=
  let p := aiPeriod c.rate
  Nat.max ((h.at_ / p + 1) * p) (ceilDiv h.notBefore p * p)

/-- The trim of a channel: T4 and T20 (R489). -/
def trimmed (raw : Real32) (t : Option TrimCfg) : Real32 :=
  match t with
  | none => raw
  | some t => fAdd (fOfInt 4) (fDiv (fMul (fSub raw t.t4) (fOfInt 16)) (fSub t.t20 t.t4))

/-- `clamp(x, 0, 24)` (R484, R489). -/
def clampMa (x : Real32) : Real32 := if fLt x 0 then 0 else if fLt (fOfInt 24) x then fOfInt 24 else x

/-- The stage command r of a commanded current i (R489). -/
def stageMa (i : Real32) (t : Option TrimCfg) : Real32 :=
  match t with
  | none => clampMa i
  | some t => clampMa (fAdd (fOfInt 4) (fDiv (fMul (fSub i t.t4) (fOfInt 16)) (fSub t.t20 t.t4)))

/-- The trim entry of a channel (R488), and whether an entry was ignored for its serial. -/
def selectTrim (l : List TrimCfg) (cls ch : Nat) (slotB : Bool) (serial : Nat) : Option TrimCfg × Bool :=
  let mine := l.filter fun t => t.cls == cls && t.ch == ch && (t.pos == 0 || t.pos == (if slotB then 2 else 1))
  let ok := mine.filter fun t => t.serial == 0 || t.serial == serial
  let stale := decide (ok.length < mine.length)
  match ok.find? (fun t => t.pos ≠ 0) with
  | some t => (some t, stale)
  | none => (ok.find? fun t => t.pos == 0, stale)

/-- The band of a conversion against the band of the one before, 0.02 mA of hysteresis toward the better band (R480). -/
def aiBand (use prev : Nat) (i : Real32) : Nat :=
  let at36 := maOf (if prev = 3 then 362 else 360) 100
  let at38 := maOf (if prev = 1 ∨ prev = 3 then 382 else 380) 100
  let at205 := maOf (if prev = 2 ∨ prev = 4 ∨ prev = 5 then 2048 else 2050) 100
  let at21 := maOf (if prev = 4 ∨ prev = 5 then 2098 else 2100) 100
  let at22 := maOf (if prev = 4 ∨ prev = 5 then 2198 else 2200) 100
  let at25 := maOf (if prev = 5 then 2498 else 2500) 100
  if fLt at25 i then 5
  else if use = 1 then
    if fLe i at36 then 3
    else if fLe at21 i then 4
    else if fLt i at38 then 1
    else if fLt at205 i then 2
    else 0
  else if use = 2 then (if fLt at22 i then 4 else 0)
  else 0

/-- The quality of a conversion (R480): 0 `GOOD`, 1 `BAD` `NOT_CONNECTED`, 2 `BAD` `DEVICE_FAILURE`,
3 `BAD` `SENSOR_FAILURE`, 4 `UNCERTAIN` `RANGE`; its `LIMIT`; its `BAND`. -/
def aiQuality (use prev : Nat) (i : Real32) (shedOrKeeper adcRef lsBad malf : Bool) : Nat × Nat × Nat :=
  if shedOrKeeper then (1, 0, 0)
  else if adcRef then (2, 0, 0)
  else if lsBad then (3, 0, 0)
  else if malf then (2, 0, 0)
  else match aiBand use prev i with
    | 5 => (3, 2, 5)
    | 3 => (3, 1, 3)
    | 4 => (3, 2, 4)
    | 1 => (4, 1, 1)
    | 2 => (4, 2, 2)
    | _ => (0, 0, 0)

/-- The loop keeper of a channel in use opens once the section has been supplied for 10 ms (R482). -/
def AiCh.keep (h : AiCh) (closed : Bool) : AiCh := { h with keeper := h.keeper && closed }
/-- The keeper stays closed: the section is shed, or supplied for less than 10 ms (R482). -/
def An.keepClosed (a : An) (mono : Nat) : Bool := a.shed || decide (mono < a.suppliedAt + phMs 10)
/-- A conversion completes (R479, R480, R489). -/
def AiCh.convert (h : AiCh) (c : AiCfg) (raw : Real32) (t : Option TrimCfg) (shed adcRef malf : Bool) (now : Nat)
    (ts : BitVec 96) : AiCh :=
  let i := trimmed raw t
  let q := aiQuality c.use h.band i (shed || h.keeper) adcRef (h.lsLimit || h.lsThermal) malf
  { h with raw := raw, mA := i, done := true, lsConv := true, at_ := now, ts := ts, qual := q.1, limit := q.2.1, band := q.2.2 }

/-- A current in µA, rounded. -/
def maToUa (i : Real32) : Nat := (fToIntNear (fMul i (fOfInt 1000))).toNat

/-- The transmitter supply after 1 ms (R481). -/
def AiCh.lsUpdate (h : AiCh) (c : AiCfg) (currentUa mono : Nat) : AiCh :=
  if !c.ls || !h.lsOn then { h with lsAt := mono }
  else
    let ua := if h.lsConv then maToUa h.mA else 24000
    let want := Nat.min 26000 (c.vtx * 100 + ua * (50 + c.rloop) / 1000 + 500)
    let mv := if want < h.lsMv then Nat.max want (h.lsMv - 1000) else want
    let lim := decide (30000 ≤ currentUa)
    { h with lsMv := mv, lsUa := Nat.min 30000 currentUa, lsLimit := lim, lsLimitSeen := h.lsLimitSeen || lim, lsAt := mono }

/-- The transmitter supply switches on (R481). -/
def AiCh.lsEnable (h : AiCh) : AiCh := { h with lsOn := true, lsThermal := false, lsConv := false }
/-- The transmitter supply switches off at its thermal limit (R481). -/
def AiCh.lsThermalTrip (h : AiCh) (mono : Nat) : AiCh :=
  { h with lsOn := false, lsThermal := true, lsLimit := false, lsMv := 0, lsUa := 0, lsOffAt := mono }

/-- A new commanded current (R484, R485): a NaN leaves the value unchanged; a change of r starts the mask. -/
def AoCh.command (h : AoCh) (i : Real32) (t : Option TrimCfg) (mono : Nat) : AoCh :=
  let h1 := { h with out := { h.out with refresh := some mono } }
  if fIsNaN i then h1
  else
    let same := decide (h.r = some (stageMa i t))
    { h1 with cmd := some (clampMa i), r := some (stageMa i t), maskTo := if same then h.maskTo else mono + phUs 500,
              testFrom := if same then h.testFrom else none }

/-- A change of the stage's state; an enable, or a safe value, starts the mask (R29, R485). -/
def AoCh.setStage (h : AoCh) (o : OutStage) (mono : Nat) : AoCh :=
  if o.st = h.out.st then { h with out := o }
  else { h with out := o, testFrom := none, maskTo := if o.st = .drive ∨ o.st = .kickstand then mono + phUs 500 else h.maskTo }

/-- The current that a stage drives; `none` where it is OFF (R484): a new trim tells at the next command (R488). -/
def AoCh.driven (h : AoCh) (c : AoCfg) (t : Option TrimCfg) (shed : Bool) : Option Real32 :=
  if c.use ≠ 1 ∨ shed then none
  else match h.out.st with
    | .drive => h.r
    | .hold => h.r
    | .off => none
    | .kickstand => if c.kick = 1 then some (stageMa c.kval t) else if c.kick = 2 then h.r else none

/-- A sample of the delivered current (R485). -/
def AoCh.sense (h : AoCh) (c : AoCfg) (t : Option TrimCfg) (shed : Bool) (mA : Real32) (mono : Nat) : AoCh :=
  let h1 := { h with rb := mA, sampleAt := mono }
  match h.driven c t shed with
  | none => { h1 with short := 0 }
  | some r =>
    let lim := let p := fDiv r (fOfInt 100); if fLt p (maOf 5 100) then maOf 5 100 else p
    let bad := fLt lim (fSub r mA) && decide (h.maskTo ≤ mono)
    let n := if bad then h.short + 1 else 0
    let set := h.compliance || decide (4 ≤ n)
    { h1 with short := n, lastShort := if bad then mono else h.lastShort, compliance := set, seen := h.seen || set,
              open_ := h.open_ || decide (4 ≤ n) && fLt mA (maOf 1 10) && fLe fOne r }

/-- The instant at which `COMPLIANCE` clears: 100 ms without shortfall, counted from the mask's end (R485). -/
def AoCh.clearDue (h : AoCh) : Nat := Nat.max h.lastShort h.maskTo + phMs 100

/-- The quality of RB: 0 `GOOD`, 1 `BAD` `NOT_CONNECTED`, 2 `BAD` `DEVICE_FAILURE`, 3 `BAD` `COMPLIANCE`,
4 `UNCERTAIN` `SUBSTITUTE` (R485). -/
def AoCh.rbQuality (h : AoCh) (shed : Bool) : Nat :=
  if shed then 1 else if h.thermal then 2 else if h.compliance then 3
  else match h.out.st with | .kickstand => 4 | .hold => 4 | _ => 0

/-! ### HART (R490 to R493) -/

/-- The identity of a device as heard: `MFR`, `EXPDT`, device identifier (R494). -/
def hartId (r : HartRsp) : Bytes := natLe 2 r.mfr.toNat ++ natLe 2 r.expDt.toNat ++ natLe 4 r.devId.toNat

/-- The identity differs from the entry (R491). -/
def hartDiffers (c : HartCfg) (r : HartRsp) : Bool :=
  r.mfr.toNat ≠ c.mfr || r.expDt.toNat ≠ c.expdt || r.devId.toNat ≠ c.devid

/-- The next transaction of a channel, in the order pass-through, scan, re-identification (R491). -/
def HartDev.nextTrans (d : HartDev) (pt : Bool) : Option HartTrans :=
  if pt && decide (d.st = 2) then some .pass
  else if d.scanDue && decide (d.st = 2) && !d.mismatch then some .scan
  else if d.identDue then some .ident
  else none

/-- An idle channel starts its next transaction, while ACT is set (R491, R492). -/
def HartDev.go (d : HartDev) (pt act : Bool) : HartDev :=
  if !act || d.trans.isSome then d
  else match d.nextTrans pt with
    | none => d
    | some t => { d with trans := some t, tries := 0, st := if t = .ident ∧ d.st ≠ 3 then 1 else d.st,
                         scanDue := d.scanDue && decide (t ≠ .scan), identDue := d.identDue && decide (t ≠ .ident) }

/-- The command of a transaction (R491, R493). -/
def hartCmd (c : HartCfg) (t : HartTrans) (pt : Option HartPt) : BitVec 8 × Bytes :=
  match t with
  | .ident => (0, [])
  | .scan => (BitVec.ofNat 8 c.scan, [])
  | .pass => match pt with | some p => (p.cmd, p.data) | none => (0, [])

/-- The address of a transaction (R491): `POLL` to identify, the identity heard from then on. -/
def hartAddr (c : HartCfg) (d : HartDev) (t : HartTrans) : HartAddr :=
  match t with
  | .ident => .short c.poll
  | _ => .long (leNat ((d.id.drop 2).take 2)) (leNat ((d.id.drop 4).take 3))

/-- A response heard on the line (R491, R492). -/
def HartDev.heard (d : HartDev) (c : HartCfg) (r : HartRsp) : HartDev :=
  let d1 := { d with devStat := r.devStat, rc := r.rc, dv := if r.cmd = 3 then r.dv else d.dv }
  if r.cmd = 0 then { d1 with id := hartId r, mismatch := c.checkId && hartDiffers c r, st := 2, reidentAt := none }
  else d1

/-- A transaction has failed (R491): a retry, or the third consecutive failure makes the device `LOST`. -/
def HartDev.failed (d : HartDev) (c : HartCfg) (mono : Nat) : HartDev :=
  if d.tries < c.retry then { d with tries := d.tries + 1 }
  else
    let n := Nat.min 255 (d.fails + 1)
    { d with trans := none, tries := 0, fails := n, st := if 3 ≤ n then 3 else d.st,
             identDue := d.identDue || decide (n < 3) && decide (d.trans = some .ident),
             reidentAt := if 3 ≤ n then some (mono + phS 10) else d.reidentAt }

/-- `HART_STAT` (R498). -/
def HartDev.stat (d : HartDev) (act : Bool) : Nat :=
  d.st + 4 * b2n d.mismatch + 8 * b2n d.burstSeen + 16 * b2n !act + 256 * d.devStat.toNat + 65536 * d.rc.toNat
  + 2 ^ 24 * d.fails

/-- A pass-through response (R493). -/
def ptResponse (p : HartPt) (pstat : Nat) (rc devStat : BitVec 8) (data : Bytes) : Bytes :=
  natLe 1 p.entry ++ [p.cmd, BitVec.ofNat 8 data.length, p.tag, BitVec.ofNat 8 pstat, rc, devStat, 0] ++ data

/-- `AI_STAT` (R496). -/
def AiCh.stat (h : AiCh) (malf : Bool) : Nat :=
  h.band + 8 * b2n h.keeper + 16 * b2n h.lsLimit + 32 * b2n h.lsThermal + 64 * b2n malf + 128 * b2n h.lsLimitSeen

/-- `AO_STAT` (R497). -/
def AoCh.stat (h : AoCh) (owned trimmed : Bool) : Nat :=
  (match h.out.st with | .off => 0 | .drive => 1 | .hold => 2 | .kickstand => 3)
  + 4 * b2n h.compliance + 8 * b2n h.open_ + 16 * b2n h.thermal + 32 * b2n owned + 64 * b2n h.seen + 128 * b2n trimmed

end Sys2Proof.Machine
end

