-- ==== Sys2Proof/Machine/TypesCan.lean ====
section
/-! DEFINITION. The state types of the CAN FD controllers (13_can_fd.md). -/

namespace Sys2Proof.Machine

/-- A field descriptor (R433). -/
structure CanField where
  sbit : Nat
  len : Nat
  sgn : Bool
  big : Bool
  deriving DecidableEq, Repr

/-- A receive entry (R432). -/
structure CanRxCfg where
  id : BitVec 29
  ide : Bool
  classic : Bool
  fd : Bool
  svc : Bool
  fastpkt : Bool
  rtmo : Nat
  fields : List CanField
  deriving DecidableEq, Repr

/-- A transmit entry (R432), `TXTMO` with its default. -/
structure CanTxCfg where
  id : BitVec 29
  ide : Bool
  fd : Bool
  brs : Bool
  persistent : Bool
  svc : Bool
  fastpkt : Bool
  dlen : Nat
  txtmo : Nat
  fields : List CanField
  deriving DecidableEq, Repr

/-- The service record (R447). -/
structure CanSvcCfg where
  name : BitVec 64 := 0
  paddr : Nat := 0
  amin : Nat := 0
  amax : Nat := 0
  deriving DecidableEq, Repr

/-- A controller record with its entries (R430). -/
structure CanCtrlCfg where
  cen : Bool := false
  fd : Bool := false
  nbr : Nat := 0
  dbr : Nat := 0
  nsp : Nat := 80
  dsp : Nat := 75
  autorec : Bool := false
  service : Bool := false
  boffDly : Nat := 0
  rx : List CanRxCfg := []
  tx : List CanTxCfg := []
  svc : CanSvcCfg := {}
  deriving DecidableEq, Repr

/-- The default candidates (R431). -/
def canDefaultCands : List (Nat × Nat) :=
  [(1000, 0), (800, 0), (500, 0), (250, 0), (125, 0), (100, 0), (50, 0), (20, 0), (10, 0), (500, 2000), (500, 4000), (1000, 5000)]

/-- The `CAN` section (R429). -/
structure CanCfg where
  cands : List (Nat × Nat) := canDefaultCands
  ctrls : List CanCtrlCfg := List.replicate 4 {}
  deriving DecidableEq, Repr

/-- A receive object (R435, R436, R452): `fresh` and `lost` as the next latch of its task will see them. -/
structure CanRx where
  data : Bytes := []
  fdf : Bool := false
  brs : Bool := false
  /-- The device time of the frame's start of frame (R435), and that of the store (R445). -/
  ts : BitVec 96 := 0
  storedAt : BitVec 96 := 0
  stored : Bool := false
  fresh : Bool := false
  lost : Bool := false
  lostSeen : Bool := false
  timeout : Bool := false
  due : Option Nat := none
  frames : Nat := 0
  deriving DecidableEq, Repr

/-- A transmit object (R437 to R439, R452). -/
structure CanTx where
  st : Nat := 0
  data : Bytes := []
  due : Option Nat := none
  /-- The new request behind, or the new data of, a frame that is on the bus (R439). -/
  behind : Option (Bytes × Option Nat) := none
  /-- Offered before any one-shot after bus-off (R442). -/
  ahead : Bool := false
  lastErr : Nat := 0
  sent : Nat := 0
  /-- Outcome not yet reported to the instance: 0 success, else the code of R440. -/
  outcome : Option Nat := none
  deriving DecidableEq, Repr

/-- A reassembly (R449): source, destination, PGN, length, packets so far, next packet number, time-out. -/
structure CanRxSess where
  fast : Bool
  src : Nat
  dst : Nat
  pgn : Nat
  total : Nat
  data : Bytes
  next : Nat
  due : Nat
  deriving DecidableEq, Repr

/-- A transmission of a long message (R449). `phase`: 0 BAM packets, 1 waiting for CTS, 2 waiting for the end of message. -/
structure CanTxSess where
  obj : Nat
  fast : Bool
  dst : Nat
  pgn : Nat
  prio : Nat
  data : Bytes
  next : Nat
  phase : Nat
  due : Nat
  deriving DecidableEq, Repr

/-- A frame of the service waiting for the bus; `last` names the object whose message it ends. -/
structure CanSvcTx where
  frame : CanFrame
  last : Option Nat := none
  deriving DecidableEq, Repr

/-- The counters of R450 in their order. -/
structure CanCnt where
  rxOk : BitVec 32 := 0
  txOk : BitVec 32 := 0
  rxUnmatched : BitVec 32 := 0
  rxFmt : BitVec 32 := 0
  rxRemote : BitVec 32 := 0
  rxLost : BitVec 32 := 0
  errFrames : BitVec 32 := 0
  arbLost : BitVec 32 := 0
  busOffs : BitVec 32 := 0
  txReplaced : BitVec 32 := 0
  svcAbort : BitVec 32 := 0
  deriving DecidableEq, Repr

/-- Controller states (R451). -/
inductive CanState where
  | off
  | detecting
  | listen
  | active
  | passive
  | busOff
  | recovering
  | linkTest
  deriving DecidableEq, Repr

/-- The code of a controller state (R451). -/
def CanState.code : CanState → Nat
  | .off => 0 | .detecting => 1 | .listen => 2 | .active => 3 | .passive => 4 | .busOff => 5 | .recovering => 6 | .linkTest => 7

/-- What a controller has on the bus. -/
inductive CanOnBus where
  | obj (n : Nat)
  | svc
  deriving DecidableEq, Repr

/-- A CAN controller. -/
structure Can where
  st : CanState := .off
  tec : Nat := 0
  rerr : Nat := 0
  autorecSusp : Bool := false
  xcvrFail : Bool := false
  rateLocked : Bool := false
  boffSeen : Bool := false
  epassSeen : Bool := false
  cand : Nat := 0
  good : Nat := 0
  /-- Operating times in ms of the last bus-offs (R443). -/
  boffs : List Nat := []
  boffDue : Option Nat := none
  /-- Arbitration was lost, and the frame of the winner has not ended. -/
  busBusy : Bool := false
  onBus : Option CanOnBus := none
  cnt : CanCnt := {}
  rx : List CanRx := []
  tx : List CanTx := []
  addr : Nat := 255
  claimAt : Option Nat := none
  claimed : Bool := false
  seen : List Nat := []
  svcQ : List CanSvcTx := []
  rxSess : List CanRxSess := []
  txSess : List CanTxSess := []
  fastSeq : Nat := 0
  deriving DecidableEq, Repr

end Sys2Proof.Machine
end

