-- ==== Sys2Proof/Machine/CanOps.lean ====
section
/-! DEFINITION. Named operations of the CAN FD controllers (13_can_fd.md). -/

namespace Sys2Proof.Machine

/-! ### Fields (R433) -/

/-- Bit `p` of a message: bit `p % 8` of byte `p / 8`. -/
def msgBit (b : Bytes) (p : Nat) : Bool := (b.getD (p / 8) 0).getLsbD (p % 8)

/-- The bit positions of a big-endian field, most significant first. -/
def bigPositions : Nat → Nat → List Nat
  | 0, _ => []
  | n + 1, p => p :: bigPositions n (if p % 8 = 0 then (p / 8 + 1) * 8 + 7 else p - 1)

/-- The bit positions of a field, least significant first. -/
def CanField.positions (f : CanField) : List Nat :=
  if f.big then (bigPositions f.len f.sbit).reverse else (List.range f.len).map (f.sbit + ·)

/-- The field lies within `n` bytes. -/
def CanField.within (f : CanField) (n : Nat) : Bool := f.positions.all fun p => decide (p < 8 * n)

/-- A field's value as INT32 (R433). -/
def CanField.get (f : CanField) (b : Bytes) : BitVec 32 :=
  let v := packBits (f.positions.map (msgBit b))
  if f.sgn then BitVec.ofInt 32 (signed f.len v) else BitVec.ofNat 32 v

/-- A message with bit `p` set to `v`. -/
def setMsgBit (b : Bytes) (p : Nat) (v : Bool) : Bytes :=
  upd b (p / 8) fun x => if v then x ||| BitVec.ofNat 8 (2 ^ (p % 8)) else x &&& ~~~ (BitVec.ofNat 8 (2 ^ (p % 8)))

/-- The low `LEN` bits of `v` packed into a message (R433). -/
def CanField.put (f : CanField) (b : Bytes) (v : BitVec 32) : Bytes :=
  (enumFrom 0 f.positions).foldl (fun b (i, p) => setMsgBit b p (v.getLsbD i)) b

/-- The data of a transmit request (R433). -/
def CanTxCfg.pack (c : CanTxCfg) (vals : List (BitVec 32)) : Bytes :=
  (enumFrom 0 c.fields).foldl (fun b (i, f) => f.put b (at_ vals i 0)) (List.replicate c.dlen 0)

/-! ### Identifiers -/

/-- The arbitration value: base identifier, then 11-bit before 29-bit, then the extension (R437). -/
def arbValue (id : BitVec 29) (ide : Bool) : Nat :=
  if ide then id.toNat / 2 ^ 18 * 2 ^ 20 + 2 ^ 19 + id.toNat % 2 ^ 18 else id.toNat % 2 ^ 11 * 2 ^ 20

/-- PGN of a 29-bit identifier (R449). -/
def pgnOf (id : BitVec 29) : Nat := id.toNat / 256 % 2 ^ 18
/-- Source address of a 29-bit identifier. -/
def srcOf (id : BitVec 29) : Nat := id.toNat % 256
/-- PDU format of a PGN: below 240 the low byte is a destination. -/
def pduFormat (pgn : Nat) : Nat := pgn / 256 % 256
/-- The destination of a PGN: global, or its low byte. -/
def dstOf (pgn : Nat) : Nat := if pduFormat pgn < 240 then pgn % 256 else 255
/-- The PGN without its destination. -/
def pgnBase (pgn : Nat) : Nat := if pduFormat pgn < 240 then pgn / 256 * 256 else pgn

/-- A service frame: priority, PGN with destination, source, data. -/
def svcFrame (prio pgn src : Nat) (data : Bytes) : CanFrame :=
  { id := BitVec.ofNat 29 (prio * 2 ^ 26 + pgn * 256 + src), ide := true, fd := false, brs := false, remote := false,
    data := data }

/-- The identifier that an object sends with: service objects carry the claimed address (R449). -/
def Can.sendId (c : Can) (t : CanTxCfg) : BitVec 29 :=
  if t.svc then BitVec.ofNat 29 (t.id.toNat / 256 * 256 + c.addr % 256) else t.id

/-! ### Offering -/

/-- The controller takes part in bus traffic. -/
def Can.normal (c : Can) : Bool := decide (c.st = .active) || decide (c.st = .passive)

/-- A service object without a claimed address cannot be sent (R448). -/
def Can.addrOk (c : Can) (t : CanTxCfg) : Bool := !t.svc || c.claimed && decide (c.addr < 254)

/-- An object whose message goes as a transport session (R449). -/
def CanTxCfg.long (t : CanTxCfg) : Bool := t.svc && decide (8 < t.dlen)

/-- The pending candidates of the next arbitration: (class, arbitration value, order, what). Persistent requests kept over
bus-off come first (R437, R442). -/
def Can.candidates (c : Can) (cfg : CanCtrlCfg) : List (Nat × Nat × Nat × CanOnBus) :=
  let objs := (enumFrom 0 c.tx).filterMap fun (n, o) =>
    match cfg.tx[n]? with
    | some t => if o.st = 1 ∧ !t.long ∧ c.addrOk t then
        some ((if o.ahead then 0 else 1), arbValue (c.sendId t) t.ide, n, CanOnBus.obj n) else none
    | none => none
  let anyAhead := objs.any fun x => x.1 == 0
  let objs := if anyAhead then objs.filter fun x => x.1 == 0 else objs
  match c.svcQ with
  | [] => objs
  | s :: _ => objs ++ [(1, arbValue s.frame.id s.frame.ide, 1000, CanOnBus.svc)]

/-- The first of two candidates: lower class, lower arbitration value, lower object (R437). -/
def candLt (a b : Nat × Nat × Nat × CanOnBus) : Bool :=
  a.1 < b.1 || a.1 == b.1 && (a.2.1 < b.2.1 || a.2.1 == b.2.1 && a.2.2.1 < b.2.2.1)

/-- The candidate that the controller offers. -/
def bestCanCand : List (Nat × Nat × Nat × CanOnBus) → Option CanOnBus
  | [] => none
  | x :: t => some (t.foldl (fun b y => if candLt y b then y else b) x).2.2.2

/-- The next arbitration: with the bus free, the best pending frame goes onto it (R437, R438). -/
def Can.offer (c : Can) (cfg : CanCtrlCfg) : Can :=
  if !c.normal || c.busBusy || c.onBus.isSome then c
  else match bestCanCand (c.candidates cfg) with
    | none => c
    | some (.obj n) => { c with onBus := some (.obj n), tx := upd c.tx n fun o => { o with st := 2 } }
    | some .svc => { c with onBus := some .svc }

/-- An object's request ends with an outcome (R437, R440). -/
def CanTx.finish (o : CanTx) (code : Nat) : CanTx :=
  { o with st := 0, due := none, ahead := false, lastErr := code, outcome := some code,
           sent := if code = 0 then Nat.min 65535 (o.sent + 1) else o.sent }

/-- What stands behind a frame that has left the bus (R439). -/
def CanTx.promote (o : CanTx) : CanTx :=
  match o.behind with
  | some (d, due) => { o with st := 1, data := d, due := due, behind := none }
  | none => o

/-- A request enters an object's queue (R437 to R440, R442). -/
def Can.request (c : Can) (cfg : CanCtrlCfg) (n : Nat) (data : Bytes) (act linkTest : Bool) (mono : Nat) : Can :=
  match cfg.tx[n]? with
  | none => c
  | some t =>
    let set (f : CanTx → CanTx) : Can := { c with tx := upd c.tx n f }
    let pend (o : CanTx) : CanTx :=
      { o with st := 1, data := data, due := if t.persistent then none else some (mono + phMs t.txtmo), behind := none, outcome := none }
    let report (o : CanTx) (code : Nat) : CanTx := { o with lastErr := code, outcome := some code }
    /- Codes 10 and 12 leave a persistent request pending; one that was pending already has its data replaced (R439, R440). -/
    let unmet (code : Nat) : Can :=
      if t.persistent then
        { c with tx := upd c.tx n fun o => report (pend o) code,
                 cnt := { c.cnt with txReplaced := c.cnt.txReplaced + (if (at_ c.tx n {}).st = 0 then 0 else 1) } }
      else set fun o => report o code
    if !act then set fun o => report o 9
    else if !cfg.cen || c.st = .off || c.st = .linkTest || linkTest then set fun o => report o 11
    else if !c.rateLocked then unmet 10
    else if !c.addrOk t then unmet 12
    else if (c.st = .busOff ∨ c.st = .recovering) ∧ !t.persistent then set fun o => report o 6
    else
      let o := at_ c.tx n {}
      if o.st = 0 then set pend
      else if t.persistent then
        let c1 := { c with cnt := { c.cnt with txReplaced := c.cnt.txReplaced + 1 } }
        if o.st = 2 then { c1 with tx := upd c.tx n fun o => { o with behind := some (data, none) } }
        else { c1 with tx := upd c.tx n fun o => { o with data := data } }
      else if o.st = 2 then set fun o => { o with behind := some (data, some (mono + phMs t.txtmo)) }
      else set fun o => { pend o with lastErr := 7, outcome := some 7 }

/-- A frame for an object's data. -/
def Can.frameOf (c : Can) (t : CanTxCfg) (data : Bytes) : CanFrame :=
  { id := c.sendId t, ide := t.ide, fd := t.fd, brs := t.brs, remote := false, data := data }

/-- A queued frame has been sent (R437, R441): counters, the outcome, what stands behind; the frame sent. -/
def Can.txSuccess (c : Can) (cfg : CanCtrlCfg) : Can × Option CanFrame :=
  let c1 := { c with tec := c.tec - 1, cnt := { c.cnt with txOk := c.cnt.txOk + 1 }, onBus := none,
                     st := if c.normal then (if c.tec - 1 ≤ 127 ∧ c.rerr ≤ 127 then .active else c.st) else c.st }
  match c.onBus with
  | none => (c, none)
  | some .svc => match c.svcQ with
    | [] => ({ c with onBus := none }.offer cfg, none)
    | s :: t =>
      let c2 := { c1 with svcQ := t }
      let c3 := match s.last with
        | some n => { c2 with tx := upd c2.tx n fun o => o.finish 0 }
        | none => c2
      (c3.offer cfg, some s.frame)
  | some (.obj n) => match cfg.tx[n]? with
    | none => ({ c with onBus := none }, none)
    | some t =>
      let o := at_ c.tx n {}
      (({ c1 with tx := upd c1.tx n fun o => (o.finish 0).promote }).offer cfg, some (c.frameOf t o.data))

/-- A request that is off the bus again (R438): a one-shot whose validity has run out fails with `TIMEOUT`, and what queued behind it is
pending; any other is offered again. -/
def CanTx.validity (o : CanTx) (mono : Nat) : CanTx :=
  match o.due with
  | some d => if d ≤ mono then (o.finish 5).promote else { o with st := 1 }
  | none => { o with st := 1 }

/-- A transmission loses arbitration (R438, R439). -/
def Can.arbLost (c : Can) (cfg : CanCtrlCfg) (mono : Nat) : Can :=
  match c.onBus with
  | none => c
  | some w =>
    let c1 := { c with onBus := none, busBusy := true, cnt := { c.cnt with arbLost := c.cnt.arbLost + 1 } }
    match w with
    | .svc => c1
    | .obj n =>
      let persistent := match cfg.tx[n]? with | some t => t.persistent | none => false
      { c1 with tx := upd c1.tx n fun o =>
          match o.behind, persistent with
          | some b, true => { o with st := 1, data := b.1, behind := none }
          | _, _ => o.validity mono }

/-- Entry to bus-off (R442, R443): pending one-shots fail, persistent requests stay. -/
def Can.busOff (c : Can) (cfg : CanCtrlCfg) (mono optime : Nat) : Can :=
  let recent := optime :: c.boffs.filter fun t => decide (optime < t + 60000)
  let susp := c.autorecSusp || cfg.autorec && decide (3 ≤ recent.length)
  { c with
    st := .busOff, boffSeen := true, onBus := none, busBusy := false, boffs := recent, autorecSusp := susp,
    boffDue := if cfg.autorec && !susp then some (mono + phMs cfg.boffDly) else none,
    cnt := { c.cnt with busOffs := c.cnt.busOffs + 1 }, svcQ := c.svcQ.filter fun q => pduFormat (pgnOf q.frame.id) == 0xEE, txSess := [],
    tx := (enumFrom 0 c.tx).map fun ((n, o) : Nat × CanTx) =>
      let persistent := match cfg.tx[n]? with | some t => t.persistent | none => false
      if o.st = 0 then o
      else if persistent then { o with st := 1, data := (o.behind.map (·.1)).getD o.data, behind := none }
      else { (o.finish 6) with behind := none } }

/-- The error code of a cause (R440). -/
def canErrCode : CanErr → Nat
  | .bit => 1 | .stuff => 2 | .form => 3 | .ack => 4

/-- The next candidate of rate detection (R444). -/
def Can.nextCand (c : Can) (cands : List (Nat × Nat)) : Can :=
  { c with cand := if cands.length ≤ c.cand + 1 then 0 else c.cand + 1, good := 0 }

/-- A bus error (R441, R444): error counters and state of ISO 11898-1, the end of a one-shot. -/
def Can.busError (c : Can) (cfg : CanCtrlCfg) (cands : List (Nat × Nat)) (err : CanErr) (tx : Bool) (mono optime : Nat) : Can :=
  match c.st with
  | .detecting => c.nextCand cands
  | .listen => { c with cnt := { c.cnt with errFrames := c.cnt.errFrames + 1 } }
  | .active | .passive =>
    let passiveAck := decide (c.st = .passive) && decide (err = .ack)
    let tec := if tx && c.onBus.isSome then (if passiveAck then c.tec else c.tec + 8) else c.tec
    let rerr := if tx && c.onBus.isSome then c.rerr else Nat.min 255 (c.rerr + 1)
    let c1 := { c with tec := tec, rerr := rerr, busBusy := false, cnt := { c.cnt with errFrames := c.cnt.errFrames + 1 } }
    let c2 := if tx then
        match c.onBus with
        | some (.obj n) =>
          let persistent := match cfg.tx[n]? with | some t => t.persistent | none => false
          { c1 with onBus := none, tx := upd c1.tx n fun o =>
              if persistent then { o with st := 1, data := (o.behind.map (·.1)).getD o.data, behind := none }
              else (o.finish (canErrCode err)).promote }
        | some .svc => { c1 with onBus := none }
        | none => c1
      else c1
    if 255 < tec then c2.busOff cfg mono optime
    else
      let passive := decide (127 < tec) || decide (127 < rerr)
      ({ c2 with st := if passive then .passive else .active,
                 epassSeen := c2.epassSeen || passive && decide (c.st = CanState.active) }).offer cfg
  | _ => c

/-- The receive error counter after a frame received (ISO 11898-1): above 127 it takes a value of 119 to 127. -/
def recAfterRx (r free : Nat) : Nat := if 127 < r then 119 + free % 9 else r - 1

/-- A frame stored in receive object `n` (R435, R436). -/
def Can.store (c : Can) (cfg : CanCtrlCfg) (n : Nat) (data : Bytes) (fdf brs : Bool) (ts : BitVec 96) (mono : Nat) : Can :=
  let o := at_ c.rx n {}
  let rtmo := (cfg.rx[n]?.map (·.rtmo)).getD 0
  { c with
    cnt := { c.cnt with rxOk := c.cnt.rxOk + 1, rxLost := c.cnt.rxLost + (if o.fresh then 1 else 0) },
    rx := upd c.rx n fun o =>
      { o with data := data, fdf := fdf, brs := brs, ts := ts, storedAt := ts, stored := true, fresh := true,
               lost := o.lost || o.fresh, lostSeen := o.lostSeen || o.fresh, timeout := false,
               due := if rtmo = 0 then none else some (mono + phMs rtmo), frames := Nat.min 65535 (o.frames + 1) } }

/-- The receive object of a frame, by `ID` and `IDE` (R435). -/
def canMatch (cfg : CanCtrlCfg) (f : CanFrame) : Option Nat :=
  indexOf? (fun (r : CanRxCfg) => !r.svc && r.ide == f.ide && r.id == f.id) cfg.rx

/-- The receive object of a service message: PGN, and source where the entry names one (R449). -/
def svcMatch (cfg : CanCtrlCfg) (pgn src : Nat) (fast : Bool) : Option Nat :=
  indexOf? (fun (r : CanRxCfg) => r.svc && (!fast || r.fastpkt) && pgnBase (pgnOf r.id) == pgnBase pgn
    && (srcOf r.id == 255 || srcOf r.id == src)) cfg.rx

/-! ### Address claim (R448) -/

/-- The frame Address Claimed from `src`, or Cannot Claim from 254. -/
def claimFrame (name : BitVec 64) (src : Nat) : CanFrame := svcFrame 6 0xEEFF src (natLe 8 name.toNat)

/-- A service frame queued. -/
def Can.svcSend (c : Can) (f : CanFrame) : Can := { c with svcQ := c.svcQ ++ [{ frame := f }] }

/-- The service claims an address. -/
def Can.claim (c : Can) (cfg : CanCtrlCfg) (addr mono : Nat) : Can :=
  { c with addr := addr, claimed := false, claimAt := some (mono + phMs 250) }.svcSend (claimFrame cfg.svc.name addr)

/-- The next address of `AMIN` to `AMAX` not seen in use: the lowest (log entry 150). -/
def nextAddr (svc : CanSvcCfg) (seen : List Nat) : Option Nat :=
  ((List.range (svc.amax + 1 - svc.amin)).map (svc.amin + ·)).find? fun a => !seen.contains a

/-- Pending requests that a condition of R440 stops: a one-shot ends with the code, a persistent one reports it and stays pending. -/
def Can.hold (c : Can) (cfg : CanCtrlCfg) (code : Nat) (which : CanTxCfg → Bool) : Can :=
  { c with tx := (enumFrom 0 c.tx).map fun ((n, o) : Nat × CanTx) =>
      match cfg.tx[n]? with
      | some t => if o.st = 0 || !which t then o
                  else if t.persistent then { o with st := 1, data := (o.behind.map (·.1)).getD o.data, behind := none, lastErr := code, outcome := some code }
                  else { (o.finish code) with behind := none }
      | none => o }

/-- An address is lost: the next free one, or Cannot Claim. Until one is held again the service's requests end with `NO_ADDRESS`, and its
sessions with them (R440, R448). -/
def Can.loseAddr (c : Can) (cfg : CanCtrlCfg) (mono : Nat) : Can :=
  let arb := cfg.svc.name.getLsbD 63
  let c := ({ c with svcQ := [], txSess := [], onBus := if c.onBus = some .svc then none else c.onBus } : Can).hold cfg 12 (·.svc)
  match (if arb then nextAddr cfg.svc (c.addr :: c.seen) else none) with
  | some a => c.claim cfg a mono
  | none => { c with addr := 254, claimed := false, claimAt := none }.svcSend (claimFrame cfg.svc.name 254)

/-- An Address Claimed frame received (R448). -/
def Can.heardClaim (c : Can) (cfg : CanCtrlCfg) (src : Nat) (name : Nat) (act : Bool) (mono : Nat) : Can :=
  if name = cfg.svc.name.toNat then (if act then c else { c with addr := src, claimed := decide (src < 254) })
  else
    let c1 := { c with seen := if c.seen.contains src then c.seen else src :: c.seen }
    if act && c.addr == src && decide (src < 254) then
      if cfg.svc.name.toNat < name then c1.svcSend (claimFrame cfg.svc.name c1.addr) else c1.loseAddr cfg mono
    else c1

/-! ### Transport (R449) -/

/-- The 7-byte packets of a message, padded with 0xFF. -/
def tpPacket (d : Bytes) (seq : Nat) : Bytes := natLe 1 seq ++ (slice d ((seq - 1) * 7) 7 ++ List.replicate 7 0xFF).take 7

/-- The frames of a fast packet (NMEA 2000). -/
def fastFrames (d : Bytes) (seq : Nat) : List Bytes :=
  let first := [BitVec.ofNat 8 (seq % 8 * 32), BitVec.ofNat 8 d.length] ++ (d.take 6 ++ List.replicate 6 0xFF).take 6
  first :: (List.range (ceilDiv (d.length - 6) 7)).map fun i =>
    BitVec.ofNat 8 (seq % 8 * 32 + (i + 1)) :: (slice d (6 + 7 * i) 7 ++ List.replicate 7 0xFF).take 7

/-- A session refused or ended without delivery (R449). -/
def Can.abort (c : Can) : Can := { c with cnt := { c.cnt with svcAbort := c.cnt.svcAbort + 1 } }

/-- Packets in a message. -/
def tpCount (n : Nat) : Nat := ceilDiv n 7

/-- The transmit sessions in progress: transports, and messages whose last frame has still to leave (R449). -/
def Can.sending (c : Can) : Nat := c.txSess.length + (c.svcQ.filter fun q => q.last.isSome).length
/-- A long message starts (R449): fast packet, BAM or RTS; at most 4 sessions. -/
def Can.startLong (c : Can) (n : Nat) (t : CanTxCfg) (data : Bytes) (mono : Nat) : Can :=
  let pgn := pgnOf t.id
  let prio := t.id.toNat / 2 ^ 26 % 8
  let dst := dstOf pgn
  if 4 ≤ c.sending then { c with tx := upd c.tx n fun o => o.finish 5 }.abort
  else if t.fastpkt then
    let fs := fastFrames data c.fastSeq
    { c with fastSeq := (c.fastSeq + 1) % 8,
             tx := upd c.tx n fun o => { o with st := 2 },
             svcQ := c.svcQ ++ (enumFrom 1 fs).map fun (i, d) =>
               { frame := svcFrame prio pgn c.addr d, last := if i = fs.length then some n else none } }
  else
    let np := tpCount data.length
    let cm (ctl rest : Nat) : Bytes := natLe 1 ctl ++ natLe 2 data.length ++ natLe 1 np ++ natLe 1 rest ++ natLe 3 (pgnBase pgn)
    let bam := dst == 255
    { c with tx := upd c.tx n fun o => { o with st := 2 },
             txSess := c.txSess ++ [CanTxSess.mk n false dst (pgnBase pgn) prio data 1 (if bam then 0 else 1)
               (if bam then mono + phMs 50 else mono + phMs 1250)] }.svcSend
        (svcFrame 7 (0xEC00 + dst) c.addr (cm (if bam then 32 else 16) 255))

/-- Pending long messages of service objects start their sessions. -/
def Can.startLongs (c : Can) (cfg : CanCtrlCfg) (mono : Nat) : Can :=
  if !c.normal then c
  else (enumFrom 0 cfg.tx).foldl (fun c (n, t) =>
    let o := at_ c.tx n {}
    if t.long && decide (o.st = 1) && c.addrOk t then c.startLong n t o.data mono else c) c

/-- A transport packet of transmit session `k` is due (R449): BAM packets follow each other by 50 ms. -/
def Can.packetTimer (c : Can) (k mono : Nat) : Can :=
  match c.txSess[k]? with
  | none => c
  | some s =>
    if s.phase ≠ 0 then c
    else
      let last := s.next == tpCount s.data.length
      let f := svcFrame 7 (0xEB00 + s.dst) c.addr (tpPacket s.data s.next)
      { c with svcQ := c.svcQ ++ [{ frame := f, last := if last then some s.obj else none }],
               txSess := if last then c.txSess.eraseIdx k
                         else upd c.txSess k fun s => { s with next := s.next + 1, due := mono + phMs 50 } }

/-- A session times out (R449): it delivers nothing; a transmit request ends with `TIMEOUT`. -/
def Can.sessTimeout (c : Can) (rx : Bool) (k : Nat) : Can :=
  if rx then (if k < c.rxSess.length then { c with rxSess := c.rxSess.eraseIdx k }.abort else c)
  else match c.txSess[k]? with
    | some s => { c with txSess := c.txSess.eraseIdx k, tx := upd c.tx s.obj fun o => o.finish 5 }.abort
    | none => c

/-- A transport connection message received (R449). -/
def Can.tpControl (c : Can) (src dst : Nat) (d : Bytes) (act : Bool) (mono : Nat) : Can :=
  let ctl := field d 0 1
  let pgn := field d 5 3
  if ctl = 32 ∧ dst = 255 ∨ ctl = 16 ∧ dst = c.addr then
    let keep := c.rxSess.filter fun s => !(s.src == src && s.dst == dst && !s.fast)
    if 8 ≤ keep.length then { c with rxSess := keep }.abort
    else
      let s : CanRxSess := { fast := false, src := src, dst := dst, pgn := pgn, total := field d 1 2, data := [],
                             next := 1, due := mono + phMs (if ctl = 16 then 1250 else 750) }
      let c1 := { c with rxSess := keep ++ [s] }
      if ctl = 16 && act then
        c1.svcSend (svcFrame 7 (0xEC00 + src) c.addr (natLe 1 17 ++ natLe 1 (field d 3 1) ++ natLe 1 1 ++ [0xFF, 0xFF] ++ natLe 3 pgn))
      else c1
  else if ctl = 17 ∧ dst = c.addr then
    let n := field d 1 1
    let from_ := field d 2 1
    match indexOf? (fun (s : CanTxSess) => s.dst == src && s.pgn == pgn && decide (s.phase ≠ 0)) c.txSess with
    | none => c
    | some k => match c.txSess[k]? with
      | none => c
      | some s =>
        let cnt := Nat.min n (tpCount s.data.length + 1 - from_)
        { c with svcQ := c.svcQ ++ (List.range cnt).map fun i =>
                   { frame := svcFrame 7 (0xEB00 + src) c.addr (tpPacket s.data (from_ + i)) },
                 txSess := upd c.txSess k fun s =>
                   { s with next := from_ + cnt, phase := if tpCount s.data.length < from_ + cnt then 2 else 1,
                            due := mono + phMs (if n = 0 then 1050 else 1250) } }
  else if ctl = 19 ∧ dst = c.addr then
    match indexOf? (fun (s : CanTxSess) => s.dst == src && s.pgn == pgn) c.txSess with
    | none => c
    | some k => match c.txSess[k]? with
      | none => c
      | some s => { c with txSess := c.txSess.eraseIdx k, tx := upd c.tx s.obj fun o => o.finish 0 }
  else if ctl = 255 then
    let c1 := match indexOf? (fun (s : CanTxSess) => s.dst == src && s.pgn == pgn) c.txSess with
      | some k => c.sessTimeout false k
      | none => c
    match indexOf? (fun (s : CanRxSess) => s.src == src && s.pgn == pgn && !s.fast) c1.rxSess with
    | some k => c1.sessTimeout true k
    | none => c1
  else c

/-- A reassembled message is stored in its object (R449). -/
def Can.deliver (c : Can) (cfg : CanCtrlCfg) (pgn src : Nat) (fast : Bool) (d : Bytes) (ts : BitVec 96) (mono : Nat) :
    Can × Option Nat :=
  match svcMatch cfg pgn src fast with
  | some n => (c.store cfg n d false false ts mono, some n)
  | none => ({ c with cnt := { c.cnt with rxUnmatched := c.cnt.rxUnmatched + 1 } }, none)

/-- A transport data packet received: the object stored with the last packet (R449). -/
def Can.tpData (c : Can) (cfg : CanCtrlCfg) (src dst : Nat) (d : Bytes) (act : Bool) (ts : BitVec 96) (mono : Nat) :
    Can × Option Nat :=
  match indexOf? (fun (s : CanRxSess) => s.src == src && s.dst == dst && !s.fast) c.rxSess with
  | none => (c, none)
  | some k => match c.rxSess[k]? with
    | none => (c, none)
    | some s =>
      if field d 0 1 ≠ s.next then (c.sessTimeout true k, none)
      else
        let data := s.data ++ slice d 1 7
        if tpCount s.total ≤ s.next then
          let c1 := { c with rxSess := c.rxSess.eraseIdx k }
          let c2 := if dst ≠ 255 ∧ act then
              c1.svcSend (svcFrame 7 (0xEC00 + src) c.addr
                (natLe 1 19 ++ natLe 2 s.total ++ natLe 1 (tpCount s.total) ++ [0xFF] ++ natLe 3 s.pgn))
            else c1
          c2.deliver cfg s.pgn src false (data.take s.total) ts mono
        else ({ c with rxSess := upd c.rxSess k fun s =>
                  { s with data := data, next := s.next + 1, due := mono + phMs 750 } }, none)

/-- A fast-packet frame received (R449). -/
def Can.fastData (c : Can) (cfg : CanCtrlCfg) (pgn src : Nat) (d : Bytes) (ts : BitVec 96) (mono : Nat) : Can × Option Nat :=
  let idx := field d 0 1 % 32
  if idx = 0 then
    let keep := c.rxSess.filter fun s => !(s.src == src && s.pgn == pgn && s.fast)
    let total := field d 1 1
    if total ≤ 6 then { c with rxSess := keep }.deliver cfg pgn src true (slice d 2 total) ts mono
    else if 8 ≤ keep.length then ({ c with rxSess := keep }.abort, none)
    else ({ c with rxSess := keep ++ [CanRxSess.mk true src 255 pgn total (slice d 2 6) 1 (mono + phMs 750)] }, none)
  else match indexOf? (fun (s : CanRxSess) => s.src == src && s.pgn == pgn && s.fast) c.rxSess with
    | none => (c, none)
    | some k => match c.rxSess[k]? with
      | none => (c, none)
      | some s =>
        if idx ≠ s.next then (c.sessTimeout true k, none)
        else
          let data := s.data ++ slice d 1 7
          if s.total ≤ data.length then
            { c with rxSess := c.rxSess.eraseIdx k }.deliver cfg pgn src true (data.take s.total) ts mono
          else ({ c with rxSess := upd c.rxSess k fun s =>
                    { s with data := data, next := s.next + 1, due := mono + phMs 750 } }, none)

/-- The object accepts the format of a frame (R432, R435). -/
def CanRxCfg.takes (r : CanRxCfg) (f : CanFrame) : Bool := if f.fd then r.fd else r.classic
/-- A data frame received on a controller with the service (R448, R449); `none`: no service frame, or one for another node's address
(PRESUMED, log entry 126). -/
def Can.svcRx (c : Can) (cfg : CanCtrlCfg) (f : CanFrame) (act : Bool) (ts : BitVec 96) (mono : Nat) :
    Option (Can × Option Nat) :=
  if !cfg.service || !f.ide then none
  else
    let pgn := pgnOf f.id
    let src := srcOf f.id
    let pf := pduFormat pgn
    if pf = 0xEE then some (c.heardClaim cfg src (leNat (f.data.take 8)) act mono, none)
    else if pf = 0xEA ∧ field f.data 0 3 = 0xEE00 then
      some (if act && (pgn % 256 == 255 || pgn % 256 == c.addr) && decide (c.addr ≤ 254)
            then c.svcSend (claimFrame cfg.svc.name c.addr) else c, none)
    else if pf = 0xEC then some (c.tpControl src (pgn % 256) f.data act mono, none)
    else if pf = 0xEB then some (c.tpData cfg src (pgn % 256) f.data act ts mono)
    else match svcMatch cfg pgn src false with
      | none => none
      | some n => match cfg.rx[n]? with
        | none => none
        | some r => if r.fastpkt then some (c.fastData cfg pgn src f.data ts mono)
                    else if dstOf pgn ≠ 255 ∧ dstOf pgn ≠ c.addr then none
                    else if !r.takes f then some ({ c with cnt := { c.cnt with rxFmt := c.cnt.rxFmt + 1 } }, none)
                    else some (c.store cfg n f.data f.fd f.brs ts mono, some n)

/-- A received frame (R427, R435, R441, R444): the controller, and the object stored. -/
def Can.receive (c : Can) (cfg : CanCtrlCfg) (cands : List (Nat × Nat)) (f : CanFrame) (act : Bool) (ts : BitVec 96)
    (mono free : Nat) : Can × Option Nat :=
  match c.st with
  | .detecting =>
    if f.fd && (at_ cands c.cand (0, 0)).2 == 0 then (c.nextCand cands, none)
    else if 2 ≤ c.good then
      ({ c with good := 0, rateLocked := true, st := .listen }, none)
    else ({ c with good := c.good + 1 }, none)
  | .listen | .active | .passive =>
    let c0 := { c with busBusy := false, rerr := if c.normal then recAfterRx c.rerr free else 0 }
    let c1 := { c0 with st := if c0.normal then (if c0.tec ≤ 127 ∧ c0.rerr ≤ 127 then .active else c0.st) else c0.st }
    let r : Can × Option Nat :=
      if f.remote then ({ c1 with cnt := { c1.cnt with rxRemote := c1.cnt.rxRemote + 1 } }, none)
      else match c1.svcRx cfg f act ts mono with
        | some r => r
        | none => match canMatch cfg f with
          | none => ({ c1 with cnt := { c1.cnt with rxUnmatched := c1.cnt.rxUnmatched + 1 } }, none)
          | some n =>
            let r := cfg.rx[n]?
            let ok := match r with | some r => r.takes f | none => false
            if ok then (c1.store cfg n f.data f.fd f.brs ts mono, some n)
            else ({ c1 with cnt := { c1.cnt with rxFmt := c1.cnt.rxFmt + 1 } }, none)
    ((r.1.startLongs cfg mono).offer cfg, r.2)
  | _ => (c, none)

/-- One-shot validity has run out (R438). -/
def Can.txTimeout (c : Can) (n mono : Nat) : Can :=
  { c with tx := upd c.tx n fun o => if o.st = 1 then o.validity mono else o }

/-- Recovery is complete (R442, R443): error-active, counters 0, persistent requests first. -/
def Can.recovered (c : Can) (cfg : CanCtrlCfg) (mono : Nat) : Can :=
  if c.st ≠ .recovering then c
  else
    let c1 := { c with st := .active, tec := 0, rerr := 0, boffDue := none,
                       tx := (enumFrom 0 c.tx).map fun ((n, o) : Nat × CanTx) =>
                         let persistent := match cfg.tx[n]? with | some t => t.persistent | none => false
                         { o with ahead := persistent && decide (o.st = 1) } }
    (c1.startLongs cfg mono).offer cfg

/-- The controller enters normal operation after ACT has latched (R445, R448). -/
def Can.integrate (c : Can) (cfg : CanCtrlCfg) (mono : Nat) : Can :=
  if c.st ≠ .listen || !c.rateLocked then c
  else
    let c1 := { c with st := .active, tec := 0, rerr := 0, busBusy := false }
    let c2 := if cfg.service then
        (if c1.claimed then c1.svcSend (claimFrame cfg.svc.name c1.addr) else c1.claim cfg cfg.svc.paddr mono) else c1
    (c2.startLongs cfg mono).offer cfg

/-- The controller without ACT listens only (R28, R445): counters 0, nothing on the bus. -/
def Can.listenOnly (c : Can) : Can :=
  match c.st with
  | .off | .linkTest => { c with tec := 0, rerr := 0, onBus := none }
  | _ => { c with st := if c.rateLocked then .listen else .detecting, tec := 0, rerr := 0, onBus := none, busBusy := false,
                  boffDue := none, claimAt := none, svcQ := [], txSess := [],
                  tx := c.tx.map fun o => { o with st := 0, due := none, behind := none, ahead := false } }

/-- The controller is taken from its bus for a link test (R420, R422, R451). -/
def Can.toTest (c : Can) : Can := { c with st := .linkTest, tec := 0, rerr := 0, onBus := none, busBusy := false, boffDue := none, svcQ := [] }
/-- The controller returns to service: it listens, or looks for its rate, until the bus is integrated again (R422, R444, R445). -/
def Can.fromTest (c : Can) (cfg : CanCtrlCfg) : Can :=
  { c with st := if !cfg.cen then .off else if c.rateLocked then .listen else .detecting }

/-- The controller as start-up leaves it (R428, R434, R444). -/
def Can.boot (cfg : CanCtrlCfg) (xcvrFail : Bool) : Can :=
  if !cfg.cen then { ({} : Can) with xcvrFail := xcvrFail }
  else { ({} : Can) with
    st := if cfg.nbr = 0 then .detecting else .listen, rateLocked := decide (cfg.nbr ≠ 0), xcvrFail := xcvrFail,
    rx := cfg.rx.map fun _ => {}, tx := cfg.tx.map fun _ => {} }

/-- The fault-reset command names a controller (R443, R444). -/
def Can.faultReset (c : Can) (cfg : CanCtrlCfg) : Can :=
  let c1 := { c with autorecSusp := false, boffs := [] }
  let c2 := if c1.st = .busOff then { c1 with st := .recovering, boffDue := none } else c1
  if cfg.nbr = 0 ∧ cfg.cen then
    ({ c2 with st := if c2.st = .linkTest then .linkTest else .detecting, rateLocked := false, cand := 0, good := 0,
               onBus := none, busBusy := false, tec := 0, rerr := 0, svcQ := [], txSess := [] } : Can).hold cfg 10 fun _ => true
  else c2

/-- `CAN_STATE` (R451). -/
def Can.stateWord (c : Can) (fd : Bool) : Nat :=
  c.st.code + 8 * b2n c.autorecSusp + 16 * b2n c.xcvrFail + 32 * b2n c.rateLocked + 64 * b2n c.boffSeen
  + 128 * b2n c.epassSeen + 256 * b2n fd + 65536 * (c.cand % 16)

/-- `CAN_RATE` (R450). -/
def Can.rate (c : Can) (cfg : CanCtrlCfg) (cands : List (Nat × Nat)) : Nat :=
  if !c.rateLocked then 0
  else if cfg.nbr = 0 then (at_ cands c.cand (0, 0)).1 + 65536 * (at_ cands c.cand (0, 0)).2
  else cfg.nbr + 65536 * cfg.dbr

/-- The counters in the order of R450. -/
def CanCnt.list (c : CanCnt) : List (BitVec 32) :=
  [c.rxOk, c.txOk, c.rxUnmatched, c.rxFmt, c.rxRemote, c.rxLost, c.errFrames, c.arbLost, c.busOffs, c.txReplaced, c.svcAbort]

/-- `RX_STAT` (R452); of a message longer than 127 bytes `LEN` holds the low 7 bits (log entry 150). -/
def CanRx.stat (r : CanRx) : Nat :=
  r.data.length % 128 + 128 * b2n r.fdf + 256 * b2n r.brs + 512 * b2n r.timeout + 1024 * b2n r.lostSeen + 65536 * r.frames

/-- `TX_STAT` (R452). -/
def CanTx.stat (t : CanTx) (persistent : Bool) : Nat := t.st + 4 * b2n persistent + 256 * t.lastErr + 65536 * t.sent

/-- The timing of a bit (R428): prescaler, time quanta in a bit, those before the sample point, resynchronisation jump width. -/
structure CanTiming where
  presc : Nat
  quanta : Nat
  sample : Nat
  sjw : Nat
  deriving DecidableEq, Repr

/-- The bit timing of a rate at a sample point in percent (R428): the smallest prescaler of the 100 MHz IO clock with at most 25 quanta per
bit, the quantum nearest the sample point, and a jump width equal to phase segment 2; `none` where 8 to 25 quanta cannot be had. -/
def canTiming (kbps percent : Nat) : Option CanTiming :=
  if kbps = 0 ∨ 100000 % kbps ≠ 0 then none
  else
    let n := 100000 / kbps
    match (List.range (n + 1)).find? fun p => decide (1 ≤ p) && decide (n % p = 0) && decide (n / p ≤ 25) with
    | some p =>
      let q := n / p
      let sp := (2 * q * percent + 100) / 200
      if q < 8 then none else some { presc := p, quanta := q, sample := sp, sjw := q - sp }
    | none => none

/-- A rate that divides 100 MHz into 8 to 25 quanta per bit after prescaling (R428). -/
def canRateOk (kbps : Nat) : Bool := (canTiming kbps 80).isSome

end Sys2Proof.Machine
end

