-- ==== Sys2Proof/Machine/TypesCe.lean ====
section
/-! DEFINITION. The state and configuration types of the control engine, its tables and its trace
(06_control_engine.md, 07_compensation_handover_trace.md). -/

namespace Sys2Proof.Machine

/-- An entry of `MODEPAR` (R230). -/
structure ModePar where
  lo : Int := 0
  hi : Int := 0
  rate : Nat := 0
  method : Nat := 0
  bt : Bool := false
  arg : Nat := 0
  deriving DecidableEq, Repr

/-- A loop descriptor with its program and initial words (R202). -/
structure LoopCfg where
  lnum : Nat
  enInit : Bool := false
  lid : BitVec 32 := 0
  period : Nat := 1
  phase : Nat := 0
  nmode : Nat := 1
  pwords : Nat := 0
  oport : Nat := 0
  entry : List Nat := [0, 0, 0, 0]
  prog : List (BitVec 32) := []
  /-- The 256 initial words; empty for all zero. -/
  init : List (BitVec 32) := []
  park : Q15 := 0
  slayout : BitVec 16 := 0
  modes : List ModePar := []
  /-- The descriptor's 64 bytes as the section holds them (R216). -/
  raw : List (BitVec 8) := []
  deriving DecidableEq, Repr

/-- A table descriptor with its data (R221, R222). -/
structure TabCfg where
  tnum : Nat
  linear : Bool := false
  /-- `KIND` is one of its two values. -/
  kindOk : Bool := true
  origin : Int := 0
  span : Nat := 1
  db : Nat := 0
  sgain : Nat := 0
  data : List Q15 := []
  deriving DecidableEq, Repr

/-- The read ports as latched at a frame boundary (R198, R200, R206). -/
structure CeLatch where
  enc : List (BitVec 32) := List.replicate 4 0
  encBad : List Bool := List.replicate 4 false
  vel : List Q15 := List.replicate 4 0
  ai : List Q15 := List.replicate 16 0
  aiBad : List Bool := List.replicate 16 false
  pi : List Q15 := List.replicate 8 0
  piBad : List Bool := List.replicate 8 false
  din : BitVec 32 := 0
  links : SMap Q15 := []
  deriving DecidableEq, Repr

/-- A lane: the registers and condition state of the loop in execution (R189, R190, R193). -/
structure Lane where
  a : List Acc := List.replicate 4 0
  x : List Q15 := List.replicate 8 0
  z : Bool := true
  n : Bool := false
  limf : Bool := false
  first : Bool := false
  sat : Bool := false
  aov : Bool := false
  lim : Bool := false
  inbad : Bool := false
  /-- Index of the next instruction. -/
  pc : Nat := 0
  /-- Logical number of the loop in execution, and its mode in effect (R231). -/
  loop : Nat := 0
  mode : Nat := 0
  done : Bool := true
  /-- ROOT cycles used in this frame. -/
  cycles : Nat := 0
  /-- Values written to the ports by this execution, newest first (R199). -/
  outs : List (Nat × Q15) := []
  /-- `LANE_MAX` and `LANE_OVR` (R218). -/
  max : Nat := 0
  ovr : BitVec 32 := 0
  /-- Elapsed instant of the last `LANE_OVERRUN` record (R207). -/
  ovrAt : Option Nat := none
  /-- Instructions issued, loops executed, executions stopped or missed in the frame, for the counters (R538). -/
  issued : Nat := 0
  execs : Nat := 0
  lost : Nat := 0
  deriving DecidableEq, Repr

/-- The phase of the hand-over stage (R232). -/
inductive HandPhase where
  | none
  | clamp
  | method
  deriving DecidableEq, Repr

/-- The down buffer of a loop terminal (R209). -/
structure DownBuf where
  sp : Q15 := 0
  ff : Q15 := 0
  mode : BitVec 16 := 0
  en : Bool := false
  tq : BitVec 2 := 0
  deriving DecidableEq, Repr

/-- The up buffer of a loop terminal (R210). -/
structure UpBuf where
  pv : Q15 := 0
  out : Q15 := 0
  modeAct : Int := 0
  lflags : BitVec 16 := 0
  deriving DecidableEq, Repr

/-- What a loop holds beside its state words (R202 to R216, R230 to R234). -/
structure LoopSt where
  mode : Nat := 0
  firstPending : Bool := true
  parked : Bool := false
  user : BitVec 4 := 0
  /-- The sticky bits [3:0] and `ABORTED` since the task last latched the up buffer (R211). -/
  sticky : BitVec 4 := 0
  aborted : Bool := false
  clamped : Bool := false
  active : Bool := false
  phase : HandPhase := .none
  k : Nat := 0
  y0 : Int := 0
  tpv : Q15 := 0
  lflags : BitVec 16 := 0
  /-- Encoder counts at the boundary of the previous execution (R198). -/
  lastEnc : List (BitVec 32) := List.replicate 4 0
  down : DownBuf := {}
  /-- The up buffer of an execution whose loop boundary is the next one. -/
  upNext : Option UpBuf := none
  up : Option UpBuf := none
  /-- The module has taken over: the next execution starts a hand-over of the mode in effect (R338). -/
  resume : Bool := false
  miss : Nat := 0
  /-- Carried at the last online change (R215, R220). -/
  carried : Bool := false
  deriving DecidableEq, Repr

/-- The status of a compensation table (R227 to R229, R245). -/
structure TabSt where
  present : Bool := false
  bank1 : Bool := false
  service : Bool := false
  pending : Bool := false
  partnerOk : Bool := false
  switches : Nat := 0
  /-- The inactive bank holds a file written since the last switch (R228). -/
  fresh : Bool := false
  /-- The inactive bank holds the data of an online change, written in its phase 2 (R227). -/
  prep : Bool := false
  deriving DecidableEq, Repr

/-- A trace channel descriptor (R237). -/
structure TrcCh where
  src : Nat := 0
  node : Nat := 0
  lnum : Nat := 0
  arg : Nat := 0
  decim : Nat := 1
  deriving DecidableEq, Repr

/-- The trace trigger descriptor (R239). -/
structure TrcTrig where
  tsrc : Nat := 0
  edge : Nat := 1
  arg : Nat := 0
  lnum : Nat := 0
  level : Int := 0
  t : BitVec 64 := 0
  deriving DecidableEq, Repr

/-- The ring of a trace channel: samples with the frame of their execution, oldest first; scheduled executions
since the last sample; samples after the trigger still to take (R241). -/
structure TrcBuf where
  buf : List (Q15 × Nat) := []
  skip : Nat := 0
  /-- Index of the first sample at or after the trigger. -/
  trigIdx : Nat := 0
  left : Nat := 0
  full : Bool := false
  deriving DecidableEq, Repr

/-- The trace unit (R237 to R246). `state`: 0 IDLE, 1 ARMED, 2 TRIGGERED, 3 DONE, 4 ABORTED. -/
structure Trace where
  chs : List TrcCh := List.replicate 16 {}
  trig : TrcTrig := {}
  pre : Nat := 0
  bufs : List TrcBuf := List.replicate 16 {}
  state : Nat := 0
  preShort : Bool := false
  cause : Nat := 0
  gap : BitVec 16 := 0
  time : BitVec 96 := 0
  /-- A command trigger waits for the next boundary (R240). -/
  cmd : Bool := false
  deriving DecidableEq, Repr

/-- The loops as they stood at the last boundary: what the shadow engine reads (R217). -/
structure CeShot where
  words : SMap (BitVec 32) := []
  st : List (Nat × LoopSt) := []
  staged : SMap Q15 := []
  deriving DecidableEq, Repr

/-- The control engine. `place` gives each placed loop's (lane, slot) (R171). -/
structure Ce where
  lanes : List Lane := List.replicate 4 {}
  cfg : List LoopCfg := []
  place : List (Nat × Nat × Nat) := []
  /-- State words: loop × 256 + word (R203). -/
  words : SMap (BitVec 32) := []
  st : List (Nat × LoopSt) := []
  tabs : List TabCfg := []
  tabSt : List TabSt := List.replicate 16 {}
  /-- Table entries: (table × 2 + bank) × 1024 + index (R221). -/
  tabData : SMap Q15 := []
  lat : CeLatch := {}
  /-- Staged values by port, and the values in effect (R199, R206). -/
  staged : SMap Q15 := []
  /-- Ports staged since the last boundary: each counts as a refresh (R199). -/
  touched : List Nat := []
  /-- Ports that their owners have staged since the start: a hold goes on refreshing them (R216). -/
  held : List Nat := []
  shot : CeShot := {}
  /-- Elapsed instant from which a module that has taken over executes (R338). -/
  from_ : Nat := 0
  eff : SMap Q15 := []
  /-- Frame count, and whether frames are counted (R204). -/
  f : Nat := 0
  started : Bool := false
  /-- Device time of the next boundary, units of 2⁻³⁰ ns, and its offset from the grid (R205). -/
  nextB : Nat := 0
  gridOff : Int := 0
  /-- Frames of the hold that are left, and `HOLD_LAST` (R216). -/
  hold : Nat := 0
  holdLast : Nat := 0
  /-- The frame in progress is one of the hold (R216, R219). -/
  holding : Bool := false
  overrun : BitVec 4 := 0
  running : Bool := false
  trc : Trace := {}
  deriving DecidableEq, Repr

end Sys2Proof.Machine
end

