-- ==== Sys2Proof/Machine/TypesDio.lean ====
section
/-! DEFINITION. The state types of the digital channels, pulse and encoder inputs (14_digital_and_pulse_io.md). -/

namespace Sys2Proof.Machine

/-- A DIO record (R455), with the defaults of R463. -/
structure DioCfg where
  use : Nat := 0
  kick : Nat := 0
  otmoMs : Nat := 20
  fn : Nat := 1
  chsup : Bool := false
  openload : Bool := false
  chmax : Nat := 0
  chwin : Nat := 1
  stuck : Nat := 0
  dtest : Nat := 0
  deriving DecidableEq, Repr

/-- A PI record (R467). -/
structure PiCfg where
  use : Nat := 0
  glitch : Nat := 0
  edge : Nat := 1
  fgateMs : Nat := 10
  fmax : Nat := 1
  deriving DecidableEq, Repr

/-- An ENC record (R469). -/
structure EncCfg where
  kind : Nat := 0
  zmode : Nat := 0
  sbits : Nat := 0
  gray : Bool := false
  errBit : Bool := false
  sclk : Nat := 0
  sper : Nat := 1
  vwin : Nat := 5
  vmax : Nat := 1
  deriving DecidableEq, Repr

/-- A digital channel (R456 to R466). -/
structure DioCh where
  /-- Integrating counter and filtered state; for an output, the readback filter (R456, R461). -/
  c : Nat := 0
  level : Bool := false
  latch0 : BitVec 96 := 0
  latchN : BitVec 96 := 0
  ts : BitVec 96 := 0
  changes : BitVec 32 := 0
  /-- Instants of the filtered changes within the chatter window. -/
  recent : List Nat := []
  betweenFrom : Option Nat := none
  trueFrom : Option Nat := none
  falseFrom : Nat := 0
  chatter : Bool := false
  flicker : Bool := false
  stuckOn : Bool := false
  evalAt : Nat := 0
  /-- Output: last commanded value, stage. -/
  cmd : Bool := false
  out : OutStage := {}
  cmdFalseFrom : Option Nat := none
  overload : Bool := false
  thermal : Bool := false
  thermAt : List Nat := []
  latched : Bool := false
  openLoad : Bool := false
  extDrive : Bool := false
  partnerNoDrive : Bool := false
  extSeen : Bool := false
  thermSeen : Bool := false
  darkFail : Bool := false
  darkSeen : Bool := false
  testFrom : Option Nat := none
  dtNext : Nat := 0
  /-- An abandoned test is due again 1 s after the stage returns to the state under test (R466). -/
  testOwed : Bool := false
  abandoned : Nat := 0
  /-- Last switch-off, and last change of the expected level or of ACT (R461, R464). -/
  offAt : Nat := 0
  expected : Bool := false
  maskFrom : Nat := 0
  deriving DecidableEq, Repr

/-- A pulse input (R467). -/
structure PiCh where
  count : BitVec 32 := 0
  /-- The last 10 µs sample before which an edge came, with the count it found. -/
  sampled : Option (Nat × BitVec 32) := none
  ref : Option Nat := none
  newest : Option Nat := none
  newestTs : BitVec 96 := 0
  edges : Nat := 0
  f : Real32 := 0
  overRange : Bool := false
  errors : Nat := 0
  deriving DecidableEq, Repr

/-- An encoder (R470 to R472). `hist` lists the instants of count changes with the count after each, newest first. -/
structure EncCh where
  count : BitVec 32 := 0
  hist : List (Nat × BitVec 32) := []
  histBase : BitVec 32 := 0
  zpos : BitVec 32 := 0
  zSeen : Bool := false
  homed : Bool := false
  invalidAt : Option Nat := none
  encFault : Bool := false
  fails : Nat := 0
  good : Bool := false
  prev : Nat := 0
  errors : Nat := 0
  ssiFrom : Option Nat := none
  deriving DecidableEq, Repr

/-- The digital side of the field I/O block. -/
structure Dio where
  ch : List DioCh := List.replicate 32 {}
  ufMv : List Nat := [0, 0]
  ufOk : List Bool := [false, false]
  encSupFault : Bool := false
  encSupSeen : Bool := false
  cfgSafe : Bool := false
  pi : List PiCh := List.replicate 8 {}
  enc : List EncCh := List.replicate 4 {}
  /-- Last dark test per group (R465). -/
  dtLast : List Nat := [0, 0]
  deriving DecidableEq, Repr

end Sys2Proof.Machine
end

