-- ==== Sys2Proof/Machine/TypesDisp.lean ====
section
/-! DEFINITION. The state types of the faceplate display (18_faceplate_display.md). -/

namespace Sys2Proof.Machine

/-- An icon entry (R547). -/
structure IconCfg where
  icon : Nat
  invert : Bool
  badOn : Bool
  sig : Nat
  deriving DecidableEq, Repr

/-- The display controller and its panel. A frame is a number whose bit 40c + s is segment s of common c (R544). -/
structure Disp where
  /-- Frame memory, its CRC, firmware's copy (R553). -/
  mem : Nat := 0
  crc : Nat := 0
  copy : Nat := 0
  /-- What the panel shows, and the frame last completed. -/
  panel : Nat := 0
  marker : Bool := true
  completed : Nat := 0
  /-- Waveform in progress, 1 to 6; the content being drawn; its end; abandon at the end. -/
  step : Nat := 0
  drawing : Nat := 0
  endAt : Nat := 0
  abandon : Bool := false
  /-- The polarity of the first half of the next waveform of each common (R549); not given after reset (log entry 128). -/
  pol : List Bool := List.replicate 4 false
  /-- A frame is wanted whatever the content. -/
  want : Bool := false
  band : Nat := 0
  latched : Nat := 0
  tempC : Int := 0
  railWait : Bool := false
  coldWait : Bool := false
  fault : Bool := false
  frames : BitVec 32 := 0
  torn : BitVec 32 := 0
  faults : BitVec 32 := 0
  hiMv : Nat := 0
  midMv : Nat := 0
  icons : List Bool := List.replicate 38 false
  iconAt : Option Nat := none
  sampledAt : Nat := 0
  /-- The full content is due: step 11 or entry to MAINTENANCE has passed (R546). -/
  full : Bool := false
  deriving DecidableEq, Repr

end Sys2Proof.Machine
end

