-- ==== Sys2Proof/Machine/TypesEth.lean ====
section
/-! DEFINITION. The state types of the Ethernet ports, the Spoke link, the pannier pool and the link tests
(12_ethernet_and_spoke_link.md). -/

namespace Sys2Proof.Machine

/-- A port record (R401). -/
structure PortRec where
  pen : Bool := false
  speed : Nat := 0
  endd : Nat := 0
  deriving DecidableEq, Repr

/-- An entry of a gate list (R401). -/
structure GateEnt where
  states : Nat
  interval : Nat
  deriving DecidableEq, Repr

/-- A gate list (R398, R401): port 0 to 4, start in ticks of device time, entries. -/
structure GateList where
  port : Nat
  base : BitVec 96
  ents : List GateEnt
  deriving DecidableEq, Repr

/-- A flow entry (R401). -/
structure FlowCfg where
  fnum : Nat
  port : Nat
  tc : Nat
  udp : Bool
  key : Nat
  maxlen : Nat
  burst : Nat
  deriving DecidableEq, Repr

/-- A pin of R176, in the `TASKS` or the `NETWORK` section. -/
structure PinCfg where
  kind : Nat
  a : Nat
  b : Nat
  target : Nat
  value : Nat
  deriving DecidableEq, Repr

/-- A Spoke node entry (R402). -/
structure NodeCfg where
  node : Nat
  port : Nat
  pos : Nat
  vendor : Nat
  product : Nat
  minrev : Nat
  ilen : Nat
  olen : Nat
  tprep : Nat
  tapp : Nat
  linkd : Nat
  wdog : Nat
  deriving DecidableEq, Repr

/-- The `NETWORK` section (R400). -/
structure NetCfg where
  prmode : Nat := 0
  vid : Nat := 0
  stationIp : BitVec 32 := 0
  netmask : BitVec 32 := 0
  gateway : BitVec 32 := 0
  modIpA : BitVec 32 := 0
  modIpB : BitVec 32 := 0
  svcIp : BitVec 32 := 0xA9FE4E0A
  svcMask : BitVec 32 := 0xFFFF0000
  ptp : Option PtpCfg := none
  gates : List GateList := []
  flows : List FlowCfg := []
  fpins : List PinCfg := []
  acts : List ActionCfg := []
  nodes : List NodeCfg := []
  ports : List PortRec := []
  deriving DecidableEq, Repr

/-- What a frame carries (R396). -/
inductive EthData where
  | ptp (msg : PtpMsg)
  | station (kind : Nat) (msg : Bytes)
  | supervision (mac : BitVec 48)
  | eap (sess : Nat) (mac : BitVec 48) (msg : Bytes)
  | arp (ip : BitVec 32) (mac asker : BitVec 48)
  | icmp (ip : BitVec 32) (mac asker : BitVec 48)
  | spoke (bytes : Bytes)
  | rx (f : RxFrame)
  deriving DecidableEq, Repr

/-- The header of a frame that the module builds (R392, R395, R396, R399, R408): addresses, EtherType, the VLAN tag's PCP and VID, the
sequence number of its PRP trailer or HSR tag. -/
structure EthHdr where
  dst : BitVec 48
  src : BitVec 48
  etherType : BitVec 16
  vlan : Option (Nat × Nat) := none
  rct : Option (BitVec 16) := none
  deriving DecidableEq, Repr

/-- A frame in a buffer of the pool (R296, R418): port, queue (0 to 7 transmit, 8 to 15 receive), bytes from the
destination address, launch time and the launch flags `DROP_LATE`, `TSREQ` and `ONESTEP`. -/
structure PoolFrame where
  port : Nat
  q : Nat
  len : Nat
  data : EthData
  launch : Option (BitVec 64) := none
  dropLate : Bool := false
  tsReq : Bool := false
  oneStep : Bool := false
  /-- Of a frame that the module builds. -/
  hdr : Option EthHdr := none
  /-- Of a received frame: device time at its reception (R19). -/
  stamp : Option (BitVec 96) := none
  deriving DecidableEq, Repr

/-- The counters of a port (R423). -/
structure PortCnt where
  rxOk : BitVec 32 := 0
  txOk : BitVec 32 := 0
  rxFcs : BitVec 32 := 0
  rxOversize : BitVec 32 := 0
  launchLate : BitVec 32 := 0
  launchDrop : BitVec 32 := 0
  launchGated : BitVec 32 := 0
  gateNofit : BitVec 32 := 0
  dupDiscard : BitVec 32 := 0
  poolCrc : BitVec 32 := 0
  dropPool : BitVec 32 := 0
  deriving DecidableEq, Repr

/-- A port P1 to P5: link, the frame leaving it, counters (R391, R424). -/
structure EthPort where
  link : Bool := false
  speed : Nat := 0
  downs : Nat := 0
  tx : Option PoolFrame := none
  /-- The transmit timestamp requested last (R278, R296). -/
  txStamp : Option (BitVec 96) := none
  cnt : PortCnt := {}
  deriving DecidableEq, Repr

/-- A step of the admission of nodes on a port (R410). -/
inductive AdmStep where
  | ident (tries : Nat)
  | delay (node : Nat) (n : Nat) (sum : Int)
  | config (node : Nat)
  | done
  deriving DecidableEq, Repr

/-- A `MGMT` request that has left and is not answered (R409). -/
structure MgmtAsked where
  mseq : BitVec 16
  hop : Nat
  cmd : Nat
  deriving DecidableEq, Repr

/-- A `MGMT` request waiting for its place after the `OUT` frames (R407, R409). -/
structure MgmtReq where
  hop : Nat
  cmd : Nat
  body : Bytes
  deriving DecidableEq, Repr

/-- A Spoke port, P3 or P4 (R404 to R417). -/
structure SpokePort where
  split : Bool := false
  breakSeen : Bool := false
  closed : Bool := false
  cycles : BitVec 32 := 0
  /-- Cycle whose `SYNC` was launched last, and its release tick; the release tick of the cycle whose `OUT` frames were launched
  last. -/
  cycle : BitVec 32 := 0
  syncTick : Nat := 0
  outTick : Nat := 0
  /-- After an ACT latch: the device time in 2⁻³⁰ ns from which frames are launched (R415, R416). -/
  syncFrom : Option Nat := none
  outFrom : Option Nat := none
  mseq : BitVec 16 := 0
  /-- The last 16 requests, newest first, as far as they are not answered (R409). -/
  asked : List MgmtAsked := []
  /-- The search (R410): the hop asked, entries of the node table matched or passed over. -/
  hop : Nat := 1
  passed : Nat := 0
  adm : AdmStep := .ident 0
  /-- Line delay H_AB once measured. -/
  hab : Option Int := none
  reqs : List MgmtReq := []
  bothUpFrom : Option Nat := none
  timeOnlyAt : Option Nat := none
  /-- Elapsed instant of the last `IN` frame relayed to the master (R413, R425). -/
  relayAt : Option Nat := none
  deriving DecidableEq, Repr

/-- A Spoke node (R410 to R412, R425). -/
structure SpokeNode where
  st : Nat := 1
  refuse : Nat := 0
  sideB : Bool := false
  nstat : BitVec 8 := 0
  /-- Hops from the module's own end, as found. -/
  hop : Nat := 0
  replaced : Bool := false
  serial : BitVec 64 := 0
  serialSeen : Bool := false
  /-- Delay from the module's own end, and from the far end (R410). -/
  near : Int := 0
  far : Int := 0
  fwd : Nat := 0
  /-- `CONFIG` is accepted: in cycle from the next `SYNC`. -/
  inSync : Bool := false
  /-- Cycle and input bytes of the last `IN` frame that counts. -/
  inCycle : Option (BitVec 32) := none
  inputs : Bytes := []
  /-- What the last release of the locking task latched: the frame of its cycle had come, `NSTAT` and input bytes (R133, R134). -/
  latOk : Bool := false
  latStat : BitVec 8 := 0
  latIn : Bytes := []
  missRun : Nat := 0
  miss : BitVec 32 := 0
  recheckAt : Option Nat := none
  rdN : Nat := 0
  rdSum : Int := 0
  deriving DecidableEq, Repr

/-- A link test (R420 to R426). -/
structure LinkTest where
  link : Nat := 0
  st : Nat := 0
  mode : Nat := 0
  pattern : Nat := 0
  word : BitVec 32 := 0
  cause : Nat := 0
  dur : Nat := 0
  startAt : Nat := 0
  elapsed : Nat := 0
  bits : BitVec 64 := 0
  errors : BitVec 64 := 0
  syncLoss : BitVec 32 := 0
  framesLost : BitVec 32 := 0
  deriving DecidableEq, Repr

/-- A relayed READ or WRITE of a node object (R568). -/
structure NodeRelay where
  rq : Req
  node : Nat
  write : Bool
  at_ : Nat
  deriving DecidableEq, Repr

/-- The network block. -/
structure Eth where
  ports : List EthPort := List.replicate 5 {}
  /-- Frames in the pool, oldest first. -/
  pool : List PoolFrame := []
  /-- Frames taken out of the pool so far: their CRCs are checked then (R22, R24). -/
  poolReads : Nat := 0
  /-- `DROP_POOL` per queue: port × 16 + queue. -/
  drops : List Nat := List.replicate 80 0
  sharedLow : Nat := 4096
  exhausted : Bool := false
  /-- PRP/HSR entries: source, sequence number, instant (R395). -/
  dups : List (BitVec 48 × BitVec 16 × Nat) := []
  prpSeq : BitVec 16 := 0
  supAt : Nat := 0
  icmp : List Nat := []
  spoke : List SpokePort := List.replicate 2 {}
  nodes : List (Nat × SpokeNode) := []
  lt : LinkTest := {}
  /-- Relays to node objects not yet answered, oldest first. -/
  relays : List NodeRelay := []
  deriving DecidableEq, Repr

end Sys2Proof.Machine
end

