-- ==== Sys2Proof/Machine/TypesTask.lean ====
section
/-! DEFINITION. Tasks, the placement plan and the retained area (04_task_cycle_and_online_change.md, 05_placement.md). -/

namespace Sys2Proof.Machine

/-- A task entry (R127). `period` and `phase` in cadence ticks, `oofs` and `minint` in µs. -/
structure TaskCfg where
  kind : Nat := 0
  prio : Nat := 0
  ovpol : Nat := 0
  period : Nat := 0
  phase : Nat := 0
  oofs : Nat := 0
  trig : Nat := 0
  minint : Nat := 0
  deriving DecidableEq, Repr

/-- A pin directive (R176). -/
structure Pin where
  kind : Nat
  a : Nat
  b : Nat
  target : Nat
  value : Nat
  deriving DecidableEq, Repr

/-- The `TASKS` section (R126, R176). -/
structure TasksCfg where
  tasks : List TaskCfg := List.replicate 16 {}
  restart : BitVec 32 := 0x2C7
  lockP3 : Option Nat := none
  lockP4 : Option Nat := none
  pins : List Pin := []
  deriving DecidableEq, Repr

/-- A cycle whose apply instant is to come (R132, R135): apply instant and deadline in units of device time, and its
back buffer once it is finished. A skipped release has no cycle of its own (R139). -/
structure PendApply where
  rel : BitVec 32
  at_ : Nat
  dl : Nat
  skipped : Bool := false
  img : Option (List OutItem) := none
  /-- The cycle finished by its deadline. -/
  inTime : Bool := false
  deriving DecidableEq, Repr

/-- The cycle in progress: what its block net has put into the output image, and where the release stood (R133, R135). -/
structure Cycle where
  rel : BitVec 32
  /-- The release instant in device time and in elapsed phases. -/
  relAt : BitVec 96 := 0
  from_ : Nat := 0
  out : List OutItem := []
  /-- The cycle runs the net that is being replaced (R154). -/
  old : Bool := false
  /-- Device time of the deadline, units; none for `BACKGROUND`. -/
  dl : Option Nat := none
  /-- The cycle runs to its end on the partner that has handed over (R341). -/
  away : Bool := false
  /-- The core pair on which it runs to its end (R129, R139), the phases that it has executed, and the elapsed instant from which it
  executes, while it is not preempted. -/
  core : Nat := 255
  ran : Nat := 0
  onAt : Option Nat := none
  deriving DecidableEq, Repr

/-- A task (R126 to R141, R162, R163). -/
structure Task where
  releases : BitVec 32 := 0
  lastRelease : BitVec 96 := 0
  /-- Tick number of the last release of a `CYCLIC` task, elapsed instant of the last release (R130, R136). -/
  lastTick : Nat := 0
  lastMono : Option Nat := none
  running : Option Cycle := none
  pend : List PendApply := []
  /-- The images applied at the next tick for a `BACKGROUND` task, in the order of its cycles (R137). -/
  bgOut : List (List OutItem) := []
  /-- The image applied last, with its apply instant in units of device time (R331). -/
  applied : Option (Nat × List OutItem) := none
  halted : Bool := false
  consec : Nat := 0
  replanned : Bool := false
  haltPolicy : Bool := false
  execLast : Nat := 0
  execMax : Nat := 0
  /-- Execution times of the cycles of the present run of overruns (R182). -/
  runMax : Nat := 0
  overruns : BitVec 32 := 0
  skipped : BitVec 32 := 0
  stepSkipped : BitVec 32 := 0
  missed : BitVec 32 := 0
  /-- Least margin in ns since the last read; none before a cycle has finished. -/
  margin : Option Nat := none
  firstScan : Bool := true
  onlineChanged : Bool := false
  /-- Instants at which cycles finished within the last second, with their execution times in ns (R118). -/
  spans : List (Nat × Nat) := []
  /-- Release of the cycle lost at a takeover, until the first cycle here (R123, R337). -/
  repeatOf : Option (BitVec 96) := none
  /-- A `TASK_TRIG` block has triggered the task, whose release is pending (R136). -/
  asked : Bool := false
  /-- Device time of the latest trigger, for a takeover (R337). -/
  lastTrig : Option (BitVec 96) := none
  deriving DecidableEq, Repr

/-- A placement plan (R167 to R175, R188). -/
structure Plan where
  icrc : Nat := 0
  fwMain : Nat := 0
  excl : Nat := 0
  degraded : Bool := false
  measured : Bool := false
  pinsIgnored : Bool := false
  /-- Core pair of each task, 255 unused; kind, utilisation in 0.01 %, response time in ns. -/
  core : List Nat := List.replicate 16 255
  kind : List Nat := List.replicate 16 0
  util : List Nat := List.replicate 16 0
  resp : List Nat := List.replicate 16 0
  /-- Minimums in buffers: P1 to P5, twin link; transmit 0 to 7, receive 0 to 7. -/
  queues : List Nat := List.replicate 96 0
  /-- (LNUM, lane, slot) in ascending LNUM. -/
  loops : List (Nat × Nat × Nat) := []
  /-- (FNUM, port, queue) in ascending FNUM. -/
  flows : List (Nat × Nat × Nat) := []
  /-- (IID, tier, core) in ascending identity. -/
  insts : List (Nat × Nat × Nat) := []
  shadow : Nat := 0
  sram : Nat := 0
  fabric : Nat := 0
  retain : Nat := 0
  tcm : List Nat := [0, 0, 0, 0]
  utilCore : List Nat := [0, 0, 0, 0]
  lanePeak : List Nat := [0, 0, 0, 0]
  laneSlots : List Nat := [0, 0, 0, 0]
  deriving DecidableEq, Repr

/-- A rejection of the planner (R185). -/
structure Reject where
  code : Nat
  where_ : Nat
  excess : Nat := 0
  deriving DecidableEq, Repr

/-- The planner's state (R183, R186, R187). -/
structure PlanSt where
  plan : Option Plan := none
  hash : Bytes := []
  state : Nat := 0
  cached : Bool := false
  pinsIgnored : Bool := false
  hashMismatch : Bool := false
  replans : Nat := 0
  rej : Option Reject := none
  partnerHash : Bytes := List.replicate 32 0
  /-- Measured costs in force, (task, ns) (R181, R182). -/
  measured : List (Nat × Nat) := []
  /-- A re-plan that takes effect at the boundary given in units of device time (R153, R182). -/
  next : Option (Plan × Nat) := none
  deriving DecidableEq, Repr

/-- A retained instance (R144). -/
structure RetInst where
  iid : BitVec 32
  type : Nat
  tver : Nat
  data : InstData
  deriving DecidableEq, Repr

/-- A retained signal cell: the instance and output port that drive it (R144). -/
structure RetCell where
  iid : BitVec 32
  port : Nat
  stype : Nat
  v : SigVal
  deriving DecidableEq, Repr

/-- The retained area of MRAM with its check (R144 to R146). -/
structure RetArea where
  insts : List RetInst := []
  cells : List RetCell := []
  /-- Alarm points that are shelved, with the operating time at which that ends, or out of service, by `PID` (R258). -/
  alms : List (BitVec 32 × Option Nat × Bool) := []
  /-- The main firmware that wrote it. -/
  fw : Nat := 0
  /-- As the last start found it (R146): the area passes its check, and its layout can be read. -/
  good : Bool := true
  readable : Bool := true
  /-- A commit mark has been written since the area was cleared. -/
  written : Bool := false
  deriving DecidableEq, Repr

end Sys2Proof.Machine
end

