-- ==== Sys2Proof/Machine/TypesCfg.lean ====
section
/-! DEFINITION. The cassette, the configuration image as parsed, firmware images and the MRAM journal
(02_cassette_and_startup.md). -/

namespace Sys2Proof.Machine

/-- A slot entry (R43): `st` 0 EMPTY, 1 WRITING, 2 VALID, 3 REJECTED. -/
structure SlotEnt where
  st : Nat := 0
  version : Nat := 0
  len : Nat := 0
  icrc : Nat := 0
  deriving DecidableEq, Repr

/-- A header (R42). -/
structure Hdr where
  format : Nat := 0x0100
  seq : Nat := 0
  active : Nat := 0xFF
  previous : Nat := 0xFF
  commit : Nat := 0
  slots : List SlotEnt := List.replicate 8 {}
  deriving DecidableEq, Repr

/-- A section-table entry (R50). -/
structure SecEnt where
  type : Nat
  critical : Bool
  off : Nat
  len : Nat
  crc : Nat
  deriving DecidableEq, Repr

/-- The `IDENTITY` section (R56), C and S with the defaults of their zeros. -/
structure Ident where
  node : Nat := 0
  cwin : Nat := 1000
  swin : Nat := 60
  station : Bytes := []
  trec : TandemRec := {}
  repwin : Nat := 10
  deriving DecidableEq, Repr

/-- The `REQUIREMENTS` section (R57). -/
structure Reqs where
  mainLo : Nat := 0
  mainHi : Nat := 0
  siLo : Nat := 0
  siHi : Nat := 0
  hwMin : Nat := 0
  hwMax : Nat := 0
  features : Nat := 0
  deriving DecidableEq, Repr

/-- A certificate authority (R560). -/
structure AuthCfg where
  pubkey : Bytes
  defrole : Nat
  deriving DecidableEq, Repr

/-- A credential entry (R560). -/
structure CredEnt where
  serial : Nat
  ca : Nat
  role : Nat
  ports : Nat
  expires : Nat
  deriving DecidableEq, Repr

/-- The `CREDENTIALS` section (R560). -/
structure CredCfg where
  auths : List AuthCfg := []
  ents : List CredEnt := []
  actkey : Bytes := List.replicate 32 0
  deriving DecidableEq, Repr

/-- A configuration image as parsed. -/
structure Cfg where
  version : Nat := 0
  icrc : Nat := 0
  secs : List SecEnt := []
  ident : Ident := {}
  reqs : Reqs := {}
  dio : List DioCfg := List.replicate 32 {}
  pi : List PiCfg := List.replicate 8 {}
  enc : List EncCfg := List.replicate 4 {}
  ai : List AiCfg := List.replicate 16 {}
  ao : List AoCfg := List.replicate 8 {}
  tou : List TouCfg := []
  tcu : List TcuCfg := []
  tasks : TasksCfg := {}
  net : Net := {}
  loops : List LoopCfg := []
  tabs : List TabCfg := []
  alarms : AlarmsCfg := {}
  netc : NetCfg := {}
  /-- The `NETWORK` section is present. -/
  hasNet : Bool := false
  can : CanCfg := {}
  hart : List HartCfg := []
  icons : List IconCfg := []
  swimg : Nat := 0
  swinv : Nat := 0
  cred : CredCfg := {}
  trims : List TrimCfg := []
  deriving DecidableEq, Repr

/-- The descriptor of a firmware image (R67); `good` its signature. What the boot flash holds at reset is the model's choice: version 0,
every range full, hardware `A` to `Z`, format 0x0100, sound (DESIGN CHOICE, log entry 129). -/
structure FwDesc where
  kind : Nat := 0
  hwMin : Nat := 0x41
  hwMax : Nat := 0x5A
  version : Nat := 0
  len : Nat := 0
  bootLo : Nat := 0
  bootHi : Nat := 0xFFFFFFFF
  mainLo : Nat := 0
  mainHi : Nat := 0xFFFFFFFF
  siLo : Nat := 0
  siHi : Nat := 0xFFFFFFFF
  casLo : Nat := 0x0100
  casHi : Nat := 0x0100
  shadowLo : Nat := 0
  shadowHi : Nat := 0xFFFFFFFF
  good : Bool := true
  deriving DecidableEq, Repr

/-- A boot flash bank: its record's sequence and its boot, main and SI images (R66). -/
structure FwBank where
  seq : Nat := 0
  boot : FwDesc := { kind := 1 }
  main : FwDesc := { kind := 2 }
  si : FwDesc := { kind := 3 }
  deriving DecidableEq, Repr

/-- What the journal keeps of the commit window and of starts (R60 to R63, R73). `pend`: 0 nothing, 1 a commit, 2 a rollback
recorded and not yet in the header. -/
structure Journal where
  servedMs : Nat := 0
  trials : Nat := 0
  pend : Nat := 0
  /-- Slot and image of the trial version. -/
  failedSlot : Nat := 0
  /-- The plan last made without measured costs (R180). -/
  plan : Option Plan := none
  deriving DecidableEq, Repr

/-- A header write or a journal write held back by a low supply (R77, R79): the header in use, the time served, a commit, a rollback,
what else the journal holds. -/
inductive PendWrite where
  | header
  | window
  | commit
  | rollback
  | journal
  deriving DecidableEq, Repr

/-- The commands of the cassette's flash (R39). -/
inductive FlashCmd where
  | jedecId
  | readStatus
  | writeEnable
  | fastRead
  | pageProgram
  | sectorErase
  deriving DecidableEq, Repr

/-- One command on the flash bus: its address, the bytes moved and the level of `CAS_WP_N` with it; true is high (R39, R40). -/
structure FlashOp where
  cmd : FlashCmd
  addr : Nat := 0
  len : Nat := 0
  wpHigh : Bool := false
  deriving DecidableEq, Repr

/-- The cassette and the configuration state of the module (R39 to R65, R80, R81). -/
structure Cas where
  present : Bool := false
  /-- The 64 MB of the cassette; an unlisted byte is erased. -/
  mem : SMap Byte := []
  /-- The level of `CAS_WP_N`, true for high (R40), and the write-enable latch of the flash (R39). -/
  wpHigh : Bool := false
  wel : Bool := false
  /-- The commands that the module has put on the flash bus, latest first (R39; log entry 2). -/
  bus : List FlashOp := []
  hdr : Hdr := {}
  /-- The header copy in use, none where neither is valid. -/
  copy : Option Nat := none
  degraded : Bool := false
  rolledBack : Bool := false
  pendW : List PendWrite := []
  /-- The journal as the module uses it, and as MRAM holds it: they differ while the supply holds a write back (R77, R79). -/
  jrn : Journal := {}
  mram : Journal := {}
  /-- Header programmings so far, and whether the last header write failed (R46). -/
  tries : Nat := 0
  hdrFailed : Bool := false
  /-- The commit window: device runs it since this instant, ms to serve in all (R60). -/
  winFrom : Option Nat := none
  winMs : Nat := 0
  lastStore : Nat := 0
  /-- The module runs from a cassette image. -/
  running : Bool := false
  deriving DecidableEq, Repr

end Sys2Proof.Machine
end

