-- ==== Sys2Proof/Machine/CasOps.lean ====
section
/-! DEFINITION. Operations on the cassette: headers, the key record, the image frame and its checks, firmware combinations
(02_cassette_and_startup.md). -/

namespace Sys2Proof.Machine

/-- What an erased byte of the cassette reads as. -/
def erased : Byte := 0xFF
/-- Size of the cassette's address space (R39). -/
def casSize : Nat := 0x04000000
/-- Where slot n starts (R41). -/
def slotBase (n : Nat) : Nat := 0x00800000 + n * 0x00700000
/-- `len` bytes of the cassette from `a` on. -/
def Cas.read (c : Cas) (a len : Nat) : Bytes := SMap.getList erased c.mem len a
/-- The command codes (R39). -/
def FlashCmd.code : FlashCmd → Nat
  | .jedecId => 0x9F
  | .readStatus => 0x05
  | .writeEnable => 0x06
  | .fastRead => 0x0C
  | .pageProgram => 0x12
  | .sectorErase => 0xDC
/-- `CAS_CLK` in MHz (R39). -/
def FlashCmd.clockMhz : FlashCmd → Nat
  | .fastRead => 100
  | _ => 50
/-- A command reaches the flash (R39, R40): a page program or a sector erase needs the write-enable latch and `CAS_WP_N` high, and
takes the latch with it; a program stays within its 256-byte page. -/
def Cas.issue (c : Cas) (cmd : FlashCmd) (a : Nat) (b : Bytes) : Cas :=
  let k := { c with bus := { cmd := cmd, addr := a, len := b.length, wpHigh := c.wpHigh } :: c.bus }
  match cmd with
  | .writeEnable => { k with wel := true }
  | .pageProgram =>
    if c.wel && c.wpHigh then { k with wel := false, mem := SMap.setList erased c.mem a (b.take (256 - a % 256)) } else k
  | .sectorErase =>
    if c.wel && c.wpHigh then { k with wel := false, mem := SMap.erase c.mem (a / 65536 * 65536) (a / 65536 * 65536 + 65536) } else k
  | _ => k
/-- A read of `len` bytes is put on the bus (R39); `Cas.read` gives its result. -/
def Cas.fetch (c : Cas) (a len : Nat) : Cas :=
  { c with bus := { cmd := .fastRead, addr := a, len := len, wpHigh := c.wpHigh } :: c.bus }
/-- A page program or sector erase that the module starts: `CAS_WP_N` is high for its duration and low again after it (R40). -/
def Cas.modify (c : Cas) (cmd : FlashCmd) (a : Nat) (b : Bytes) : Cas :=
  let k := ((({ c with wpHigh := true } : Cas).issue .writeEnable 0 []).issue cmd a b).issue .readStatus 0 []
  { k with wpHigh := false }
/-- The pages that `b` takes from `a` on (R39). -/
def pagesFrom : Nat → Nat → Bytes → List (Nat × Bytes)
  | 0, _, _ => []
  | fuel + 1, a, b =>
    if b = [] then []
    else
      let n := 256 - a % 256
      (a, b.take n) :: pagesFrom fuel (a + n) (b.drop n)
/-- Bytes programmed into the cassette, page by page; nothing is written past its end. -/
def Cas.program (c : Cas) (a : Nat) (b : Bytes) : Cas :=
  (pagesFrom (b.length / 256 + 2) a (b.take (casSize - a))).foldl (fun (k : Cas) p => k.modify .pageProgram p.1 p.2) c
/-- The 64 KB sectors that hold `[lo, hi)` erased. -/
def Cas.eraseRange (c : Cas) (lo hi : Nat) : Cas :=
  ((List.range (ceilDiv hi 65536 - lo / 65536)).map fun i => (lo / 65536 + i) * 65536).foldl
    (fun (k : Cas) a => k.modify .sectorErase a []) c

/-- A slot entry as written (R43). -/
def SlotEnt.bytes (s : SlotEnt) : Bytes := natLe 1 s.st ++ [0, 0, 0] ++ natLe 4 s.version ++ natLe 4 s.len ++ natLe 4 s.icrc
/-- A slot entry as read (R43): a state above 3 is `EMPTY`. -/
def parseSlotEnt (b : Bytes) (off : Nat) : SlotEnt :=
  { st := if field b off 1 ≤ 3 then field b off 1 else 0, version := field b (off + 4) 4,
    len := field b (off + 8) 4, icrc := field b (off + 12) 4 }
/-- The first 252 bytes of a header (R42). -/
def Hdr.head (h : Hdr) : Bytes :=
  [0x48, 0x43, 0x41, 0x53] ++ natLe 2 h.format ++ natLe 2 256 ++ natLe 4 h.seq ++ natLe 1 h.active ++ natLe 1 h.previous ++
    natLe 1 h.commit ++ [0] ++ (h.slots.map SlotEnt.bytes).flatten ++ List.replicate 108 0
/-- A header copy (R42). -/
def Hdr.bytes (h : Hdr) : Bytes := h.head ++ natLe 4 (crc32 h.head)
/-- A header copy that is well formed (R45). -/
def parseHdr (b : Bytes) : Option Hdr :=
  if slice b 0 4 = [0x48, 0x43, 0x41, 0x53] ∧ field b 6 2 = 256 ∧ field b 252 4 = crc32 (slice b 0 252) then
    some { format := field b 4 2, seq := field b 8 4, active := field b 12 1, previous := field b 13 1,
           commit := field b 14 1, slots := tabulate 8 fun i => parseSlotEnt b (16 + 16 * i) }
  else none
/-- A slot entry of a header. -/
def Hdr.slot (h : Hdr) (n : Nat) : SlotEnt := at_ h.slots n {}
/-- An unconfigured header (R47). -/
def Hdr.unconfigured (h : Hdr) : Bool := h.active == 0xFF && h.previous == 0xFF && h.commit == 0
/-- The validity of a well-formed header apart from its `FORMAT` (R45). -/
def Hdr.consistent (h : Hdr) : Bool :=
  (h.unconfigured || decide (h.active < 8) && (h.slot h.active).st == 2) &&
  (h.previous == 0xFF || decide (h.previous < 8) && (h.slot h.previous).st == 2 && h.previous != h.active)
/-- `FORMAT` lies in the ranges of the boot and the main image (R45). -/
def formatOk (boot main : FwDesc) (f : Nat) : Bool :=
  decide (boot.casLo ≤ f) && decide (f ≤ boot.casHi) && decide (main.casLo ≤ f) && decide (f ≤ main.casHi)

/-- The choice between the header copies (R45): the copy and its header, or why there is none. -/
inductive HdrPick where
  | use (copy : Nat) (h : Hdr) (degraded : Bool)
  | badFormat
  | none
  deriving DecidableEq, Repr

/-- The header copy to use (R45). -/
def pickHdr (boot main : FwDesc) (b0 b1 : Bytes) : HdrPick :=
  let w0 := parseHdr b0
  let w1 := parseHdr b1
  let ok (w : Option Hdr) : Option Hdr := w.bind fun h => if formatOk boot main h.format && h.consistent then some h else Option.none
  let fmtOnly (w : Option Hdr) : Bool := match w with | some h => !formatOk boot main h.format && h.consistent | Option.none => false
  match ok w0, ok w1 with
  | some h0, some h1 => if h0.seq < h1.seq then .use 1 h1 false else .use 0 h0 false
  | some h0, Option.none => .use 0 h0 true
  | Option.none, some h1 => .use 1 h1 true
  | Option.none, Option.none => if fmtOnly w0 || fmtOnly w1 then .badFormat else .none

/-- One attempt at a header copy (R46): erase, program, read back and compare. Whether the flash takes the bytes, and what it holds
where it does not, are free values (log entry 1). -/
def Cas.tryHdr (c : Cas) (k : Nat) (n : Hdr) : Cas × Bool :=
  let b := if Config.flashFails c.tries then (Config.flashHolds c.tries).take 256 else n.bytes
  let d := (((c.eraseRange (k * 65536) ((k + 1) * 65536)).program (k * 65536) b).fetch (k * 65536) 256)
  ({ d with tries := c.tries + 1 }, d.read (k * 65536) 256 == n.bytes)
/-- A header change written to the copy not in use, with one retry; a change that fails twice leaves the header in use as it was and
sets `HEADER_DEGRADED` (R46). -/
def Cas.writeHdr (c : Cas) (h : Hdr) : Cas :=
  let k := match c.copy with | some 0 => 1 | _ => 0
  let n := { h with seq := (c.hdr.seq + 1) % 2 ^ 32 }
  let a := c.tryHdr k n
  let r := if a.2 then a else a.1.tryHdr k n
  let rest := c.pendW.filter fun w => w != .header
  if r.2 then { r.1 with hdr := n, copy := some k, pendW := rest, hdrFailed := false }
  else { r.1 with degraded := true, pendW := rest, hdrFailed := true }
/-- A header change that the supply holds back is in effect at once, and its write is pending (R79; log entry 15). -/
def Cas.holdHdr (c : Cas) (h : Hdr) : Cas :=
  { c with hdr := h, pendW := c.pendW.filter (fun w => w != .header) ++ [.header] }

/-- The owner key: `none` for an empty or unreadable record, else KEYID and PUBKEY (R48). -/
def Cas.ownerKey (c : Cas) : Option (Nat × Bytes) :=
  let b := c.read 0x20000 76
  if slice b 0 4 = [0x48, 0x4B, 0x45, 0x59] ∧ field b 72 4 = crc32 (slice b 0 72) then some (field b 4 4, slice b 8 64) else none
/-- An erased key record (R48). -/
def Cas.keyErased (c : Cas) : Bool := (c.read 0x20000 76).all (· == erased)
/-- The owner key record for a public key (R48). -/
def keyRec (pub : Bytes) : Bytes :=
  let h := [0x48, 0x4B, 0x45, 0x59] ++ slice (sha256 pub) 0 4 ++ pub
  h ++ natLe 4 (crc32 h)

/-- The failure codes of R54 as step numbers; rejection of step 8 carries the planner's report. -/
inductive ImgFail where
  | format
  | key
  | signature
  | layout
  | sectionCrc
  | sectionSet
  | requirements
  | plan (r : Reject)
  deriving DecidableEq, Repr

/-- The step of R54 that a failure code belongs to. -/
def ImgFail.step : ImgFail → Nat
  | .format => 1 | .key => 2 | .signature => 3 | .layout => 4 | .sectionCrc => 5 | .sectionSet => 6 | .requirements => 7
  | .plan _ => 8

/-- The section table of an image (R49, R50). -/
def imgSecs (b : Bytes) : List SecEnt :=
  tabulate (field b 6 2) fun i =>
    { type := field b (32 + 16 * i) 2, critical := bitOf (field b (34 + 16 * i) 2) 0, off := field b (36 + 16 * i) 4,
      len := field b (40 + 16 * i) 4, crc := field b (44 + 16 * i) 4 }
/-- The bytes of a section. -/
def SecEnt.bytes (s : SecEnt) (b : Bytes) : Bytes := slice b s.off s.len
/-- Pieces `(offset, length)` of a table region do not overlap. -/
def disjoint : List (Nat × Nat) → Bool
  | [] => true
  | (o, n) :: t => t.all (fun p => n == 0 || p.2 == 0 || decide (o + n ≤ p.1) || decide (p.1 + p.2 ≤ o)) && disjoint t
/-- The section types of R52 and the required ones. -/
def knownSecs : List Nat := (List.range 15).map (· + 1)
/-- See `knownSecs`. -/
def requiredSecs : List Nat := [1, 2, 3, 4, 5, 0xD, 0xE]
/-- Section types whose change is made online (R52). -/
def onlineSecs : List Nat := [5, 6, 7, 8, 0xC, 0xF]

/-- Steps 1 to 6 of R54. -/
def imgCheck (main : FwDesc) (key : Option (Nat × Bytes)) (b : Bytes) : Option ImgFail :=
  let len := field b 12 4
  let n := field b 6 2
  let secs := imgSecs b
  if !(slice b 0 4 == [0x48, 0x43, 0x46, 0x47] && decide (main.casLo ≤ field b 4 2) && decide (field b 4 2 ≤ main.casHi) &&
      decide (1 ≤ n) && decide (n ≤ 32) && decide (len ≤ 6291456) && decide (len = b.length) && decide (32 + 64 ≤ len)) then some .format
  else match key with
  | none => some .key
  | some (id, pub) =>
    if field b 24 4 ≠ id then some .key
    else if !ecdsaVerify pub (b.take (len - 64)) (slice b (len - 64) 64) then some .signature
    else if !(secs.all (fun s => s.off % 16 == 0 && decide (32 + 16 * n ≤ s.off) && decide (s.off + s.len ≤ len - 64)) &&
        decide (32 + 16 * n ≤ len - 64) && disjoint (secs.map fun s => (s.off, s.len))) then some .layout
    else if !secs.all (fun s => crc32 (s.bytes b) == s.crc) then some .sectionCrc
    else if !(requiredSecs.all (fun t => secs.any (·.type == t)) && decide ((secs.map (·.type)).Nodup) &&
        secs.all (fun s => knownSecs.contains s.type || !s.critical)) then some .sectionSet
    else none

/-- The sections in which two images differ (R53). -/
def secsDiffer (a b : List SecEnt) : List Nat :=
  knownSecs.filter fun t =>
    let x := (a.find? (·.type == t)).map (·.crc)
    let y := (b.find? (·.type == t)).map (·.crc)
    x != y
/-- An activation is an online change (R53). -/
def isOnline (a b : List SecEnt) : Bool := (secsDiffer a b).all onlineSecs.contains

/-- The descriptor of a firmware image; `good` from its magic, length and signature (R67). -/
def parseFw (b : Bytes) : FwDesc :=
  { kind := field b 4 1, hwMin := field b 5 1, hwMax := field b 6 1, version := field b 8 4, len := field b 12 4,
    bootLo := field b 16 4, bootHi := field b 20 4, mainLo := field b 24 4, mainHi := field b 28 4,
    siLo := field b 32 4, siHi := field b 36 4, casLo := field b 40 2, casHi := field b 42 2,
    shadowLo := field b 44 4, shadowHi := field b 48 4,
    good := slice b 0 4 == [0x48, 0x46, 0x57, 0x49] && field b 12 4 == b.length && Config.fwSignatureGood b }
/-- The combination of a bank's images is valid on a hardware revision (R68). -/
def FwBank.valid (k : FwBank) (hw : Nat) : Bool :=
  [k.boot, k.main, k.si].all (fun d => decide (d.hwMin ≤ hw) && decide (hw ≤ d.hwMax)) &&
  [k.main, k.si].all (fun d => decide (d.bootLo ≤ k.boot.version) && decide (k.boot.version ≤ d.bootHi)) &&
  [k.boot, k.si].all (fun d => decide (d.mainLo ≤ k.main.version) && decide (k.main.version ≤ d.mainHi)) &&
  [k.boot, k.main].all (fun d => decide (d.siLo ≤ k.si.version) && decide (k.si.version ≤ d.siHi))
/-- The bank that starts: the boot ROM's choice, and the other bank where its main or SI image fails (R66); whether it fell back. Where
both boot images verify, or neither does, the sequence decides, and bank A where it is equal (DESIGN CHOICE, log entry 30). -/
def pickBank (a b : FwBank) : Bool × Bool :=
  let second := if a.boot.good == b.boot.good then decide (a.seq < b.seq) else !a.boot.good
  let k := if second then b else a
  if k.main.good && k.si.good then (second, false) else (!second, true)

/-- The header copy that the island goes by (R364): magic, header length and CRC, and the higher `SEQ`. -/
def Cas.islandHdr (c : Cas) : Option Hdr :=
  match parseHdr (c.read 0 256), parseHdr (c.read 0x10000 256) with
  | some a, some b => some (if a.seq < b.seq then b else a)
  | some a, none => some a
  | none, w => w
/-- The entry of `SAFETY_EXPECTED` in the section table of the image in slot `n` (R50, R364). -/
def Cas.expectedEntry (c : Cas) (n : Nat) : Option Bytes :=
  let base := slotBase n
  let ents := tabulate (Nat.min (field (c.read (base + 6) 2) 0 2) 32) fun i => c.read (base + 32 + 16 * i) 16
  ents.find? fun e => field e 0 2 == 0xD
/-- What the island finds of `SAFETY_EXPECTED` (R364): the section's `SCRC` and `SWINV` are checked, not the image's signature. -/
def Cas.safetyExpected (c : Cas) : Option Nat :=
  if !c.present then none
  else c.islandHdr.bind fun h =>
    if h.active < 8 then
      (c.expectedEntry h.active).bind fun e =>
        let b := c.read (slotBase h.active + field e 4 4) 32
        if field e 8 4 = 32 ∧ crc32 b = field e 12 4 ∧ field b 2 2 = 0xFFFF - field b 0 2 then some (field b 0 2) else none
    else none
/-- The commands of the island's read-only reader (R364): 0x9F, 0x05, and reads of both header copies, of the section table and of the
section. -/
def Cas.islandReads (c : Cas) : Cas :=
  let k := ((((c.issue .jedecId 0 []).issue .readStatus 0 []).fetch 0 256).fetch 0x10000 256)
  if !c.present then c.issue .jedecId 0 []
  else match c.islandHdr with
  | none => k
  | some h =>
    if h.active < 8 then
      let k1 := k.fetch (slotBase h.active) 544
      match c.expectedEntry h.active with
      | some e => k1.fetch (slotBase h.active + field e 4 4) 32
      | none => k1
    else k

/-- Slot entries of a header read at start-up: a slot found `WRITING` is treated as `EMPTY` (R58). -/
def Hdr.atStart (h : Hdr) : Hdr := { h with slots := h.slots.map fun s => if s.st = 1 then { s with st := 0 } else s }

/-- The header of an activation (R59). -/
def Hdr.activate (h : Hdr) (n : Nat) : Hdr := { h with previous := h.active, active := n, commit := 1 }
/-- The header of a failed window (R63): where no previous image exists, none is active. -/
def Hdr.rollback (h : Hdr) : Hdr :=
  { h with active := h.previous, previous := 0xFF, commit := 0,
           slots := upd h.slots h.active fun s => { s with st := 3 } }
/-- The header of a commanded rollback (R64). -/
def Hdr.exchange (h : Hdr) : Hdr := { h with active := h.previous, previous := h.active, commit := 0 }

/-- `CFG_STATE` (R81). -/
def Cas.stateWord (c : Cas) (lowWp : Bool) : Nat :=
  let h := c.hdr
  (if h.active < 8 then h.active else 0) + 8 * b2n c.running + 16 * (if h.previous < 8 then h.previous else 0) +
    128 * b2n (h.previous != 0xFF) + 256 * (if c.jrn.pend = 1 then 2 else h.commit % 2) + 1024 * b2n c.rolledBack +
    2048 * b2n c.degraded + 4096 * b2n (!c.pendW.isEmpty) + 8192 * b2n lowWp + 65536 * (c.jrn.trials % 256)

end Sys2Proof.Machine
end

