-- ==== Sys2Proof/Machine/Ce.lean ====
section
/-! DEFINITION. The control engine's instructions: what one instruction does to a lane, to the loop's state
words and flags, and to the trace (R189 to R199, R211, R224, R225). -/

namespace Sys2Proof.Machine

/-- A lane of the engine. -/
def Ce.lane (c : Ce) (l : Fin 4) : Lane := at_ c.lanes l {}
/-- The engine with `f` applied to a lane. -/
def Ce.updLane (c : Ce) (l : Fin 4) (f : Lane → Lane) : Ce := { c with lanes := upd c.lanes l f }

/-- The state held for a loop; a loop without an entry is as initialised. -/
def loopStOf : List (Nat × LoopSt) → Nat → LoopSt
  | [], _ => {}
  | (k, s) :: t, n => if k = n then s else loopStOf t n
/-- The list with the state of a loop replaced. -/
def setLoopSt : List (Nat × LoopSt) → Nat → LoopSt → List (Nat × LoopSt)
  | [], n, s => [(n, s)]
  | (k, v) :: t, n, s => if k = n then (k, s) :: t else (k, v) :: setLoopSt t n s
/-- The state of loop `n`. -/
def Ce.loopSt (c : Ce) (n : Nat) : LoopSt := loopStOf c.st n
/-- The engine with `f` applied to the state of loop `n`. -/
def Ce.updLoop (c : Ce) (n : Nat) (f : LoopSt → LoopSt) : Ce := { c with st := setLoopSt c.st n (f (c.loopSt n)) }
/-- The descriptor of loop `n`. -/
def Ce.loopCfg (c : Ce) (n : Nat) : Option LoopCfg := c.cfg.find? fun d => d.lnum == n

/-- The key of state word `w` of loop `n`. -/
def wordKey (n w : Nat) : Nat := n * 256 + w % 256
/-- State word `w` of loop `n` (R203). -/
def Ce.word (c : Ce) (n w : Nat) : BitVec 32 := SMap.get 0 c.words (wordKey n w)
/-- The engine with state word `w` of loop `n` replaced. -/
def Ce.setWord (c : Ce) (n w : Nat) (v : BitVec 32) : Ce := { c with words := SMap.set 0 c.words (wordKey n w) v }

/-- `q_to_acc` (R191). -/
def qToAcc (x : Q15) : Int := x.toInt * 65536
/-- `product` (R191). -/
def qProduct (x y : Q15) : Int := x.toInt * y.toInt * 2
/-- `sat40` of R191, as the accumulator value. -/
def sat40 (v : Int) : Acc := BitVec.ofInt 40 (clamp (-(2 ^ 39)) (2 ^ 39 - 1) v)
/-- `sat40` clamps `v`. -/
def clamps40 (v : Int) : Bool := decide (v < -(2 ^ 39)) || decide (2 ^ 39 - 1 < v)
/-- `sat16` (R192). -/
def sat16 (v : Int) : Q15 := BitVec.ofInt 16 (clamp (-32768) 32767 v)
/-- `sat16` clamps `v`. -/
def clamps16 (v : Int) : Bool := decide (v < -32768) || decide (32767 < v)
/-- The rounded value that `to_q15` saturates (R192). -/
def accRounded (a : Acc) : Int := (a.toInt + 0x8000) / 65536
/-- `to_q15` (R192). -/
def toQ15 (a : Acc) : Q15 := sat16 (accRounded a)
/-- The value of `shift(a, s)` before the clamp of a left shift (R191). -/
def accShift (a : Acc) (s : Int) : Int :=
  if 0 ≤ s then a.toInt * 2 ^ s.toNat else (a.toInt + 2 ^ ((-s).toNat - 1)) / 2 ^ (-s).toNat

/-- Accumulator `i` of a lane. -/
def Lane.acc (l : Lane) (i : Fin 4) : Acc := at_ l.a i 0
/-- Operand register `i` of a lane. -/
def Lane.xr (l : Lane) (i : Fin 8) : Q15 := at_ l.x i 0

/-- The lane with accumulator `i` set to `sat40 v`: `Z` and `N` follow the result, a clamp sets `AOV` (R191, R193). -/
def Lane.setAcc (l : Lane) (i : Fin 4) (v : Int) : Lane :=
  { l with a := put l.a i (sat40 v), z := decide ((sat40 v).toInt = 0), n := decide ((sat40 v).toInt < 0),
           aov := l.aov || clamps40 v }
/-- The lane with operand register `i` set. -/
def Lane.setX (l : Lane) (i : Fin 8) (v : Q15) : Lane := { l with x := put l.x i v }
/-- The lane with operand register `i` set to `sat16 v`; a clamp sets `SAT` (R192). -/
def Lane.setXSat (l : Lane) (i : Fin 8) (v : Int) : Lane :=
  { l with x := put l.x i (sat16 v), sat := l.sat || clamps16 v }
/-- An instruction of `n` cycles has issued: the next index follows. -/
def Lane.tick (l : Lane) (n : Nat) : Lane := { l with pc := l.pc + 1, cycles := l.cycles + n }

/-- Apply an effect on the lane alone, then let the instruction of `n` cycles pass. -/
def Ce.onLane (c : Ce) (l : Fin 4) (n : Nat) (f : Lane → Lane) : Ce := c.updLane l fun r => (f r).tick n

/-- `NOP` (R195). -/
def ceNopOp (c : Ce) (l : Fin 4) : Ce := c.onLane l 1 id
/-- `LDX` (R195). -/
def ceLdxOp (c : Ce) (l : Fin 4) (x : Fin 8) (w : BitVec 8) : Ce :=
  c.onLane l 1 fun r => r.setX x ((c.word r.loop w.toNat).setWidth 16)
/-- `STX` (R195). -/
def ceStxOp (c : Ce) (l : Fin 4) (x : Fin 8) (w : BitVec 8) : Ce :=
  (c.setWord (c.lane l).loop w.toNat (((c.lane l).xr x).signExtend 32)).onLane l 1 id
/-- `LDI` (R195). -/
def ceLdiOp (c : Ce) (l : Fin 4) (x : Fin 8) (imm : BitVec 16) : Ce := c.onLane l 1 fun r => r.setX x imm
/-- The Q9.31 value in words `w` and `w + 1` of loop `n` (R195). -/
def Ce.pair (c : Ce) (n w : Nat) : Acc := (c.word n (w + 1)).setWidth 8 ++ c.word n w
/-- The engine with words `w` and `w + 1` of loop `n` set to a Q9.31 value (R195). -/
def Ce.setPair (c : Ce) (n w : Nat) (v : Acc) : Ce :=
  (c.setWord n w (v.setWidth 32)).setWord n (w + 1) ((v.extractLsb' 32 8).signExtend 32)
/-- `LDA` (R195). -/
def ceLdaOp (c : Ce) (l : Fin 4) (a : Fin 4) (w : BitVec 8) : Ce :=
  c.onLane l 1 fun r => r.setAcc a (c.pair r.loop w.toNat).toInt
/-- `STA` (R195). -/
def ceStaOp (c : Ce) (l : Fin 4) (a : Fin 4) (w : BitVec 8) : Ce :=
  (c.setPair (c.lane l).loop w.toNat ((c.lane l).acc a)).onLane l 1 id
/-- `STQ` (R192, R195). -/
def ceStqOp (c : Ce) (l : Fin 4) (a : Fin 4) (w : BitVec 8) : Ce :=
  (c.setWord (c.lane l).loop w.toNat ((toQ15 ((c.lane l).acc a)).signExtend 32)).onLane l 1
    fun r => { r with sat := r.sat || clamps16 (accRounded (r.acc a)) }
/-- `MOVQ` (R192, R195). -/
def ceMovqOp (c : Ce) (l : Fin 4) (x : Fin 8) (a : Fin 4) : Ce :=
  c.onLane l 1 fun r => r.setXSat x (accRounded (r.acc a))
/-- `LDAX` (R195). -/
def ceLdaxOp (c : Ce) (l : Fin 4) (a : Fin 4) (x : Fin 8) : Ce := c.onLane l 1 fun r => r.setAcc a (qToAcc (r.xr x))
/-- `MOVA` (R195). -/
def ceMovaOp (c : Ce) (l : Fin 4) (a b : Fin 4) : Ce := c.onLane l 1 fun r => r.setAcc a (r.acc b).toInt
/-- `MPY` (R195). -/
def ceMpyOp (c : Ce) (l : Fin 4) (a : Fin 4) (x y : Fin 8) : Ce :=
  c.onLane l 1 fun r => r.setAcc a (qProduct (r.xr x) (r.xr y))
/-- `MAC` (R195). -/
def ceMacOp (c : Ce) (l : Fin 4) (a : Fin 4) (x y : Fin 8) : Ce :=
  c.onLane l 1 fun r => r.setAcc a ((r.acc a).toInt + qProduct (r.xr x) (r.xr y))
/-- `MSU` (R195). -/
def ceMsuOp (c : Ce) (l : Fin 4) (a : Fin 4) (x y : Fin 8) : Ce :=
  c.onLane l 1 fun r => r.setAcc a ((r.acc a).toInt - qProduct (r.xr x) (r.xr y))
/-- `ADDA` (R195). -/
def ceAddaOp (c : Ce) (l : Fin 4) (a b : Fin 4) : Ce :=
  c.onLane l 1 fun r => r.setAcc a ((r.acc a).toInt + (r.acc b).toInt)
/-- `SUBA` (R195). -/
def ceSubaOp (c : Ce) (l : Fin 4) (a b : Fin 4) : Ce :=
  c.onLane l 1 fun r => r.setAcc a ((r.acc a).toInt - (r.acc b).toInt)
/-- `ADDX` (R195). -/
def ceAddxOp (c : Ce) (l : Fin 4) (a : Fin 4) (x : Fin 8) : Ce :=
  c.onLane l 1 fun r => r.setAcc a ((r.acc a).toInt + qToAcc (r.xr x))
/-- `SUBX` (R195). -/
def ceSubxOp (c : Ce) (l : Fin 4) (a : Fin 4) (x : Fin 8) : Ce :=
  c.onLane l 1 fun r => r.setAcc a ((r.acc a).toInt - qToAcc (r.xr x))
/-- `ADDQ` (R192, R195). -/
def ceAddqOp (c : Ce) (l : Fin 4) (x y : Fin 8) : Ce :=
  c.onLane l 1 fun r => r.setXSat x ((r.xr x).toInt + (r.xr y).toInt)
/-- `SUBQ` (R192, R195). -/
def ceSubqOp (c : Ce) (l : Fin 4) (x y : Fin 8) : Ce :=
  c.onLane l 1 fun r => r.setXSat x ((r.xr x).toInt - (r.xr y).toInt)
/-- `NEGA` (R195). -/
def ceNegaOp (c : Ce) (l : Fin 4) (a : Fin 4) : Ce := c.onLane l 1 fun r => r.setAcc a (-(r.acc a).toInt)
/-- `ABSA` (R195). -/
def ceAbsaOp (c : Ce) (l : Fin 4) (a : Fin 4) : Ce :=
  c.onLane l 1 fun r => r.setAcc a (if (r.acc a).toInt < 0 then -(r.acc a).toInt else (r.acc a).toInt)
/-- `SHA` (R191, R195). -/
def ceShaOp (c : Ce) (l : Fin 4) (a : Fin 4) (s : BitVec 6) : Ce :=
  c.onLane l 1 fun r => r.setAcc a (accShift (r.acc a) s.toInt)
/-- The value that `LIMA` leaves: clamped to [lo, hi], and lo where lo > hi (R195). -/
def limaValue (lo hi a : Int) : Int := if hi < lo then lo else clamp lo hi a
/-- `LIMA` clamps (R195). -/
def limaClamps (lo hi a : Int) : Bool := decide (hi < lo) || decide (a < lo) || decide (hi < a)
/-- `LIMA` (R193, R195). -/
def ceLimaOp (c : Ce) (l : Fin 4) (a : Fin 4) (x y : Fin 8) : Ce :=
  c.onLane l 1 fun r =>
    let cl := limaClamps (qToAcc (r.xr x)) (qToAcc (r.xr y)) (r.acc a).toInt
    { r.setAcc a (limaValue (qToAcc (r.xr x)) (qToAcc (r.xr y)) (r.acc a).toInt) with
        limf := cl, lim := r.lim || cl }
/-- `CMPA` (R195). -/
def ceCmpaOp (c : Ce) (l : Fin 4) (a : Fin 4) (x : Fin 8) : Ce :=
  c.onLane l 1 fun r =>
    { r with z := decide ((r.acc a).toInt - qToAcc (r.xr x) = 0), n := decide ((r.acc a).toInt - qToAcc (r.xr x) < 0) }
/-- A branch condition holds (R196). -/
def Lane.cond (r : Lane) : CeCond → Bool
  | .always => true
  | .z => r.z
  | .nz => !r.z
  | .n => r.n
  | .nn => !r.n
  | .lim => r.limf
  | .nlim => !r.limf
  | .first => r.first
  | .nfirst => !r.first
/-- `BR` (R195, R196). -/
def ceBrOp (c : Ce) (l : Fin 4) (cc : CeCond) (t : BitVec 7) : Ce :=
  c.updLane l fun r => if r.cond cc then { r.tick 1 with pc := t.toNat } else r.tick 1
/-- `FLG` (R195): `LFLAGS` [15:12], a bit in both fields is set. -/
def ceFlgOp (c : Ce) (l : Fin 4) (set clr : BitVec 4) : Ce :=
  (c.updLoop (c.lane l).loop fun s => { s with user := (s.user &&& ~~~clr) ||| set }).onLane l 1 id

/-- The change of an encoder's count between two latches, saturated to INT16 (R198). -/
def encDelta (now last : BitVec 32) : Q15 := sat16 (now - last).toInt
/-- The value of read port `p` for a lane's loop (R198). A port that R198 does not name reads 0; no checked program reads one (R197). -/
def Ce.readPort (c : Ce) (r : Lane) (p : Nat) : Q15 :=
  let st := c.loopSt r.loop
  if p < 0x04 then (at_ c.lat.enc p 0).setWidth 16
  else if p < 0x08 then (if r.first then 0 else encDelta (at_ c.lat.enc (p - 4) 0) (at_ st.lastEnc (p - 4) 0))
  else if p < 0x0C then at_ c.lat.vel (p - 8) 0
  else if p < 0x10 then 0
  else if p < 0x20 then at_ c.lat.ai (p - 0x10) 0
  else if p < 0x28 then at_ c.lat.pi (p - 0x20) 0
  else if p = 0x28 then c.lat.din.setWidth 16
  else if p = 0x29 then c.lat.din.extractLsb' 16 16
  else if p = 0x30 then st.down.sp
  else if p = 0x31 then st.down.ff
  else if p = 0x32 then BitVec.ofNat 16 r.mode
  else if p = 0x33 then st.down.tq.setWidth 16
  else if 0x40 ≤ p && p < 0x80 then SMap.get 0 c.lat.links (p - 0x40)
  else 0
/-- The channel of read port `p` has quality `BAD` (R198). -/
def Ce.portBad (c : Ce) (p : Nat) : Bool :=
  if p < 0x0C then at_ c.lat.encBad (p % 4) false
  else if 0x10 ≤ p && p < 0x20 then at_ c.lat.aiBad (p - 0x10) false
  else if 0x20 ≤ p && p < 0x28 then at_ c.lat.piBad (p - 0x20) false
  else false
/-- `IN` (R195, R198). -/
def ceInOp (c : Ce) (l : Fin 4) (x : Fin 8) (p : BitVec 8) : Ce :=
  c.onLane l 1 fun r => { r.setX x (c.readPort r p.toNat) with inbad := r.inbad || c.portBad p.toNat }
/-- `OUT` (R195, R199): the last write of the execution to a port counts. -/
def ceOutOp (c : Ce) (l : Fin 4) (x : Fin 8) (p : BitVec 8) : Ce :=
  c.onLane l 1 fun r => { r with outs := (p.toNat, r.xr x) :: r.outs }

/-- The descriptor of table `t`. -/
def Ce.tabCfg (c : Ce) (t : Nat) : TabCfg := (c.tabs.find? fun d => d.tnum == t).getD { tnum := t }
/-- Entry `i` of the active bank of table `t` (R221, R227). -/
def Ce.tabEntry (c : Ce) (t i : Nat) : Int :=
  (SMap.get 0 c.tabData ((t * 2 + b2n (at_ c.tabSt t {}).bank1) * 1024 + i)).toInt
/-- The position along a table as a 26-bit fraction (R224). -/
def tabPos (d : TabCfg) (p : Int) : Nat :=
  let dd := p - d.origin
  let u := if d.linear then clamp 0 ((d.span : Int) - 1) dd else dd % (d.span : Int)
  (u.toNat * 2 ^ 26) / d.span
/-- The interpolated table value at position `p` (R224). -/
def Ce.tabValue (c : Ce) (t : Nat) (p : Int) : Q15 :=
  let d := c.tabCfg t
  let tt := tabPos d p
  let i := tt / 65536
  let frac : Int := ((tt % 65536 : Nat) : Int)
  let j := if d.linear then min (i + 1) 1023 else (i + 1) % 1024
  sat16 (c.tabEntry t i + ((c.tabEntry t j - c.tabEntry t i) * frac + 0x8000) / 65536)
/-- The smoothed velocity sign (R225). -/
def tabSign (d : TabCfg) (w : Q15) : Int :=
  let m : Int := (w.toInt.natAbs : Int) - d.db
  let s : Int := if m ≤ 0 then 0 else if d.sgain = 0 then 32767 else min 32767 (m * d.sgain / 256)
  if w.toInt < 0 then -s else s
/-- `TBL` (R195, R224). -/
def ceTblOp (c : Ce) (l : Fin 4) (x : Fin 8) (tb : Fin 16) (e : Fin 4) : Ce :=
  c.onLane l 4 fun r =>
    { r.setX x (c.tabValue tb (at_ c.lat.enc e 0).toInt) with inbad := r.inbad || at_ c.lat.encBad e false }
/-- `TBLF` (R195, R225); its conversion saturates and sets `SAT` as R192 says. -/
def ceTblfOp (c : Ce) (l : Fin 4) (x : Fin 8) (tb : Fin 16) (e : Fin 4) : Ce :=
  c.onLane l 4 fun r =>
    let v := c.tabValue tb (at_ c.lat.enc e 0).toInt
    let f := accRounded (sat40 (v.toInt * tabSign (c.tabCfg tb) (at_ c.lat.vel e 0) * 2))
    { r.setXSat x f with inbad := r.inbad || at_ c.lat.encBad e false }

/-! The trace unit. -/

/-- Depth of a channel ring (R241). -/
def trcDepth : Nat := 32768
/-- The last `n` elements. -/
def lastN {α : Type} (n : Nat) (l : List α) : List α := l.drop (l.length - n)
/-- A channel after the trigger: at most `pre` samples of frames before `g`, then those from `g` on (R241). -/
def TrcBuf.trigger (b : TrcBuf) (pre g : Nat) : TrcBuf :=
  let old := lastN pre (b.buf.filter fun s => decide (s.2 < g))
  let new := (b.buf.filter fun s => decide (g ≤ s.2)).take (trcDepth - pre)
  { b with buf := old ++ new, trigIdx := old.length, left := trcDepth - pre - new.length,
           full := decide (trcDepth - pre ≤ new.length) }
/-- Every enabled channel has stopped. -/
def Trace.allStopped (t : Trace) : Bool := (t.chs.zip t.bufs).all fun p => p.1.src == 0 || p.2.full
/-- The trigger instant is `time`; samples of frames from `g` on count as taken at or after it (R240, R241). -/
def Trace.fire (t : Trace) (g : Nat) (time : BitVec 96) : Trace :=
  if t.state = 1 then
    let short := (t.chs.zip t.bufs).any fun p =>
      p.1.src != 0 && decide ((p.2.buf.filter fun s => decide (s.2 < g)).length < t.pre)
    let t := { t with bufs := t.bufs.map fun b => TrcBuf.trigger b t.pre g, preShort := short, time := time, cmd := false }
    { t with state := if t.allStopped then 3 else 2 }
  else t
/-- A channel takes a sample of frame `f` (R238, R241). -/
def TrcBuf.take (b : TrcBuf) (state f : Nat) (v : Q15) : TrcBuf :=
  if state = 1 then { b with buf := lastN trcDepth (b.buf ++ [(v, f)]) }
  else if state = 2 && !b.full then
    { b with buf := b.buf ++ [(v, f)], left := b.left - 1, full := decide (b.left ≤ 1) }
  else b
/-- A crossing of the level from sample `p` to sample `v` (R239). -/
def levelCross (tr : TrcTrig) (p v : Q15) : Bool :=
  let rise := decide (p.toInt < tr.level) && decide (tr.level ≤ v.toInt)
  let fall := decide (tr.level ≤ p.toInt) && decide (v.toInt < tr.level)
  (bitOf tr.edge 0 && rise) || (bitOf tr.edge 1 && fall)
/-- Channel `ch` takes sample `v` of frame `f`, whose loop boundary lies at device time `tB`; a level trigger on
the channel is judged (R238 to R241). -/
def Trace.sample (t : Trace) (ch : Nat) (v : Q15) (f : Nat) (tB : BitVec 96) : Trace :=
  if t.state = 1 || t.state = 2 then
    let prev := (at_ t.bufs ch {}).buf.getLast?
    let t1 := { t with bufs := upd t.bufs ch fun b => b.take t.state f v }
    let t2 := { t1 with state := if t1.state = 2 && t1.allStopped then 3 else t1.state }
    match prev with
    | some p => if t2.state = 1 && t2.trig.tsrc == 1 && t2.trig.arg == ch && levelCross t2.trig p.1 v then t2.fire f tB else t2
    | none => t2
  else t
/-- The trace ends as `ABORTED` with a cause (R242). -/
def Trace.abort (t : Trace) (cause : Nat) : Trace :=
  if t.state = 1 || t.state = 2 then { t with state := 4, cause := cause } else t
/-- Arming (R241). -/
def Trace.arm (t : Trace) : Trace :=
  { t with bufs := List.replicate 16 {}, state := 1, preShort := false, cause := 0, gap := 0, time := 0,
           cmd := false }

/-- Device time in units of 2⁻³⁰ ns as a DTIME (R275). -/
def dtimeOf (now : Nat) : BitVec 96 :=
  let t := now / 2 ^ 14
  let ns := t / 65536
  BitVec.ofNat 96 (t % 65536 + (ns % 1000000000) * 2 ^ 16 + (ns / 1000000000) % 2 ^ 48 * 2 ^ 48)

/-- `TRC` (R195, R238): a sample for a channel that takes this loop's instruction writes. -/
def ceTrcOp (c : Ce) (l : Fin 4) (x : Fin 8) (ch : Fin 16) : Ce :=
  let d := at_ c.trc.chs ch {}
  let c1 := if d.src == 1 && d.lnum == (c.lane l).loop
    then { c with trc := c.trc.sample ch ((c.lane l).xr x) c.f (dtimeOf c.nextB) } else c
  c1.onLane l 1 id

end Sys2Proof.Machine
end

