-- ==== Sys2Proof/Machine/CeFrame.lean ====
section
/-! DEFINITION. Loop executions and frame boundaries: decoding of CE instructions (R194, R195), the check of a
program (R197), the hand-over stage (R232), parking (R212), frames (R204 to R210) and the hold (R216). -/

namespace Sys2Proof.Machine

/-- The condition codes of R196. -/
def ceCondOf : Nat → Option CeCond
  | 0 => some .always
  | 1 => some .z
  | 2 => some .nz
  | 3 => some .n
  | 4 => some .nn
  | 5 => some .lim
  | 6 => some .nlim
  | 7 => some .first
  | 8 => some .nfirst
  | _ => none

/-- The instruction that a word encodes (R194, R195). -/
def ceDecode (i : BitVec 32) : Option CeInstr :=
  let n := i.toNat
  let op := bitsOf n 26 6
  let a : Fin 4 := Fin.ofNat 4 (bitsOf n 24 2)
  let b : Fin 4 := Fin.ofNat 4 (bitsOf n 22 2)
  let x : Fin 8 := Fin.ofNat 8 (bitsOf n 19 3)
  let y : Fin 8 := Fin.ofNat 8 (bitsOf n 16 3)
  let w : BitVec 8 := BitVec.ofNat 8 n
  let tb : Fin 16 := Fin.ofNat 16 (bitsOf n 0 4)
  let e : Fin 4 := Fin.ofNat 4 (bitsOf n 8 2)
  match op with
  | 0x00 => some .nop
  | 0x01 => some .fin
  | 0x02 => some (.ldx x w)
  | 0x03 => some (.stx x w)
  | 0x04 => some (.ldi x (BitVec.ofNat 16 n))
  | 0x05 => some (.lda a w)
  | 0x06 => some (.sta a w)
  | 0x07 => some (.stq a w)
  | 0x08 => some (.movq x a)
  | 0x09 => some (.ldax a x)
  | 0x0A => some (.mova a b)
  | 0x0B => some (.rd x w)
  | 0x0C => some (.wr x w)
  | 0x0D => some (.mpy a x y)
  | 0x0E => some (.mac a x y)
  | 0x0F => some (.msu a x y)
  | 0x10 => some (.adda a b)
  | 0x11 => some (.suba a b)
  | 0x12 => some (.addx a x)
  | 0x13 => some (.subx a x)
  | 0x14 => some (.addq x y)
  | 0x15 => some (.subq x y)
  | 0x16 => some (.nega a)
  | 0x17 => some (.absa a)
  | 0x18 => some (.sha a (BitVec.ofNat 6 n))
  | 0x19 => some (.lima a x y)
  | 0x1A => some (.cmpa a x)
  | 0x1B => (ceCondOf (bitsOf n 12 4)).map fun c => .br c (BitVec.ofNat 7 n)
  | 0x1C => some (.tbl x tb e)
  | 0x1D => some (.tblf x tb e)
  | 0x1E => some (.trc x (Fin.ofNat 16 (bitsOf n 0 4)))
  | 0x1F => some (.flg (BitVec.ofNat 4 n) (BitVec.ofNat 4 (n / 16)))
  | _ => none

/-- The word of an instruction, unused fields 0 (R194). -/
def ceWord (op a b x y opnd : Nat) : BitVec 32 :=
  BitVec.ofNat 32 (op * 2 ^ 26 + a * 2 ^ 24 + b * 2 ^ 22 + x * 2 ^ 19 + y * 2 ^ 16 + opnd)
/-- The code of a condition (R196). -/
def ceCondCode : CeCond → Nat
  | .always => 0
  | .z => 1
  | .nz => 2
  | .n => 3
  | .nn => 4
  | .lim => 5
  | .nlim => 6
  | .first => 7
  | .nfirst => 8
/-- The word that encodes an instruction (R194, R195). -/
def ceEncode : CeInstr → BitVec 32
  | .nop => ceWord 0 0 0 0 0 0
  | .fin => ceWord 1 0 0 0 0 0
  | .ldx x w => ceWord 2 0 0 x 0 w.toNat
  | .stx x w => ceWord 3 0 0 x 0 w.toNat
  | .ldi x i => ceWord 4 0 0 x 0 i.toNat
  | .lda a w => ceWord 5 a 0 0 0 w.toNat
  | .sta a w => ceWord 6 a 0 0 0 w.toNat
  | .stq a w => ceWord 7 a 0 0 0 w.toNat
  | .movq x a => ceWord 8 a 0 x 0 0
  | .ldax a x => ceWord 9 a 0 x 0 0
  | .mova a b => ceWord 0x0A a b 0 0 0
  | .rd x p => ceWord 0x0B 0 0 x 0 p.toNat
  | .wr x p => ceWord 0x0C 0 0 x 0 p.toNat
  | .mpy a x y => ceWord 0x0D a 0 x y 0
  | .mac a x y => ceWord 0x0E a 0 x y 0
  | .msu a x y => ceWord 0x0F a 0 x y 0
  | .adda a b => ceWord 0x10 a b 0 0 0
  | .suba a b => ceWord 0x11 a b 0 0 0
  | .addx a x => ceWord 0x12 a 0 x 0 0
  | .subx a x => ceWord 0x13 a 0 x 0 0
  | .addq x y => ceWord 0x14 0 0 x y 0
  | .subq x y => ceWord 0x15 0 0 x y 0
  | .nega a => ceWord 0x16 a 0 0 0 0
  | .absa a => ceWord 0x17 a 0 0 0 0
  | .sha a s => ceWord 0x18 a 0 0 0 s.toNat
  | .lima a x y => ceWord 0x19 a 0 x y 0
  | .cmpa a x => ceWord 0x1A a 0 x 0 0
  | .br c t => ceWord 0x1B 0 0 0 0 (ceCondCode c * 4096 + t.toNat)
  | .tbl x t e => ceWord 0x1C 0 0 x 0 (t + e * 256)
  | .tblf x t e => ceWord 0x1D 0 0 x 0 (t + e * 256)
  | .trc x ch => ceWord 0x1E 0 0 x 0 ch
  | .flg s c => ceWord 0x1F 0 0 0 0 (s.toNat + c.toNat * 16)

/-- Cycles of an instruction (R195). -/
def ceCost : CeInstr → Nat
  | .tbl .. => 4
  | .tblf .. => 4
  | _ => 1

/-! The hand-over stage (R230 to R234). -/

/-- What the stage gives: the value staged, the loop's new stage state, the preset of the integrator, and the mark
that the final limit clamped. -/
structure StageOut where
  y : Int
  phase : HandPhase
  k : Nat
  y0 : Int
  clamped : Bool
  preset : Option Int := none
  lim : Bool := false
  deriving DecidableEq, Repr

/-- `y` moved toward `tgt` by at most `rate` (R232). -/
def stepToward (y tgt : Int) (rate : Nat) : Int :=
  if rate = 0 then tgt else if y < tgt then min tgt (y + rate) else max tgt (y - rate)

/-- The stage of R232 in the phase it has. -/
def stagePhase (mp : ModePar) (s : StageOut) (u yPrev : Int) : StageOut :=
  let w := mp.arg % 256
  match s.phase with
  | .clamp =>
    let tgt := clamp mp.lo mp.hi s.y0
    let y := stepToward yPrev tgt mp.rate
    { s with y := y, preset := if mp.method = 0 && w != 0xFF then some (y - u) else none,
             y0 := if y = tgt then tgt else s.y0, phase := if y = tgt then .method else .clamp }
  | .method =>
    let r : StageOut :=
      if mp.method = 0 then
        if w != 0xFF then { s with y := s.y0, preset := some (s.y0 - u), phase := .none }
        else { s with y := u, phase := .none }
      else if mp.method = 1 then
        let k := s.k + 1
        if k = mp.arg then { s with k := k, y := u, phase := .none }
        else { s with k := k, y := s.y0 + ((u - s.y0) * k * 2 + mp.arg) / (2 * (mp.arg : Int)) }
      else if ((u - s.y0).natAbs : Int) ≤ mp.arg then { s with y := u, phase := .none }
      else { s with y := s.y0 }
    { r with y := clamp mp.lo mp.hi r.y, lim := decide (r.y < mp.lo) || decide (mp.hi < r.y) }
  | .none => { s with y := clamp mp.lo mp.hi u, lim := decide (u < mp.lo) || decide (mp.hi < u) }

/-- The hand-over stage (R232): `start` where a hand-over starts at this execution. -/
def handStage (mp : ModePar) (start : Bool) (st : LoopSt) (u yPrev : Int) : StageOut :=
  let s : StageOut :=
    if start then
      if yPrev < mp.lo || mp.hi < yPrev then { y := u, phase := .clamp, k := 0, y0 := yPrev, clamped := true }
      else { y := u, phase := .method, k := 0, y0 := yPrev, clamped := false }
    else { y := u, phase := st.phase, k := st.k, y0 := st.y0, clamped := st.clamped }
  stagePhase mp s u yPrev

/-- The mode in effect under R231. -/
def modeInEffect (nmode : Nat) (front : BitVec 16) (kept : Nat) : Nat :=
  if front.toNat < nmode then front.toNat else kept

/-- The value staged on a port: `TPV` is the loop's own (R199). -/
def Ce.stagedOn (c : Ce) (n port : Nat) : Q15 := if port = 0x90 then (c.loopSt n).tpv else SMap.get 0 c.staged port
/-- The engine with a value staged on a port (R199). -/
def Ce.stage (c : Ce) (n port : Nat) (v : Q15) : Ce :=
  if port = 0x90 then c.updLoop n fun s => { s with tpv := v }
  else { c with staged := SMap.set 0 c.staged port v,
                touched := if c.touched.contains port then c.touched else port :: c.touched,
                held := if c.held.contains port then c.held else port :: c.held }

/-- The `BT_TORQUE` ports that a loop's program writes (R199, R235). -/
def LoopCfg.btPorts (d : LoopCfg) : List Nat :=
  [0x98, 0x99].filter fun p => d.oport == p || d.prog.any fun i =>
    match ceDecode i with
    | some (.wr _ q) => q.toNat == p
    | _ => false

/-- A loop is initialised: its words are loaded from `INIT` and `FIRST` is set (R203, R214). -/
def Ce.initLoop (c : Ce) (d : LoopCfg) : Ce :=
  { c with words := SMap.setList 0 (SMap.erase c.words (d.lnum * 256) (d.lnum * 256 + 256)) (d.lnum * 256) (d.init.take 256),
           st := setLoopSt c.st d.lnum { down := { en := d.enInit } } }

/-- An execution starts in a lane: the registers and the condition state are cleared (R190). The 8 cycles before
the first instruction are charged (R197). -/
def Ce.begin (c : Ce) (l : Fin 4) (d : LoopCfg) (mode : Nat) : Ce :=
  c.updLane l fun r =>
    { r with a := List.replicate 4 0, x := List.replicate 8 0, z := true, n := false, limf := false,
             first := (c.loopSt d.lnum).firstPending, sat := false, aov := false, lim := false, inbad := false,
             pc := at_ d.entry mode 0, loop := d.lnum, mode := mode, done := false, cycles := r.cycles + 8, outs := [] }

/-- The sticky bits that an execution gives (R211). -/
def Lane.stickyBits (r : Lane) : Nat := b2n r.sat + 2 * b2n r.aov + 4 * b2n r.lim + 8 * b2n r.inbad

/-- `LFLAGS` of a loop without its `ABORTED` bit (R211). -/
def LoopSt.flags (s : LoopSt) (sticky : Nat) : BitVec 16 :=
  BitVec.ofNat 16 (sticky + 16 * b2n s.clamped + 32 * b2n s.active + 64 * b2n s.parked + 256 * b2n (s.down.tq != 0) +
    4096 * s.user.toNat)

/-- The read ports of loop `n` in an execution in `mode`, as they are latched (R198, R237). -/
def Ce.portsOf (c : Ce) (n mode : Nat) : Nat → Q15 :=
  c.readPort { loop := n, mode := mode, first := (c.loopSt n).firstPending }
/-- Samples of the node channels of a loop at its loop boundary, `rd` its read ports in the execution (R237, R238). -/
def Ce.nodeSamples (c : Ce) (n : Nat) (rd : Nat → Q15) : Ce :=
  let one (t : Trace) (p : Nat × TrcCh) : Trace :=
    if p.2.src == 2 && p.2.lnum == n && (t.state == 1 || t.state == 2) then
      let b := at_ t.bufs p.1 {}
      if b.skip + 1 < p.2.decim then { t with bufs := upd t.bufs p.1 fun b => { b with skip := b.skip + 1 } }
      else
        let v : Q15 :=
          if p.2.node = 0 then rd p.2.arg
          else if p.2.node = 1 then c.stagedOn n p.2.arg
          else if p.2.node = 2 then (c.word n p.2.arg).setWidth 16
          else if p.2.node = 3 then (match c.loopCfg n with | some d => if d.oport = 0 then 0 else c.stagedOn n d.oport | none => 0)
          else (c.loopSt n).lflags
        let t1 := { t with bufs := upd t.bufs p.1 fun b => { b with skip := 0 } }
        t1.sample p.1 v c.f (dtimeOf c.nextB)
    else t
  { c with trc := (enumFrom 0 c.trc.chs).foldl one c.trc }

/-- A flag trigger on a loop's `LFLAGS`, which were `was` at its previous execution, is judged at its loop boundary (R239, R240). -/
def Ce.flagTrigger (c : Ce) (n : Nat) (was : BitVec 16) : Ce :=
  let t := c.trc
  let o := was.getLsbD t.trig.arg
  let b := (c.loopSt n).lflags.getLsbD t.trig.arg
  if t.trig.tsrc == 2 && t.trig.lnum == n && ((bitOf t.trig.edge 0 && !o && b) || (bitOf t.trig.edge 1 && o && !b)) then
    { c with trc := t.fire c.f (dtimeOf c.nextB) }
  else c

/-- The channels of a loop that missed an execution: it counts as scheduled, and gives no sample (R238). -/
def Trace.miss (t : Trace) (n : Nat) : Trace :=
  if t.state = 1 || t.state = 2 then
    let mark (g : BitVec 16) (p : Nat × TrcCh) : BitVec 16 :=
      if p.2.src != 0 && p.2.lnum == n then g ||| BitVec.ofNat 16 (2 ^ p.1) else g
    { t with gap := (enumFrom 0 t.chs).foldl mark t.gap,
             bufs := (t.chs.zip t.bufs).map fun ((h, b) : TrcCh × TrcBuf) =>
               if h.src = 2 ∧ h.lnum = n then { b with skip := if b.skip + 1 < h.decim then b.skip + 1 else 0 } else b }
  else t

/-- A loop missed an execution, or had it stopped: `ABORTED` is the flag of its last execution (R207, R216, R218, R220). -/
def Ce.missed (c : Ce) (n : Nat) : Ce :=
  let was := (c.loopSt n).lflags
  let c := c.updLoop n fun s => { s with aborted := true, lflags := s.lflags ||| 0x80, miss := min 65535 (s.miss + 1) }
  Ce.flagTrigger { c with trc := c.trc.miss n } n was

/-- The lane closes the execution after `END`: the hand-over stage, the staging of the ports and of the up buffer
(R197, R199, R210, R232, R235). `mode` is the mode in effect, `start` whether a hand-over starts. -/
def Ce.finish (c : Ce) (l : Fin 4) (d : LoopCfg) (mode : Nat) (start : Bool) : Ce :=
  let r := c.lane l
  let n := d.lnum
  let mp := at_ d.modes mode {}
  let wrote (p : Nat) : Option Q15 := (r.outs.find? fun o => o.1 == p).map (·.2)
  -- ports other than OPORT: the last write counts
  let ports := (r.outs.map (·.1)).dedup.filter fun p => p != d.oport && !(0x98 ≤ p && p ≤ 0x99)
  let c1 := ports.foldl (fun c p => match wrote p with | some v => c.stage n p v | none => c) c
  let c2 := d.btPorts.foldl (fun c p =>
    if p == d.oport then c
    else if mp.bt then (match wrote p with | some v => c.stage n p v | none => c) else c.stage n p 0) c1
  -- OPORT passes through the hand-over stage
  let c3 :=
    if d.oport = 0 then c2
    else
      let yPrev := (c.stagedOn n d.oport).toInt
      let u := match wrote d.oport with | some v => v.toInt | none => yPrev
      let s := handStage mp start (c2.loopSt n) u yPrev
      let w := mp.arg % 256
      let c4 := match s.preset with
        | some p => c2.setPair n w (sat40 ((c2.pair n w).toInt + p * 65536))
        | none => c2
      let ovf := match s.preset with | some p => clamps40 ((c2.pair n w).toInt + p * 65536) | none => false
      let btOut := (d.oport == 0x98 || d.oport == 0x99) && !mp.bt
      let c5 := c4.stage n d.oport (if btOut then 0 else sat16 s.y)
      let c6 := c5.updLoop n fun q =>
        { q with phase := s.phase, k := s.k, y0 := s.y0, clamped := s.clamped,
                 active := mp.method != 0 && s.phase != .none }
      c6.updLane l fun r => { r with lim := r.lim || s.lim, aov := r.aov || ovf }
  let lane := c3.lane l
  let c7 := c3.updLoop n fun q =>
    let q := { q with mode := mode, firstPending := false, parked := false, resume := false, lastEnc := c.lat.enc }
    let fl := q.flags lane.stickyBits
    { q with lflags := fl,
             upNext := some { pv := q.tpv, out := if d.oport = 0 then 0 else c3.stagedOn n d.oport, modeAct := mode, lflags := fl } }
  ((c7.nodeSamples n (c.portsOf n mode)).flagTrigger n (c.loopSt n).lflags).updLane l fun r =>
    { r with done := true, cycles := r.cycles + 4 }

/-- A hand-over starts at an execution in `mode` (R231, R338). -/
def LoopSt.handsOver (s : LoopSt) (mode : Nat) : Bool := (mode != s.mode || s.parked || s.resume) && !s.firstPending
/-- `END` (R195): the lane closes the execution of its loop in the mode in effect. -/
def ceEndOp (c : Ce) (l : Fin 4) : Ce :=
  let c1 := c.onLane l 1 id
  match c1.loopCfg (c1.lane l).loop with
  | some d =>
    let st := c1.loopSt d.lnum
    let mode := modeInEffect d.nmode st.down.mode st.mode
    c1.finish l d mode (st.handsOver mode)
  | none => c1.updLane l fun r => { r with done := true }

/-- One instruction issues in a lane (R195). -/
def ceIssue (c : Ce) (l : Fin 4) : CeInstr → Ce
  | .nop => ceNopOp c l
  | .fin => ceEndOp c l
  | .ldx x w => ceLdxOp c l x w
  | .stx x w => ceStxOp c l x w
  | .ldi x i => ceLdiOp c l x i
  | .lda a w => ceLdaOp c l a w
  | .sta a w => ceStaOp c l a w
  | .stq a w => ceStqOp c l a w
  | .movq x a => ceMovqOp c l x a
  | .ldax a x => ceLdaxOp c l a x
  | .mova a b => ceMovaOp c l a b
  | .rd x p => ceInOp c l x p
  | .wr x p => ceOutOp c l x p
  | .mpy a x y => ceMpyOp c l a x y
  | .mac a x y => ceMacOp c l a x y
  | .msu a x y => ceMsuOp c l a x y
  | .adda a b => ceAddaOp c l a b
  | .suba a b => ceSubaOp c l a b
  | .addx a x => ceAddxOp c l a x
  | .subx a x => ceSubxOp c l a x
  | .addq x y => ceAddqOp c l x y
  | .subq x y => ceSubqOp c l x y
  | .nega a => ceNegaOp c l a
  | .absa a => ceAbsaOp c l a
  | .sha a s => ceShaOp c l a s
  | .lima a x y => ceLimaOp c l a x y
  | .cmpa a x => ceCmpaOp c l a x
  | .br cc t => ceBrOp c l cc t
  | .tbl x t e => ceTblOp c l x t e
  | .tblf x t e => ceTblfOp c l x t e
  | .trc x ch => ceTrcOp c l x ch
  | .flg s k => ceFlgOp c l s k

/-- The lane runs its loop's program while the frame's `budget` of cycles lasts (R206, R207). The closing 4 cycles
after `END` count as part of the execution. An execution without `END` in reach stops. -/
def Ce.runProg (l : Fin 4) (d : LoopCfg) (budget : Nat) : Nat → Ce → Ce
  | 0, c => c
  | fuel + 1, c =>
    let r := c.lane l
    if r.done then c
    else match d.prog[r.pc]? with
      | none => c
      | some i =>
        match ceDecode i with
        | none => c
        | some ci =>
          let need := if ci = .fin then 5 else ceCost ci
          if budget < r.cycles + need then { c with lanes := upd c.lanes l fun r => { r with cycles := budget } }
          else Ce.runProg l d budget fuel (ceIssue (c.updLane l fun r => { r with issued := r.issued + 1 }) l ci)

/-- A loop scheduled in the frame is parked: `PARK` is staged and `MODE_ACT` reports −1 (R212, R233, R235). -/
def Ce.park (c : Ce) (d : LoopCfg) : Ce :=
  let c1 := if d.oport = 0 then c else c.stage d.lnum d.oport d.park
  let c2 := d.btPorts.foldl (fun c p => c.stage d.lnum p 0) c1
  let c3 := c2.updLoop d.lnum fun q =>
    let q := { q with parked := true, clamped := false, active := false, phase := .none, k := 0 }
    let fl := q.flags 0
    { q with lflags := fl, upNext := some { pv := q.tpv, out := if d.oport = 0 then 0 else c2.stagedOn d.lnum d.oport,
                                            modeAct := -1, lflags := fl } }
  (c3.nodeSamples d.lnum (c.portsOf d.lnum (c.loopSt d.lnum).mode)).flagTrigger d.lnum (c.loopSt d.lnum).lflags

/-- A loop after an execution in `mode` that was stopped: it was the first execution, and the last of its mode; a hand-over that started in
it falls to the next one, since nothing was staged (R231; log entry 141). -/
def LoopSt.stopped (s : LoopSt) (mode : Nat) (enc : List (BitVec 32)) : LoopSt :=
  { s with resume := s.handsOver mode, mode := mode, firstPending := false, parked := false, lastEnc := enc }
/-- One loop scheduled in the frame, on its lane, within the frame's budget; the second part tells that it was stopped
or not executed (R206, R207, R212). -/
def Ce.runLoop (l : Fin 4) (budget : Nat) (c : Ce) (d : LoopCfg) : Ce × Bool :=
  let st := c.loopSt d.lnum
  if !st.down.en then (c.park d, false)
  else if budget ≤ (c.lane l).cycles then ((c.updLane l fun r => { r with lost := r.lost + 1 }).missed d.lnum, true)
  else
    let mode := modeInEffect d.nmode st.down.mode st.mode
    let c1 := Ce.runProg l d budget 130 (c.begin l d mode)
    if (c1.lane l).done then (c1.updLane l fun r => { r with execs := r.execs + 1 }, false)
    else
      -- stopped at the boundary: staged outputs and samples are discarded, state words stay (R207, R238)
      let c2 := (({ c1 with trc := c.trc } : Ce).updLane l fun r =>
        { r with done := true, outs := [], cycles := max budget r.cycles, lost := r.lost + 1 }).missed d.lnum
      (c2.updLoop d.lnum fun q => q.stopped mode c.lat.enc, true)

/-- The loops of lane `l` that frame `f` schedules, in ascending slot order (R171, R204, R206). -/
def Ce.scheduled (c : Ce) (l : Nat) : List LoopCfg :=
  let ls := c.cfg.filterMap fun d =>
    match c.place.find? fun p => p.1 == d.lnum with
    | some (_, pl, slot) => if pl == l && c.f % d.period == d.phase then some (slot, d) else none
    | none => none
  (ls.mergeSort fun a b => decide (a.1 ≤ b.1)).map (·.2)

/-- Lane `l` runs the loops of the frame; `true` where it overran (R206, R207). -/
def Ce.runLane (c : Ce) (l : Fin 4) (budget : Nat) : Ce × Bool :=
  let c1 := c.updLane l fun r => { r with cycles := 0, issued := 0, execs := 0, lost := 0 }
  let p := (c.scheduled l).foldl (fun (p : Ce × Bool) d =>
    let q := Ce.runLoop l budget p.1 d
    (q.1, p.2 || q.2)) (c1, false)
  let c3 := p.1.updLane l fun r =>
    { r with max := Nat.max r.max (min 65535 r.cycles), ovr := if p.2 then r.ovr + 1 else r.ovr }
  (if p.2 then { c3 with overrun := c3.overrun ||| BitVec.ofNat 4 (2 ^ l.val) } else c3, p.2)

/-- All four lanes run the frame; the second part lists the lanes that overran. -/
def Ce.runLanes (c : Ce) (budget : Nat) : Ce × List Nat :=
  [0, 1, 2, 3].foldl (fun (p : Ce × List Nat) (l : Fin 4) =>
    let q := p.1.runLane l budget
    (q.1, if q.2 then p.2 ++ [l.val] else p.2)) (c, [])

/-- Staged values take effect, up buffers with them (R206 step 1, R210, R211). -/
def Ce.applyStaged (c : Ce) : Ce :=
  { c with eff := c.staged, touched := [],
           st := c.st.map fun p => (p.1, match p.2.upNext with
             | some u => { p.2 with up := some u, upNext := none, sticky := p.2.sticky ||| u.lflags.setWidth 4 }
             | none => p.2) }

/-- The `LFLAGS` that a task reads with the up buffer: the sticky bits are those since it last latched the buffer (R211). -/
def LoopSt.delivered (s : LoopSt) (u : UpBuf) : BitVec 16 :=
  (u.lflags &&& 0xFF70) ||| s.sticky.setWidth 16 ||| (if s.aborted then 0x80 else 0)
/-- The owning task latches the up buffer: the sticky bits clear (R211). -/
def Ce.latchUp (c : Ce) (n : Nat) : Ce := c.updLoop n fun s => { s with sticky := 0, aborted := false }

/-- The inactive bank of a table becomes active; `service` where it was loaded by service (R227, R228, R245). -/
def TabSt.flip (t : TabSt) (service : Bool) : TabSt :=
  { t with bank1 := !t.bank1, pending := false, service := service, fresh := false, prep := false, partnerOk := false,
           switches := min 65535 (t.switches + 1) }
/-- Pending table banks become active at the boundary (R228). -/
def Ce.switchBanks (c : Ce) : Ce := { c with tabSt := c.tabSt.map fun t => if t.pending then t.flip true else t }
/-- The loops as they stand at a boundary (R217). -/
def Ce.shoot (c : Ce) : Ce := { c with shot := ⟨c.words, c.st, c.staged⟩ }

/-- Time and command triggers are judged at a boundary at device time `tB` (R240). -/
def Ce.boundaryTrigger (c : Ce) (past : Bool) (tB : BitVec 96) : Ce :=
  let t := c.trc
  if t.state = 1 && (t.cmd || (t.trig.tsrc == 3 && past)) then { c with trc := t.fire (c.f - 1) tB } else c

/-- Units of device time in a frame (R204). -/
def frameUnits : Nat := 50000 * 2 ^ 30
/-- The offset of a boundary from the device-time grid, in the shorter direction (R205). -/
def gridOffset (b : Nat) : Int :=
  let r := b % frameUnits
  if 2 * r ≤ frameUnits then (r : Int) else (r : Int) - frameUnits
/-- The length of the next frame in units of device time: at most 100 nominal ROOT cycles (250 ns) pull the grid back (R205). -/
def frameLength (off : Int) : Nat := ((frameUnits : Int) - clamp (-(250 * 2 ^ 30)) (250 * 2 ^ 30) off).toNat

/-- The frame count of the first boundary (R204). -/
def frameCount (b : Nat) : Nat := b / frameUnits % 2 ^ 64

/-- A frame of the hold passes: no loop executes, and scheduled loops miss it (R216). -/
def Ce.holdFrame (c : Ce) : Ce :=
  let due := c.cfg.filter fun d => (c.place.any fun p => p.1 == d.lnum) && c.f % d.period == d.phase
  { due.foldl (fun c d => c.missed d.lnum) c with hold := c.hold - 1 }

/-- The engine at a frame boundary, its read ports `lat` latched (R204 to R208): `act` where loops execute, `budget` the
ROOT cycles of the frame, `past` whether a time trigger's target has come. The second part lists the lanes that overran. -/
def Ce.boundary (c : Ce) (lat : CeLatch) (act past : Bool) (budget : Nat) : Ce × List Nat :=
  let b := c.nextB
  let c1 := if c.started then { c with f := (c.f + 1) % 2 ^ 64 } else { c with f := frameCount b, started := true }
  let off := gridOffset b
  let c2 := { c1.switchBanks.shoot with nextB := b + frameLength off, gridOff := off, lat := lat }
  if act then
    let c3 : Ce := { c2 with running := true, holding := decide (0 < c2.hold) }
    let c4 := c3.boundaryTrigger past (dtimeOf b)
    if 0 < c4.hold then (c4.holdFrame, []) else c4.runLanes budget
  else ({ c2 with running := false, hold := c2.hold - 1, holding := false }, [])

/-! The check of a loop program (R197). -/

/-- The bits of the fields that an operation uses, `OP` included (R194, R195). -/
def ceUsed (op : Nat) : Nat :=
  let fa := 3 * 2 ^ 24
  let fb := 3 * 2 ^ 22
  let fx := 7 * 2 ^ 19
  let fy := 7 * 2 ^ 16
  63 * 2 ^ 26 + match op with
  | 0x02 | 0x03 | 0x0B | 0x0C => fx + 0xFF
  | 0x04 => fx + 0xFFFF
  | 0x05 | 0x06 | 0x07 => fa + 0xFF
  | 0x08 | 0x09 | 0x12 | 0x13 | 0x1A => fa + fx
  | 0x0A | 0x10 | 0x11 => fa + fb
  | 0x0D | 0x0E | 0x0F | 0x19 => fa + fx + fy
  | 0x14 | 0x15 => fx + fy
  | 0x16 | 0x17 => fa
  | 0x18 => fa + 0x3F
  | 0x1B => 0xF07F
  | 0x1C | 0x1D => fx + 0x30F
  | 0x1E => fx + 0xF
  | 0x1F => 0xFF
  | _ => 0

/-- The largest cost of a path from each index to an `END`, none where some path falls off the end; `base` is the index
of the first instruction of the list (R196, R197). -/
def ceCosts : Nat → List CeInstr → List (Option Nat)
  | _, [] => []
  | base, i :: t =>
    let rest := ceCosts (base + 1) t
    let next := (rest.head?).join
    let target (k : Nat) : Option Nat := if base < k then (rest[k - base - 1]?).join else none
    let here : Option Nat :=
      match i with
      | .fin => some 1
      | .br .always k => (target k.toNat).map (· + 1)
      | .br _ k => match next, target k.toNat with
        | some p, some q => some (max p q + 1)
        | _, _ => none
      | _ => next.map (· + ceCost i)
    here :: rest

end Sys2Proof.Machine
end

