-- ==== Sys2Proof/Machine/CfgParse.lean ====
section
/-! DEFINITION. The sections of a configuration image read into their tables (R56, R57, R92 to R95, R126, R176, R201, R202,
R221, R222, R230, R247, R248, R256, R266, R288, R298, R302, R305, R363, R400 to R402, R429 to R433, R447, R453, R455, R467,
R469, R477, R478, R487, R490, R547, R560). What a table refuses is in CfgCheck.lean. -/

namespace Sys2Proof.Machine

/-- `d` for a zero. -/
def orDef (n d : Nat) : Nat := if n = 0 then d else n
/-- `n` records of `size` bytes from offset `off`, each as its bytes. -/
def recs (b : Bytes) (off size n : Nat) : List Bytes := tabulate n fun i => slice b (off + size * i) size

/-- `IDENTITY` (R56, R316, R533). -/
def parseIdent (b : Bytes) : Option Ident :=
  let c := field b 4 4
  let s := field b 8 2
  let node := field b 0 2
  match parseTandemRec b with
  | none => none
  | some t =>
    if b.length = 96 ∧ 1 ≤ node ∧ node ≤ 4095 ∧ field b 2 2 = 1 ∧ (c = 0 ∨ 100 ≤ c ∧ c ≤ 100000) ∧
        (s = 0 ∨ 10 ≤ s ∧ s ≤ 3600) ∧ field b 80 2 ≤ 3600 then
      some { node := node, cwin := orDef c 1000, swin := orDef s 60, station := slice b 16 48, trec := t,
             repwin := orDef (field b 80 2) 10 }
    else none

/-- `REQUIREMENTS` (R57). -/
def parseReqs (b : Bytes) : Reqs :=
  { mainLo := field b 0 4, mainHi := field b 4 4, siLo := field b 8 4, siHi := field b 12 4, hwMin := field b 16 1,
    hwMax := field b 17 1, features := field b 20 4 }
/-- Step 7 of R54 (R57). -/
def Reqs.met (r : Reqs) (main si hw : Nat) (variantE : Bool) : Bool :=
  decide (r.mainLo ≤ main) && decide (main ≤ r.mainHi) && decide (r.siLo ≤ si) && decide (si ≤ r.siHi) &&
  decide (r.hwMin ≤ hw) && decide (hw ≤ r.hwMax) && (!bitOf r.features 0 || variantE) && decide (r.features < 2)

/-- A DIO record (R455). -/
def parseDio (b : Bytes) : DioCfg :=
  { use := field b 0 1, kick := field b 1 1, otmoMs := orDef (field b 2 2) 20, fn := field b 4 2, chsup := bitOf (field b 6 1) 0,
    openload := bitOf (field b 6 1) 1, chmax := field b 8 1, chwin := field b 9 1, stuck := field b 10 2, dtest := field b 12 2 }
/-- A PI record (R467). -/
def parsePi (b : Bytes) : PiCfg :=
  { use := field b 0 1, glitch := field b 1 1, edge := field b 2 1, fgateMs := orDef (field b 3 1) 10, fmax := field b 4 4 }
/-- An ENC record (R469). -/
def parseEnc (b : Bytes) : EncCfg :=
  { kind := field b 0 1, zmode := field b 1 1, sbits := field b 2 1, gray := bitOf (field b 3 1) 0, errBit := bitOf (field b 3 1) 1,
    sclk := field b 4 2, sper := field b 6 2, vwin := field b 8 2, vmax := field b 12 4 }
/-- An AI record (R477). -/
def parseAi (b : Bytes) : AiCfg :=
  { use := field b 0 1, rate := field b 1 1, ls := field b 2 1 == 1, hart := bitOf (field b 3 1) 0, vtx := field b 4 2,
    rloop := field b 6 2 }
/-- An AO record (R478). -/
def parseAo (b : Bytes) : AoCfg :=
  { use := field b 0 1, kick := field b 1 1, otmoMs := orDef (field b 2 2) 20, kval := BitVec.ofNat 32 (field b 4 4),
    hart := bitOf (field b 8 1) 0 }
/-- A TOU record (R298). -/
def parseTou (b : Bytes) : TouCfg :=
  { unum := field b 0 1, route := field b 1 1, edge := field b 2 1, nocal := bitOf (field b 3 1) 0, width := field b 4 4,
    period := field b 8 4, latePol := field b 12 1, lockReq := field b 13 1 }
/-- A TCU record (R302). -/
def parseTcu (b : Bytes) : TcuCfg := { unum := field b 0 1, src := field b 1 1, edge := field b 2 1 }
/-- A table of records at an offset of the section, `n` of them; none where the offset is 0. -/
def tableAt {α : Type} (b : Bytes) (off size n : Nat) (f : Bytes → α) : List α :=
  if off = 0 then [] else (recs b off size n).map f
/-- `HARDWARE_MAP` (R453). -/
def parseHw (c : Cfg) (b : Bytes) : Cfg :=
  { c with
    dio := tableAt b (field b 4 4) 16 32 parseDio, pi := tableAt b (field b 8 4) 8 8 parsePi,
    enc := tableAt b (field b 12 4) 16 4 parseEnc, ai := tableAt b (field b 16 4) 16 16 parseAi,
    ao := tableAt b (field b 20 4) 16 8 parseAo, tou := tableAt b (field b 28 4) 16 (field b 24 1) parseTou,
    tcu := tableAt b (field b 32 4) 4 (field b 25 1) parseTcu }

/-- A pin entry (R176). -/
def parsePin (b : Bytes) : Pin :=
  { kind := field b 0 1, a := field b 1 1, b := field b 2 2, target := field b 4 4, value := field b 8 4 }
/-- A task entry (R127). -/
def parseTask (b : Bytes) : TaskCfg :=
  { kind := field b 0 1, prio := field b 1 1, ovpol := field b 2 1, period := field b 4 4, phase := field b 8 4,
    oofs := field b 12 4, trig := field b 16 4, minint := field b 20 4 }
/-- A byte that names a task, 0xFF for none. -/
def optTask (n : Nat) : Option Nat := if n = 0xFF then none else some n
/-- `TASKS` (R126, R176). -/
def parseTasks (b : Bytes) : TasksCfg :=
  { tasks := (recs b 16 32 16).map parseTask, restart := BitVec.ofNat 32 (field b 4 4), lockP3 := optTask (field b 8 1),
    lockP4 := optTask (field b 9 1),
    pins := if 528 < b.length then (recs b 532 12 (Nat.min 4096 (field b 528 4))).map parsePin else [] }

/-- A `MODEPAR` entry (R230). -/
def parseModePar (b : Bytes) : ModePar :=
  let h := field b 6 2
  { lo := sfield b 0 2, hi := sfield b 2 2, rate := field b 4 2, method := h % 4, bt := bitOf h 2, arg := h / 8 }
/-- A loop descriptor with its program and initial words (R202). -/
def parseLoop (sec b : Bytes) : LoopCfg :=
  let plen := field b 12 1
  { lnum := field b 0 2, enInit := bitOf (field b 2 2) 0, lid := BitVec.ofNat 32 (field b 4 4), period := field b 8 2,
    phase := field b 10 2, nmode := field b 13 1, pwords := field b 14 1, oport := field b 15 1,
    entry := tabulate 4 fun i => field b (16 + i) 1,
    prog := tabulate plen fun i => BitVec.ofNat 32 (field sec (field b 20 4 + 4 * i) 4),
    init := if field b 24 4 = 0xFFFFFFFF then [] else tabulate 256 fun i => BitVec.ofNat 32 (field sec (field b 24 4 + 4 * i) 4),
    park := BitVec.ofNat 16 (field b 28 2), slayout := BitVec.ofNat 16 (field b 30 2),
    modes := tabulate 4 fun i => parseModePar (slice b (32 + 8 * i) 8), raw := b }
/-- `LOOPS` (R201). -/
def parseLoops (b : Bytes) : List LoopCfg := (recs b (field b 4 4) 64 (field b 0 2)).map (parseLoop b)

/-- A signal entry (R93). -/
def parseSig (b : Bytes) : SigCfg :=
  { stype := field b 0 1, const := bitOf (field b 1 1) 0, retain := bitOf (field b 1 1) 1, init := field b 4 4 }
/-- A binding entry (R95). -/
def parseBind (b : Bytes) : Bind :=
  let w := field b 0 4
  { sig := if w % 2 ^ 24 = 0xFFFFFF then none else some (w % 2 ^ 24), neg := bitOf w 24 }

/-- An alarm point descriptor (R248). -/
def parsePt (b : Bytes) : PtCfg :=
  { pid := BitVec.ofNat 32 (field b 0 4), pnum := field b 4 2, ptype := field b 6 1, invert := bitOf (field b 7 1) 0,
    shelvable := bitOf (field b 7 1) 1, badIsAlarm := bitOf (field b 7 1) 2, srckind := field b 8 1, level := field b 9 1,
    prio := field b 10 1, sgroup := field b 11 1, fgroup := field b 12 1, src := field b 16 4,
    lim := BitVec.ofNat 32 (field b 20 4), dband := BitVec.ofNat 32 (field b 24 4), ondly := field b 28 2, offdly := field b 30 2,
    aux := field b 32 4, shlvmax := field b 36 2 }
/-- A first-out group descriptor (R266). -/
def parseFo (b : Bytes) : FoCfg :=
  { rstsig := if field b 0 4 = 0xFFFFFFFF then none else some (field b 0 4), settle := orDef (field b 4 2) 20,
    gnum := field b 7 1, part := tabulate (field b 6 1) fun i => field b (8 + 2 * i) 2 }
/-- `ALARMS` (R247, R256). -/
def parseAlarms (b : Bytes) : AlarmsCfg :=
  { flood := orDef (field b 2 2) 100, points := (recs b (field b 4 4) 40 (field b 0 2)).map parsePt,
    sgrps := (recs b (field b 12 4) 8 (field b 8 2)).map fun r => { sig := field r 0 3, reldly := field r 4 2 },
    fgrps := (recs b (field b 16 4) 40 (field b 10 2)).map parseFo }

/-- The PTP record (R288). -/
def parsePtp (b : Bytes) : PtpCfg :=
  { profile := field b 0 1, gmCapable := bitOf (field b 1 1) 0, boundary := bitOf (field b 1 1) 1,
    transparent := bitOf (field b 1 1) 2, domain := field b 2 1, ports := BitVec.ofNat 3 (field b 3 1), prio1 := field b 4 1,
    prio2 := field b 5 1, clockClass := field b 6 1, stepMode := BitVec.ofNat 3 (field b 7 1), logSync := sfield b 8 1,
    logAnn := sfield b 9 1, logPdly := sfield b 10 1, annTmo := field b 11 1, stepLimit := field b 12 4, lockThr := field b 16 4,
    holdDrift := field b 20 4, holdLimit := field b 24 4 }
/-- The index of port `n`, P1 first; 5 for the number 0, which names no port (R401). -/
def portNo (n : Nat) : Nat := if n = 0 then 5 else n - 1
/-- The gate lists, one behind the other (R401). -/
def parseGates : Nat → Bytes → List GateList
  | 0, _ => []
  | n + 1, b =>
    let k := field b 1 1
    { port := portNo (field b 0 1), base := BitVec.ofNat 96 (field b 4 12),
      ents := (recs b 16 8 k).map fun e => { states := field e 0 1, interval := field e 4 4 } } ::
    parseGates n (b.drop (16 + 8 * k))
/-- A flow entry (R401). -/
def parseFlow (b : Bytes) : FlowCfg :=
  { fnum := field b 0 2, port := portNo (field b 2 1), tc := field b 3 1, udp := field b 4 1 == 1, key := field b 6 2,
    maxlen := field b 8 2, burst := field b 10 2 }
/-- A Spoke node entry (R402). -/
def parseNode (b : Bytes) : NodeCfg :=
  { node := field b 0 2, port := field b 2 1, pos := field b 3 1, vendor := field b 4 4, product := field b 8 4,
    minrev := field b 12 2, ilen := field b 14 1, olen := field b 15 1, tprep := field b 16 2, tapp := field b 18 2,
    linkd := field b 20 2, wdog := field b 22 1 }
/-- `NETWORK` (R400, R305). -/
def parseNet (b : Bytes) : NetCfg :=
  let at4 (o : Nat) := field b o 4
  { prmode := field b 1 1, vid := field b 2 2, stationIp := BitVec.ofNat 32 (at4 4), netmask := BitVec.ofNat 32 (at4 8),
    gateway := BitVec.ofNat 32 (at4 12), modIpA := BitVec.ofNat 32 (at4 16), modIpB := BitVec.ofNat 32 (at4 20),
    svcIp := BitVec.ofNat 32 (at4 24), svcMask := 0xFFFFFF00, ptp := if at4 28 = 0 then none else some (parsePtp (slice b (at4 28) 32)),
    gates := if at4 32 = 0 then [] else parseGates (field b 36 2) (b.drop (at4 32)),
    flows := tableAt b (at4 40) 16 (field b 38 2) parseFlow,
    fpins := tableAt b (at4 48) 12 (field b 44 2) fun r =>
      { kind := field r 0 1, a := field r 1 1, b := field r 2 2, target := field r 4 4, value := field r 8 4 },
    acts := tableAt b (at4 52) 8 (field b 46 2) fun r =>
      { action := field r 0 2, unit := field r 2 1, latePol := field r 3 1, lockReq := field r 4 1 },
    nodes := tableAt b (at4 60) 32 (field b 56 2) parseNode,
    ports := (recs b 64 8 5).map fun r => { pen := field r 0 1 == 1, speed := field r 1 1, endd := field r 4 2 } }

/-- A field descriptor (R433). -/
def parseCanField (b : Bytes) : CanField :=
  { sbit := field b 0 2, len := field b 2 1, sgn := bitOf (field b 3 1) 0, big := bitOf (field b 3 1) 1 }
/-- The fields of an object (R432). -/
def parseCanFields (sec : Bytes) (pool : Nat) (e : Bytes) : List CanField :=
  (recs sec (pool + field e 8 4) 4 (field e 5 1)).map parseCanField
/-- A receive entry (R432). -/
def parseCanRx (sec : Bytes) (pool : Nat) (e : Bytes) : CanRxCfg :=
  let f := field e 4 1
  { id := BitVec.ofNat 29 (field e 0 4), ide := bitOf (field e 0 4) 29, classic := bitOf f 0, fd := bitOf f 1, svc := bitOf f 2,
    fastpkt := bitOf f 3, rtmo := field e 6 2, fields := parseCanFields sec pool e }
/-- A transmit entry (R432). -/
def parseCanTx (sec : Bytes) (pool : Nat) (e : Bytes) : CanTxCfg :=
  let f := field e 4 1
  { id := BitVec.ofNat 29 (field e 0 4), ide := bitOf (field e 0 4) 29, fd := bitOf f 0, brs := bitOf f 1, persistent := bitOf f 2,
    svc := bitOf f 3, fastpkt := bitOf f 4, dlen := field e 6 2, txtmo := orDef (field e 12 2) 10,
    fields := parseCanFields sec pool e }
/-- A controller record with its tables (R430, R447). -/
def parseCanCtrl (sec : Bytes) (pool : Nat) (b : Bytes) : CanCtrlCfg :=
  let so := field b 24 4
  { cen := field b 0 1 == 1, fd := field b 1 1 == 1, nbr := field b 2 2, dbr := field b 4 2, nsp := orDef (field b 6 1) 80,
    dsp := orDef (field b 7 1) 75, autorec := bitOf (field b 8 1) 0, service := bitOf (field b 8 1) 1, boffDly := field b 10 2,
    rx := tableAt sec (field b 16 4) 16 (field b 12 2) (parseCanRx sec pool),
    tx := tableAt sec (field b 20 4) 16 (field b 14 2) (parseCanTx sec pool),
    svc := if so = 0 then {} else { name := BitVec.ofNat 64 (field sec so 8), paddr := field sec (so + 8) 1,
                                    amin := field sec (so + 9) 1, amax := field sec (so + 10) 1 } }
/-- `CAN` (R429, R431). -/
def parseCan (b : Bytes) : CanCfg :=
  { cands := if field b 4 4 = 0 then canDefaultCands else (recs b (field b 4 4) 4 12).map fun r => (field r 0 2, field r 2 2),
    ctrls := (recs b 16 32 4).map (parseCanCtrl b (field b 8 4)) }

/-- `HART` (R490). -/
def parseHart (b : Bytes) : List HartCfg :=
  (recs b 16 16 (field b 0 1)).map fun r =>
    { ao := field r 0 1 == 1, ch := field r 1 1, acceptBurst := bitOf (field r 2 1) 0, checkId := bitOf (field r 2 1) 1,
      poll := field r 3 1, expdt := field r 4 2, mfr := field r 6 2, devid := field r 8 3, scan := field r 12 1,
      retry := field r 13 1, scanPer := field r 14 2 }
/-- `DISPLAY` (R547). -/
def parseDisplay (b : Bytes) : List IconCfg :=
  (recs b 16 8 (field b 0 1)).map fun r =>
    { icon := field r 0 1, invert := bitOf (field r 1 1) 0, badOn := bitOf (field r 1 1) 1, sig := field r 4 4 }
/-- `TRIMS` (R487). -/
def parseTrims (b : Bytes) : List TrimCfg :=
  (recs b 16 16 (field b 0 2)).map fun r =>
    { cls := field r 0 1, ch := field r 1 1, pos := field r 2 1, serial := field r 4 4, t4 := BitVec.ofNat 32 (field r 8 4),
      t20 := BitVec.ofNat 32 (field r 12 4) }
/-- `CREDENTIALS` (R560). -/
def parseCred (b : Bytes) : CredCfg :=
  { auths := (recs b (field b 4 4) 68 (field b 0 1)).map fun r => { pubkey := slice r 0 64, defrole := field r 64 1 },
    ents := (recs b (field b 8 4) 32 (field b 2 2)).map fun r =>
      { serial := beNat (slice r 0 20), ca := field r 20 1, role := field r 21 1, ports := field r 22 1, expires := field r 24 8 },
    actkey := slice b 16 32 }

end Sys2Proof.Machine
end

