-- ==== Sys2Proof/Machine/CfgNet.lean ====
section
/-! DEFINITION. The block net of an image: its tables, the expansion of composites and the checks of R88, R92 to R104, R117
(03_block_programs.md). -/

namespace Sys2Proof.Machine

/-- The result of a check: the rejection of the first violation, if there is one. -/
abbrev Viol := Option Reject

/-- `NET_INVALID` with its detail word (R98). -/
def netRej (table reason entry : Nat) : Reject := { code := 1, where_ := table * 2 ^ 28 + reason * 2 ^ 24 + entry % 2 ^ 24 }
/-- A violation where `b` holds. -/
def rejIf (b : Bool) (table reason entry : Nat) : Viol := if b then some (netRej table reason entry) else none
/-- The first violation of a list of checks. -/
def firstViol (l : List Viol) : Viol := l.findSome? id
/-- The first violation over the entries of a table, in index order. -/
def eachViol {α : Type} (l : List α) (f : Nat → α → Viol) : Viol := (enumFrom 0 l).findSome? fun p => f p.1 p.2

/-- An instance entry, or a member entry, as it stands in its table (R94, R103). -/
structure RawInst where
  iid : Nat
  type : Nat
  tver : Nat
  retain : Bool
  nport : Nat
  bind : Nat
  param : Nat
  deriving DecidableEq, Repr

/-- An instance entry (R94). -/
def parseInst (b : Bytes) : RawInst :=
  { iid := field b 0 4, type := field b 4 2, tver := field b 6 2, retain := bitOf (field b 8 2) 0, nport := field b 10 2,
    bind := field b 12 4, param := field b 16 4 }

/-- A composite definition (R103): ports as (type, is an output, local signal). -/
structure CompDef where
  members : List RawInst
  lsigs : List SigCfg
  lbinds : List Bind
  ports : List (Nat × Bool × Nat)
  inv : List Nat
  /-- Its tables lie within the section. -/
  inside : Bool
  deriving DecidableEq, Repr

/-- A composite definition from its entry (R103). -/
def parseComp (sec b : Bytes) : CompDef :=
  let nm := field b 2 2
  { members := (recs sec (field b 4 4) 20 nm).map parseInst,
    lsigs := (recs sec (field b 12 4) 8 (field b 8 4)).map parseSig,
    lbinds := (recs sec (field b 20 4) 4 (field b 16 4)).map parseBind,
    ports := (recs sec (field b 24 4) 4 (field b 0 2)).map fun r => (field r 0 1, field r 1 1 == 1, field r 2 2),
    inv := tabulate nm fun i => field sec (field b 28 4 + 2 * i) 2,
    inside := [field b 4 4 + 20 * nm, field b 12 4 + 8 * field b 8 4, field b 20 4 + 4 * field b 16 4, field b 24 4 + 4 * field b 0 2,
               field b 28 4 + 2 * nm].all fun e => decide (e ≤ sec.length) }

/-- The tables of a `BLOCKNET` section (R92). -/
structure RawNet where
  libmin : Nat
  sigs : List SigCfg
  insts : List RawInst
  binds : List Bind
  comps : List CompDef
  pool : Bytes
  fcode : Bytes
  pmcVisible : Bool
  dir : List (Nat × Nat)
  inv : List Nat
  deriving DecidableEq, Repr

/-- The section's tables (R92). -/
def parseRawNet (b : Bytes) : RawNet :=
  let dir := tabulate 16 fun i => (field b (64 + 8 * i) 4, field b (68 + 8 * i) 4)
  let total := (dir.map (·.2)).sum
  { libmin := field b 0 4, sigs := (recs b (field b 8 4) 8 (field b 4 4)).map parseSig,
    insts := (recs b (field b 16 4) 20 (field b 12 4)).map parseInst,
    binds := (recs b (field b 24 4) 4 (field b 20 4)).map parseBind,
    comps := (recs b (field b 32 4) 36 (field b 28 4)).map (parseComp b),
    pool := slice b (field b 40 4) (field b 36 4), fcode := slice b (field b 48 4) (field b 44 4),
    pmcVisible := bitOf (field b 52 4) 0, dir := dir,
    inv := tabulate (Nat.min total (b.length / 4)) fun i => field b (192 + 4 * i) 4 }

/-- An instance of the expanded net with where its bindings stand, and the flag that its entry lies in a definition. -/
structure XInst where
  cfg : InstCfg
  bindAt : Nat
  /-- Its outputs' number. -/
  nout : Nat
  member : Bool
  deriving DecidableEq, Repr

/-- A composite instance as expansion meets it: the place of its first member among the expanded instances, its identity, its
bindings and the ports of its definition. -/
structure XComp where
  pos : Nat
  iid : Nat
  member : Bool
  bindAt : Nat
  binds : List Bind
  ports : List (Nat × Bool × Nat)
  deriving DecidableEq, Repr
/-- What expansion has built so far (R104): signals, instances, composite instances, and the violations of instance entries as
(place among the expanded instances, reason). -/
structure Exp where
  sigs : List SigCfg := []
  insts : List XInst := []
  comps : List XComp := []
  bad : List (Nat × Nat) := []
  deriving DecidableEq, Repr

/-- The identity of a member (R102). -/
def memberId (parent mkey : Nat) : Nat := leNat (slice (sha256 (natLe 4 parent ++ natLe 4 mkey)) 0 4)
/-- Bytes of parameter `i` of a type (R96; log entry 107 for the widths that R105 does not give). -/
def paramWidth (code i : Nat) : Nat :=
  if code = 0x0010 ∨ code = 0x0011 ∨ code = 0x0051 ∨ code = 0x00B0 ∨ code = 0x00B1 ∨ code = 0x00B3 then 1
  else if 0x0080 ≤ code ∧ code ≤ 0x0084 ∨ code = 0x008B then 1
  else if code = 0x0030 ∨ code = 0x0032 ∨ code = 0x0061 ∨ code = 0x0065 then (if i = 1 then 1 else 4)
  else if code = 0x0050 then (if i = 0 then 1 else 4)
  else if code = 0x0060 then (if i = 4 then 1 else 4)
  else if code = 0x0071 ∨ code = 0x0090 then 2
  else if code = 0x0086 ∨ code = 0x0087 ∨ code = 0x00A2 then (if i = 2 then 1 else 2)
  else if code = 0x0088 ∨ code = 0x0089 then (if i = 0 then 1 else 2)
  else if code = 0x00A3 then (if i = 1 then 4 else 1)
  else if code = 0x00B2 then (if i = 0 then 2 else 1)
  else 4
/-- The words of a parameter block: the type's parameters at offset `off`, each over its own width, all zero for the type's defaults
(R94, R96; log entry 107). -/
def paramWords (pool : Bytes) (r : LibRow) (tver off : Nat) : List (BitVec 32) :=
  if off = 0xFFFFFFFF then List.replicate (libParams r tver 0) 0
  else tabulate (libParams r tver (Nat.min 32 (field pool off 4))) fun i =>
    BitVec.ofNat 32 (field pool (off + 4 * i) (paramWidth r.code i))
/-- The bindings `[i, i + n)` of a table; entries past its end are unconnected. -/
def bindsAt (l : List Bind) (i n : Nat) : List Bind := tabulate n fun k => at_ l (i + k) {}

/-- One instance of a library type added to the net. -/
def Exp.addInst (e : Exp) (pool : Bytes) (r : RawInst) (iid : Nat) (retain : Bool) (binds : List Bind) (bindAt : Nat) (member : Bool) :
    Exp × List Nat :=
  let row := libRow r.type
  let ps := match row with | some w => paramWords pool w r.tver r.param | none => []
  let nout := match row with | some w => w.outs.length | none => 0
  ({ e with insts := e.insts ++ [{ cfg := { iid := BitVec.ofNat 32 iid, type := r.type, tver := r.tver, retain := retain,
                                            binds := binds, params := ps },
                                   bindAt := bindAt, nout := nout, member := member }] },
   [e.insts.length])

/-- Where the local signals of a definition go (R104): those that a port names to the parent's binding, the others to new
signals. -/
def localMap (d : CompDef) (outer : List Bind) (next : Nat) : List Bind × List SigCfg :=
  let step (st : List Bind × List SigCfg) (p : Nat × SigCfg) : List Bind × List SigCfg :=
    match indexOf? (fun q : Nat × Bool × Nat => q.2.2 == p.1) d.ports with
    | some k => (st.1 ++ [at_ outer k {}], st.2)
    | none => (st.1 ++ [{ sig := some (next + st.2.length) }], st.2 ++ [p.2])
  (enumFrom 0 d.lsigs).foldl step ([], [])
/-- A signal index that no net holds. -/
def noSig : Nat := 2 ^ 32
/-- A local binding in terms of the expanded net. -/
def mapBind (m : List Bind) (b : Bind) : Bind :=
  match b.sig with
  | none => b
  | some s => let t := at_ m s { sig := some noSig }; { sig := t.sig, neg := xor b.neg t.neg }
/-- A binding of the section's own table: a signal entry, or none. -/
def topBind (nsig : Nat) (b : Bind) : Bind :=
  match b.sig with
  | none => b
  | some s => if s < nsig then b else { b with sig := some noSig }
/-- What an instance entry violates on its own (R98 to R102): its number of bindings, their place, its parameters' place. `tab` is the
length of its binding table, `ports` the number of its ports where that is fixed. -/
def RawInst.faults (r : RawInst) (tab pool : Nat) (ports : Option Nat) : List Nat :=
  (if 32 < r.nport then [10] else []) ++
  (if (match ports with | some n => r.nport != n | none => false) || decide (tab < r.bind + r.nport) then [1] else []) ++
  (match libRow r.type with
   | some w => if r.param ≠ 0xFFFFFFFF ∧ 0 < w.params ∧ pool < r.param + 4 * w.params then [1] else []
   | none => [])

/-- Violations noted at the place that the next instance takes. -/
def Exp.note (e : Exp) (reasons : List Nat) : Exp := { e with bad := e.bad ++ reasons.map fun k => (e.insts.length, k) }
/-- One instance entry expanded (R104); the result lists its instances in the order of execution. `tab` is the table of its bindings,
`mp` what a binding of it means in the expanded net, `path` the composite types around it: a ninth level of composites is a `LIMIT`
(R99), a definition within itself `NESTING` (log entry 107). Fuel is one more than the levels that are left. -/
def expandInst (raw : RawNet) : Nat → Exp → RawInst → Nat → Bool → List Bind → (Bind → Bind) → List Nat → Exp × List Nat
  | 0, e, _, _, _, _, _, _ => (e, [])
  | fuel + 1, e, r, iid, retain, tab, mp, path =>
    let member := !path.isEmpty
    let binds := (bindsAt tab r.bind (Nat.min 64 r.nport)).map mp
    if r.type < 0x8000 then (e.note (r.faults tab.length raw.pool.length none)).addInst raw.pool r iid retain binds r.bind member
    else match raw.comps[r.type - 0x8000]? with
    | none => (e.note [2], [])
    | some d =>
      if path.contains r.type then (e.note [12], []) else if 8 ≤ path.length then (e.note [10], []) else
      let lm := localMap d binds e.sigs.length
      let e0 := e.note (r.faults tab.length raw.pool.length (some d.ports.length))
      let e1 := { e0 with sigs := e.sigs ++ lm.2,
                          comps := e.comps ++ [{ pos := e.insts.length, iid := iid, member := member, bindAt := r.bind, binds := binds, ports := d.ports }] }
      let step (st : Exp × List (List Nat)) (mb : RawInst) : Exp × List (List Nat) :=
        let r1 := expandInst raw fuel st.1 mb (memberId iid mb.iid) (retain || mb.retain) d.lbinds (mapBind lm.1) (r.type :: path)
        (r1.1, st.2 ++ [r1.2])
      let r2 := d.members.foldl step (e1, [])
      (r2.1, (d.inv.map fun k => at_ r2.2 k []).flatten)

/-- The expanded net's signals and instances, and for each instance entry its instances in the order of execution. -/
def expandAll (raw : RawNet) : Exp × List (List Nat) :=
  let step (st : Exp × List (List Nat)) (p : RawInst) : Exp × List (List Nat) :=
    let r1 := expandInst raw 9 st.1 p p.iid p.retain raw.binds (topBind raw.sigs.length) []
    (r1.1, st.2 ++ [r1.2])
  raw.insts.foldl step ({ sigs := raw.sigs }, [])

/-- The port types of an instance in binding order with the mark of an output. -/
def XInst.ports (x : XInst) : List (PortT × Bool) :=
  match libRow x.cfg.type with
  | none => []
  | some r => ((r.inPorts (x.cfg.binds.length - x.nout)).map fun p => (p.1, false)) ++ r.outs.map fun t => (t, true)
/-- The type of a signal. -/
def sigType (sigs : List SigCfg) (b : Bind) : Option Nat := b.sig.bind fun s => (sigs[s]?).map (·.stype)
/-- The type of the value of `SYSVAR` selection `n` (R118). -/
def sysvarType (n : Nat) : Nat := at_ [6, 7, 7, 3, 1, 2, 1, 1, 2, 2, 2, 3, 3, 2, 2, 2, 2, 4] n 3
/-- A port is polymorphic. -/
def isPoly : PortT → Bool
  | .num => true
  | .numt => true
  | _ => false
/-- The type that the polymorphic ports of an instance take: that of the first connected one (R88). -/
def polyOf (sigs : List SigCfg) (x : XInst) : Nat :=
  ((x.ports.zip x.cfg.binds).findSome? fun p => if isPoly p.1.1 then sigType sigs p.2 else none).getD 3

/-- The instances of each task in order, by the invocation table (R97). -/
def taskLists (raw : RawNet) (orders : List (List Nat)) : List (List Nat) :=
  raw.dir.map fun d => (tabulate (Nat.min d.2 65536) fun k => at_ orders (at_ raw.inv (d.1 + k) 0xFFFFFFFF) []).flatten

/-- The net that runs (R92 to R104): each instance with its task and polymorphic type, each signal with its driver. -/
def buildNet (raw : RawNet) : Net × Exp × List (List Nat) :=
  let r := expandAll raw
  let e := r.1
  let lists := taskLists raw r.2
  let taskOf (i : Nat) : Nat := (indexOf? (fun l : List Nat => l.contains i) lists).getD 16
  let insts := (enumFrom 0 e.insts).map fun ((i, x) : Nat × XInst) => { x.cfg with task := taskOf i, poly := polyOf e.sigs x }
  let drivers : List (Nat × Nat × Nat) :=
    ((enumFrom 0 e.insts).map fun ((i, x) : Nat × XInst) =>
      (enumFrom 0 (x.cfg.binds.drop (x.cfg.binds.length - x.nout))).filterMap fun ((k, b) : Nat × Bind) =>
        b.sig.map fun s => (s, i, k)).flatten
  let sigs := (enumFrom 0 e.sigs).map fun ((s, c) : Nat × SigCfg) =>
    match drivers.find? fun d => d.1 == s with
    | some d => { c with driver := some d.2, writer := taskOf d.2.1 }
    | none => c
  ({ sigs := sigs, insts := insts, lists := lists, fcode := raw.fcode, pmcVisible := raw.pmcVisible }, e, r.2)

/-- The parameters of a type are in range (R96, R98, R105), apart from what other sections decide. -/
def paramsOk (x : InstCfg) (pmcVisible : Bool) : Option Nat :=
  let p (i : Nat) := (pw x.params i).toNat
  let b (i : Nat) := p i % 256
  let anyNumt (n : Nat) := 2 ≤ n && n ≤ 6
  let ok : Bool := match x.type with
    | 0x0050 => decide (b 0 ≤ 5) && !fSign (pw x.params 1) && fIsFin (pw x.params 1)
    | 0x0051 => anyNumt (b 0) && anyNumt (b 1) && decide (b 2 ≤ 1) && (b 2 == 0 || tyWidth (b 0) == tyWidth (b 1))
    | 0x0063 => decide (2 ≤ p 0) && decide (p 0 ≤ 32) &&
        (let xs := (pairsOf (x.params.drop 1)).map (·.1); (xs.zip xs.tail).all fun q => fLt q.1 q.2)
    | 0x0065 => decide (b 1 ≤ 2)
    | 0x0071 => decide (p 0 % 65536 < 512)
    | 0x0080 => decide (b 0 < 32)
    | 0x0081 => decide (b 0 < 32)
    | 0x0082 => decide (b 0 < 16)
    | 0x0083 => decide (b 0 < 8)
    | 0x0084 => (b 0 == 0 && decide (b 1 < 8)) || (b 0 == 1 && decide (b 1 < 4))
    | 0x0086 => decide (1 ≤ b 2) && decide (b 2 ≤ 7)
    | 0x0087 => decide (1 ≤ b 2) && decide (b 2 ≤ 7)
    | 0x0088 => decide (b 0 < 4) && decide (p 1 % 65536 < 256)
    | 0x0089 => decide (b 0 < 4) && decide (p 1 % 65536 < 64)
    | 0x008B => decide (b 0 < 2)
    | 0x00A2 => decide (b 2 ≤ 2)
    | 0x00A3 => decide (b 0 < 32) && decide (b 2 ≤ 1) && decide (b 3 ≤ 2)
    | 0x00B0 => decide (b 0 ≤ 17)
    | 0x00B1 => decide (b 0 < 64)
    | 0x00B2 => decide (b 1 ≤ 7)
    | 0x00B3 => decide (b 0 < 16)
    | _ => true
  if !ok then some 8 else if x.type = 0x00B1 && !pmcVisible then some 11 else none

/-- The size of a retained or ordinary instance's data (R99, R100). -/
def instSize (x : InstCfg) : Nat :=
  match libRow x.type with | some r => libSize r x.tver (pw x.params 0).toNat | none => 8

/-- The checks of a signal (R93, R98). -/
def checkSig (drivers : Nat → Nat) (i : Nat) (s : SigCfg) : Viol :=
  firstViol [rejIf (decide (s.stype = 0 ∨ 7 < s.stype) || (s.stype == 7 && (s.init != 0 || s.const))) 2 1 i,
    rejIf (!s.const && drivers i != 1) 2 5 i]
/-- An identity is reserved (R101). -/
def iidReserved (n : Nat) : Bool := n == 0 || n == 0xFFFFFFFF
/-- The checks of the composite instances that open at place `i` of the expanded net (R98, R101, R102). -/
def checkComps (e : Exp) (i : Nat) : Viol :=
  (enumFrom 0 e.comps).findSome? fun ((k, c) : Nat × XComp) =>
    if c.pos ≠ i then none
    else firstViol [rejIf (!c.member && iidReserved c.iid) 3 1 i,
      rejIf ((c.member && iidReserved c.iid) || (e.comps.take k).any (fun o => o.iid == c.iid) ||
        (e.insts.take i).any (fun y => y.cfg.iid.toNat == c.iid)) 3 6 i]
/-- What expansion noted at place `i`, and the composite instances there. -/
def checkPlace (e : Exp) (i : Nat) : Viol :=
  firstViol [(e.bad.find? fun b => b.1 == i).bind fun b => some (netRej 3 b.2 i), checkComps e i]
/-- The checks of an instance (R94, R98, R101, R102). -/
def checkInst (e : Exp) (lists : List (List Nat)) (pmcVisible : Bool) (i : Nat) (x : XInst) : Viol :=
  match libRow x.cfg.type with
  | none => some (netRej 3 2 i)
  | some r =>
    let nin := x.cfg.binds.length - x.nout
    firstViol [
      rejIf (!x.member && iidReserved x.cfg.iid.toNat) 3 1 i,
      rejIf ((x.member && iidReserved x.cfg.iid.toNat) || (e.insts.take i).any (fun y => y.cfg.iid == x.cfg.iid) ||
        e.comps.any (fun c => decide (c.pos ≤ i) && c.iid == x.cfg.iid.toNat)) 3 6 i,
      rejIf (!r.vers.contains x.cfg.tver) 3 3 i,
      rejIf (decide (x.cfg.binds.length < x.nout) || decide (nin < r.inRange.1) || decide (r.inRange.2 < nin)) 3 1 i,
      (paramsOk x.cfg pmcVisible).bind fun reason => some (netRej 3 reason i),
      rejIf (!lists.any (·.contains i)) 3 7 i ]
/-- A port takes a signal's type (R88). -/
def portTakes (x : InstCfg) (poly : Nat) (t : PortT) (st : Nat) : Bool :=
  match t with
  | .ty n => st == n
  | .num => st == poly && decide (2 ≤ st) && decide (st ≤ 5)
  | .numt => st == poly && decide (2 ≤ st) && decide (st ≤ 6)
  | .src => st == (pw x.params 0).toNat % 256
  | .dst => st == (pw x.params 1).toNat % 256
  | .any => st == (pw x.params 2).toNat % 256
  | .boolOrReal => st == 1 || st == 4
  | .sel => st == sysvarType ((pw x.params 0).toNat % 256)
/-- A port of an instance is a BOOL whatever is connected to it. -/
def isBoolPort (x : InstCfg) : PortT → Bool
  | .ty n => n == 1
  | .any => (pw x.params 2).toNat % 256 == 1
  | _ => false
/-- One binding (R88, R95, R98): the reason of its violation. `out` marks an output, `takes` the types that the port takes, `isB` a
BOOL port. -/
def bindFault (sigs : List SigCfg) (b : Bind) (out isB : Bool) (takes : Nat → Bool) : Option Nat :=
  match b.sig with
  | none => if b.neg && (out || !isB) then some 1 else none
  | some s => match sigs[s]? with
    | none => some 1
    | some c => if out && c.const then some 5 else if !takes c.stype then some 4
      else if b.neg && (out || c.stype != 1) then some 1 else none
/-- The violations of an instance's bindings, with the binding entry (R88, R95, R98). -/
def instBinds (sigs : List SigCfg) (x : XInst) : List (Nat × Nat) :=
  (enumFrom x.bindAt (x.ports.zip x.cfg.binds)).filterMap fun ((k, p) : Nat × ((PortT × Bool) × Bind)) =>
    (bindFault sigs p.2 p.1.2 (isBoolPort x.cfg p.1.1) (portTakes x.cfg (polyOf sigs x) p.1.1)).map fun r => (k, r)
/-- The violations of a composite instance's bindings: each port takes the type of its descriptor (R88, R103). -/
def compBinds (sigs : List SigCfg) (c : XComp) : List (Nat × Nat) :=
  (enumFrom c.bindAt (c.ports.zip c.binds)).filterMap fun ((k, p) : Nat × ((Nat × Bool × Nat) × Bind)) =>
    (bindFault sigs p.2 p.1.2.1 (p.1.1 == 1) fun t => t == p.1.1).map fun r => (k, r)
/-- The violation with the least entry. -/
def leastBind (l : List (Nat × Nat)) : Viol :=
  (l.foldl (fun (b : Option (Nat × Nat)) e => match b with | some o => if e.1 < o.1 then some e else b | none => some e) none).map
    fun e => netRej 4 e.2 e.1
/-- The checks of the bindings in table order (R98): the binding table, then the bindings of the definitions. -/
def checkBinds (e : Exp) : Viol :=
  let of (member : Bool) : List (Nat × Nat) :=
    ((e.insts.filter fun x => x.member == member).map (instBinds e.sigs)).flatten ++
      ((e.comps.filter fun c => c.member == member).map (compBinds e.sigs)).flatten
  firstViol [leastBind (of false), leastBind (of true)]
/-- The first entry at which a running total, `acc` before entry `i`, passes a limit. -/
def overAt (limit : Nat) : Nat → Nat → List Nat → Option Nat
  | _, _, [] => none
  | acc, i, n :: t => if limit < acc + n then some i else overAt limit (acc + n) (i + 1) t
/-- Bytes of a signal cell (R83). -/
def cellSize (s : SigCfg) : Nat := if s.stype = 7 then 16 else 8
/-- Where the retained data of R99 pass 8 MB, `RETAIN` cells first, then `RETAIN` instances: the signal, the instance. -/
def retainOver (e : Exp) : Option Nat × Option Nat :=
  let cs := e.sigs.map fun s => if s.retain then cellSize s else 0
  (overAt 8388608 0 0 cs, overAt 8388608 cs.sum 0 (e.insts.map fun x => if x.cfg.retain then instSize x.cfg else 0))
/-- The checks of the invocation table in index order (R97, R98): each entry names an instance, and one that no entry before it names. -/
def checkInv (raw : RawNet) : Viol :=
  eachViol raw.inv fun k i => firstViol [rejIf (decide (raw.insts.length ≤ i)) 5 1 k, rejIf ((raw.inv.take k).contains i) 5 7 k]
/-- The checks of a composite definition (R99, R103). -/
def checkComp (i : Nat) (d : CompDef) : Viol :=
  firstViol [rejIf (decide (32 < d.ports.length) || decide (256 < d.members.length)) 6 10 i,
    rejIf (!d.inside) 6 1 i,
    rejIf (d.inv.any (fun k => decide (d.members.length ≤ k)) || !decide d.inv.Nodup) 6 7 i,
    rejIf (d.ports.any fun p => decide (d.lsigs.length ≤ p.2.2)) 6 1 i,
    rejIf (d.ports.any fun p => (at_ d.lsigs p.2.2 { stype := 0 }).stype != p.1) 6 4 i]
/-- The formulas refused under R117, the one with the least `ENTRY` (R98). -/
def checkFormulas (e : Exp) (fcode : Bytes) : Viol :=
  let bad := (e.insts.filter fun x => x.cfg.type == 0x00C0 && !formulaOk fcode (pw x.cfg.params 0).toNat).map fun x => (pw x.cfg.params 0).toNat / 4
  bad.min?.map (netRej 7 9)
/-- The header of the section (R92): table offsets in place, on 16-byte boundaries, without overlap; the entries of each task within the
invocation table, whose length is the total of the counts (log entry 107). -/
def checkNetHeader (b : Bytes) (raw : RawNet) (fwMain : Nat) : Viol :=
  let tabs := [(field b 8 4, 8 * field b 4 4), (field b 16 4, 20 * field b 12 4), (field b 24 4, 4 * field b 20 4),
    (field b 32 4, 36 * field b 28 4), (field b 40 4, field b 36 4), (field b 48 4, field b 44 4)]
  let head := 192 + 4 * (raw.dir.map (·.2)).sum
  firstViol [rejIf (decide (fwMain < raw.libmin)) 1 13 0,
    rejIf (decide (b.length < head) || !(tabs.all fun t => t.1 % 16 == 0 && decide (t.1 + t.2 ≤ b.length)) ||
      !disjoint ((0, head) :: tabs) || raw.dir.any (fun d => d.2 != 0 && decide (raw.inv.length < d.1 + d.2))) 1 1 0,
    rejIf (decide (1024 < field b 28 4) || decide (2097152 < field b 36 4) || decide (262144 < field b 44 4)) 1 10 0]

/-- The checks of the block net in the order of R98: the tables in header order, each in index order. `ref` is the check of what an
instance names in other sections. Which entry a LIMIT names is the model's choice (log entry 107). -/
def checkNet (b : Bytes) (fwMain : Nat) (raw : RawNet) (e : Exp) (lists : List (List Nat)) (ref : Nat → Viol) : Viol :=
  let outs := (e.insts.map fun x => (x.cfg.binds.drop (x.cfg.binds.length - x.nout)).filterMap (·.sig)).flatten
  let kept := retainOver e
  let full := overAt 8388608 0 0 (e.insts.map fun x => instSize x.cfg)
  firstViol [
    checkNetHeader b raw fwMain,
    eachViol e.sigs fun i s => firstViol [rejIf (i == 262144) 2 10 i, checkSig (fun n => outs.count n) i s, rejIf (kept.1 == some i) 2 10 i],
    eachViol e.insts fun i x => firstViol [rejIf (i == 65536) 3 10 i, checkPlace e i, checkInst e lists raw.pmcVisible i x, ref i,
      rejIf (full == some i || kept.2 == some i) 3 10 i],
    checkPlace e e.insts.length,
    checkBinds e,
    eachViol raw.comps checkComp,
    checkFormulas e raw.fcode,
    checkInv raw ]

end Sys2Proof.Machine
end

