-- ==== Sys2Proof/Machine/DioOps.lean ====
section
/-! DEFINITION. Named operations of the digital channels, pulse and encoder inputs (14_digital_and_pulse_io.md). -/

namespace Sys2Proof.Machine

/-- 10 µs of IO time in phases (R456). -/
def samplePh : Nat := phUs 10

/-- Inputs of a record (R455). -/
def DioCfg.isInput (c : DioCfg) : Bool := c.use == 1 || c.use == 2
/-- Outputs of a record (R455). -/
def DioCfg.isOutput (c : DioCfg) : Bool := c.use == 3 || c.use == 4

/-- The filter limit in force: N, or 5 for the readback of an output (R456, R461). -/
def DioCfg.limit (c : DioCfg) : Nat := if c.isOutput then 5 else c.fn

/-- One sample of the integrating counter, taken `age` phases before `mono` at device time `ts` (R456, R457). -/
def DioCh.sample (h : DioCh) (n : Nat) (high : Bool) (ts : BitVec 96) (at_ : Nat) : DioCh :=
  let c := if high then (if h.c = n then n else h.c + 1) else h.c - 1
  let h1 := { h with
    c := c,
    latch0 := if h.c = 0 ∧ c ≠ 0 then ts else h.latch0,
    latchN := if h.c = n ∧ c ≠ n then ts else h.latchN,
    betweenFrom := if 0 < c ∧ c < n then h.betweenFrom.or (some at_) else none }
  let level := if c = n then true else if c = 0 then false else h.level
  if level = h.level then h1
  else { h1 with level := level, trueFrom := if level then some at_ else none,
                 falseFrom := if level then h.falseFrom else at_, flicker := false,
                 stuckOn := h1.stuckOn && level, partnerNoDrive := h1.partnerNoDrive && !level }

/-- A filtered change (R457, R458): timestamp, count and chatter list; with `CHSUP`, only the count while `CHATTER` is set. -/
def DioCh.changed (h : DioCh) (c : DioCfg) (at_ : Nat) : DioCh :=
  let recent := at_ :: h.recent.filter fun t => decide (at_ < t + phS c.chwin)
  let h1 := { h with changes := h.changes + 1, recent := if c.chmax = 0 then [] else recent }
  if c.chsup && h.chatter then h1 else { h1 with ts := if h.level then h.latch0 else h.latchN }

/-- A run of samples that ends at the present instant, 10 µs apart, each with the device time at which it was taken (R19): the channel and
the number of filtered changes that have their effects (R456, R457). -/
def DioCh.samples (h : DioCh) (c : DioCfg) (now : TimeBase) : List Bool → DioCh × Nat
  | [] => (h, 0)
  | s :: t =>
    let at_ := now.mono - t.length * samplePh
    let h1 := h.sample c.limit s (now.dtBefore at_) at_
    if h1.level ≠ h.level ∧ c.isInput then
      let quiet := c.chsup && h.chatter
      let r := (h1.changed c at_).samples c now t
      (r.1, r.2 + (if quiet then 0 else 1))
    else DioCh.samples { h1 with flicker := h1.flicker && decide (0 < h1.c) && decide (h1.c < c.limit) } c now t

/-- The instant at which `FLICKER` sets: that of the last of 4 × N samples between the ends, N ≥ 2 (R458). -/
def DioCh.flickerDue (h : DioCh) (c : DioCfg) : Option Nat :=
  if c.isInput ∧ 2 ≤ c.fn then h.betweenFrom.map (· + (4 * c.fn - 1) * samplePh) else none

/-- The instant at which `STUCK_ON` sets (R458). -/
def DioCh.stuckDue (h : DioCh) (c : DioCfg) : Option Nat :=
  if c.isInput ∧ 0 < c.stuck then h.trueFrom.map (· + phS c.stuck) else none

/-- The evaluation of `CHATTER` (R458). -/
def DioCh.evaluate (h : DioCh) (c : DioCfg) (mono : Nat) : DioCh :=
  let n := (h.recent.filter fun t => decide (mono < t + phS c.chwin)).length
  { h with evalAt := mono,
           chatter := if c.chmax = 0 then false else if c.chmax < n then true
                      else if 2 * n ≤ c.chmax then false else h.chatter }

/-- The group of a channel. -/
def dioGroup (ch : Nat) : Nat := ch / 16

/-- The group supply of a channel is present (R455). -/
def Dio.supplied (d : Dio) (ch : Nat) : Bool := at_ d.ufOk (dioGroup ch) false

/-- The quality of an input's V: the first diagnostic that applies (R458). 0 stands for supply lost, 1 for a held value,
2 for the uncertain ones, 3 for `GOOD`. -/
def DioCh.inQuality (h : DioCh) (supplied : Bool) : Nat :=
  if !supplied then 0 else if h.flicker then 1 else if h.chatter || h.stuckOn then 2 else 3

/-- The value that a stage presents (R29, R455, R459, R460): OFF without supply, in thermal shutdown and during a test. -/
def DioCh.driven (h : DioCh) (c : DioCfg) (supplied : Bool) : Bool :=
  c.isOutput && supplied && !h.thermal && !h.latched && h.testFrom.isNone &&
    (match h.out.st with
     | .drive => h.cmd
     | .hold => h.cmd
     | .off => false
     | .kickstand => if c.kick = 1 then true else if c.kick = 2 then h.cmd else false)

/-- The value that a stage is driving or holding, for `CMD` of R475. -/
def DioCh.cmdBit (h : DioCh) (c : DioCfg) : Bool :=
  c.isOutput && (match h.out.st with
     | .drive => h.cmd
     | .hold => h.cmd
     | .off => false
     | .kickstand => if c.kick = 1 then true else if c.kick = 2 then h.cmd else false)

/-- The stage's value is OFF, by command, by its state or for want of supply (R455, R461). -/
def DioCh.valueOff (h : DioCh) (c : DioCfg) (supplied : Bool) : Bool := !(h.cmdBit c && supplied)

/-- A demand ends a dark test that is running, unjudged (R466). -/
def DioCh.demand (h : DioCh) : DioCh :=
  if h.testFrom.isSome then { h with testFrom := none, abandoned := Nat.min 255 (h.abandoned + 1), testOwed := true } else h
/-- A stage that has returned to the state under test owes an abandoned test 1 s later (R466). -/
def DioCh.rested (h : DioCh) (mono : Nat) : DioCh :=
  if h.testOwed && decide (h.out.st = .drive) && h.cmd then { h with testOwed := false, dtNext := mono + phS 1 } else h

/-- A new commanded value (R135, R459, R460, R466). -/
def DioCh.command (h : DioCh) (v : Bool) (mono : Nat) : DioCh :=
  let h1 := { h with out := { h.out with refresh := some mono } }
  if v = h.cmd then h1
  else
    let h2 := h1.demand
    { h2 with cmd := v, cmdFalseFrom := if v then none else some mono, offAt := if v then h2.offAt else mono,
              overload := h2.overload && v, openLoad := h2.openLoad && v : DioCh }.rested mono

/-- A change of the stage's state (R29, R466). -/
def DioCh.setStage (h : DioCh) (o : OutStage) (mono : Nat) : DioCh :=
  if o.st = h.out.st then { h with out := o }
  else { h.demand with out := o, offAt := if o.st = .off ∨ o.st = .kickstand then mono else h.offAt : DioCh }.rested mono

/-- `DIAG` of `DO_OUT` (R462). -/
def DioCh.diag (h : DioCh) (c : DioCfg) (supplied act : Bool) : Nat :=
  if !c.isOutput then 0
  else if !supplied then 7
  else if h.latched then 3
  else if h.thermal then 2
  else if h.darkFail then 6
  else if h.extDrive then 5
  else if h.overload then 1
  else if h.openLoad then 4
  else if h.partnerNoDrive && !act then 9
  else if !act then 8
  else match h.out.st with
    | .kickstand => 10
    | .hold => 11
    | _ => 0

/-- A thermal shutdown: the third within 10 s latches the stage (R460). -/
def DioCh.shutdown (h : DioCh) (mono : Nat) : DioCh :=
  let r := mono :: h.thermAt.filter fun t => decide (mono < t + phS 10)
  { h.demand with thermal := true, thermSeen := true, thermAt := r, latched := h.latched || decide (3 ≤ r.length) }

/-- A dark test may start (R465). -/
def DioCh.darkReady (h : DioCh) (c : DioCfg) (touOwned partnerHeard supplied : Bool) (mono : Nat) : Bool :=
  c.isOutput && decide (0 < c.dtest) && decide (h.out.st = .drive) && h.cmd && !touOwned
    && !(c.use == 4 && partnerHeard) && supplied && h.testFrom.isNone && !h.testOwed && decide (h.dtNext ≤ mono)

/-- `STAGE` code (R475). -/
def stageCode : Stage → Nat
  | .off => 0 | .drive => 1 | .hold => 2 | .kickstand => 3

/-- `DIO_STAT` (R475). -/
def DioCh.stat (h : DioCh) (c : DioCfg) (supplied act : Bool) (mono : Nat) : Nat :=
  b2n h.level + 2 * b2n (h.cmdBit c) + 4 * (if c.isOutput then stageCode h.out.st else 0)
  + 16 * h.diag c supplied act + 256 * b2n h.chatter + 512 * b2n h.flicker + 1024 * b2n h.stuckOn
  + 2048 * b2n h.extSeen + 4096 * b2n h.thermSeen + 8192 * b2n h.darkSeen
  + 16384 * b2n (c.isOutput && decide (0 < c.dtest) && !h.testOwed && decide (h.dtNext ≤ mono)) + 65536 * h.abandoned

/-! ### Pulse inputs (R467) -/

/-- The last 10 µs sample at or before `mono`. -/
def lastSample (mono : Nat) : Nat := mono / samplePh * samplePh

/-- `edges` counted edges in `dt` phases as a frequency. -/
def freqOf (edges dt : Nat) : Real32 := if dt = 0 then 0 else fOfRat ((edges * 1600000000 : Nat) : Int) dt

/-- The frequency as the last sample before `mono` formed it (R467). -/
def PiCh.settle (p : PiCh) (c : PiCfg) (mono : Nat) : PiCh :=
  let s := lastSample mono
  match p.newest, p.ref with
  | some n, some r =>
    if s < n then p
    else
      let p1 := if r + phMs c.fgateMs ≤ n then { p with f := freqOf p.edges (n - r), ref := some n, edges := 0 } else p
      let lim := freqOf 1 (s - n)
      let f := if n + phS 10 ≤ s then 0 else if s = n then p1.f else if fLt lim p1.f then lim else p1.f
      { p1 with f := f, overRange := fLt (fOfInt 200000) p1.f }
  | _, _ => p

/-- The count as the last sample before `mono` found it (R133). -/
def PiCh.countAt (p : PiCh) (mono : Nat) : BitVec 32 :=
  match p.sampled with
  | some (s, n) => if s = lastSample mono then n else p.count
  | none => p.count
/-- The shortest pulse that counts, in ns (R467). -/
def glitchNs (code : Nat) : Nat := at_ [0, 1000, 10000, 100000] code 0

/-- An edge on a pulse input (R467). -/
def PiCh.edge (p : PiCh) (c : PiCfg) (rising : Bool) (widthNs : Nat) (ts : BitVec 96) (mono : Nat) : PiCh :=
  if widthNs < glitchNs c.glitch then { p with errors := Nat.min 65535 (p.errors + 1) }
  else if c.edge = 3 ∨ (c.edge = 1 ∧ rising) ∨ (c.edge = 2 ∧ !rising) then
    let p1 := p.settle c mono
    let s := lastSample mono
    { p1 with count := p1.count + 1, newest := some mono, newestTs := ts,
              sampled := if s = mono ∨ (p1.sampled.map (·.1)) = some s then p1.sampled else some (s, p1.count),
              edges := if p1.ref.isSome then p1.edges + 1 else 0, ref := p1.ref.or (some mono) }
  else p

/-! ### Encoders (R470 to R472) -/

/-- The count with its history kept over the velocity window (R472). -/
def EncCh.setCount (e : EncCh) (c : EncCfg) (n : BitVec 32) (mono : Nat) : EncCh :=
  let w := (c.vwin + 1) * samplePh
  let keep := e.hist.filter fun h => decide (mono < h.1 + w)
  let base := match e.hist.find? (fun h => decide (h.1 + w ≤ mono)) with | some h => h.2 | none => e.histBase
  { e with count := n, hist := (mono, n) :: keep, histBase := base }

/-- The count `VWIN` samples before `mono`. -/
def EncCh.countBefore (e : EncCh) (c : EncCfg) (mono : Nat) : BitVec 32 :=
  match e.hist.find? (fun h => decide (h.1 + c.vwin * samplePh ≤ mono)) with
  | some h => h.2
  | none => e.histBase

/-- The count as the last sample before `mono` found it (R133, R472). -/
def EncCh.countAt (e : EncCh) (mono : Nat) : BitVec 32 :=
  match e.hist.find? (fun h => decide (h.1 ≤ lastSample mono)) with
  | some h => h.2
  | none => if e.hist = [] then e.count else e.histBase

/-- The movement over the velocity window as the last sample formed it, in counts (R472). -/
def EncCh.moved (e : EncCh) (c : EncCfg) (mono : Nat) : Int := (e.countAt mono - e.countBefore c (lastSample mono)).toInt

/-- The velocity in counts per s (R472). -/
def EncCh.vel (e : EncCh) (c : EncCfg) (mono : Nat) : Real32 :=
  let m := e.moved c mono
  if c.vwin = 0 then 0 else fOfRat (m * 100000) c.vwin

/-- A valid quadrature step (R470). -/
def EncCh.step (e : EncCh) (c : EncCfg) (up : Bool) (mono : Nat) : EncCh :=
  e.setCount c (if up then e.count + 1 else e.count - 1) mono

/-- A rising Z edge (R470). -/
def EncCh.zEdge (e : EncCh) (c : EncCfg) (mono : Nat) : EncCh :=
  if c.zmode = 0 then e
  else
    let e1 := { e with zpos := e.count, zSeen := true }
    if c.zmode = 2 ∧ !e.homed then { e1.setCount c 0 mono with homed := true } else e1

/-- A step in which both tracks change (R470). -/
def EncCh.invalid (e : EncCh) (mono : Nat) : EncCh :=
  { e with encFault := true, errors := Nat.min 65535 (e.errors + 1), invalidAt := some mono }

/-- Gray code to binary, `n` bits (R471). -/
def grayToBin : Nat → Nat → Nat
  | 0, _ => 0
  | n + 1, g => g ^^^ grayToBin n (g / 2)

/-- The duration of an SSI telegram in ns: (SBITS + 1) ÷ SCLK + 20 µs (R471). -/
def EncCfg.telegramNs (c : EncCfg) : Nat := if c.sclk = 0 then 20000 else ceilDiv ((c.sbits + 1) * 1000000) c.sclk + 20000

/-- An SSI telegram completes (R471). -/
def EncCh.telegram (e : EncCh) (c : EncCfg) (raw : Nat) (startLow monoHigh : Bool) (mono : Nat) : EncCh :=
  let b := if c.errBit then c.sbits - 1 else c.sbits
  let errFlag := c.errBit && raw % 2 == 1
  let e0 := { e with ssiFrom := none }
  if startLow || monoHigh || errFlag then
    let n := Nat.min 3 (e.fails + 1)
    { e0 with fails := n, errors := Nat.min 65535 (e.errors + 1), encFault := e.encFault || decide (3 ≤ n) }
  else
    let d := (if c.errBit then raw / 2 else raw) % 2 ^ b
    let p := if c.gray then grayToBin b d else d
    let n : BitVec 32 := if e.good then e.count + BitVec.ofInt 32 (signed b ((p + 2 ^ b - e.prev) % 2 ^ b)) else BitVec.ofNat 32 p
    { e0.setCount c n mono with good := true, prev := p, fails := 0, encFault := false }

/-- The quality of an encoder channel: 0 `BAD` `SENSOR_FAILURE`, 1 `UNCERTAIN` `LAST_USABLE`, 2 `GOOD` (R468, R470, R471). -/
def EncCh.quality (e : EncCh) (supFault : Bool) : Nat :=
  if supFault || e.encFault then 0 else if 0 < e.fails then 1 else 2

/-- `PI_STAT` (R476). -/
def PiCh.stat (p : PiCh) : Nat := 4 * b2n p.overRange + 65536 * p.errors

/-- `ENC_STAT` (R476). -/
def EncCh.stat (e : EncCh) (c : EncCfg) : Nat :=
  (if c.kind = 1 then 2 else if c.kind = 2 then 3 else 0) + 8 * b2n e.encFault + 16 * b2n e.zSeen + 32 * b2n e.homed
  + 64 * e.fails + 65536 * e.errors

/-- `DIO_STATE` (R474). -/
def Dio.stateWord (d : Dio) : Nat :=
  let ok (g : Nat) : Nat := b2n (at_ d.ufOk g false)
  let v (g : Nat) : Nat := Nat.min 255 (at_ d.ufMv g 0 / 200)
  ok 0 + 2 * ok 1 + 4 * b2n (at_ d.ufOk 0 false && !d.encSupFault) + 8 * b2n d.encSupSeen + 16 * b2n d.cfgSafe
  + 256 * v 0 + 65536 * v 1

/-- A group field supply at `mv`: present at 18 V rising, lost below 17 V (R455). -/
def ufPresent (was : Bool) (mv : Nat) : Bool := if 18000 ≤ mv then true else if mv < 17000 then false else was

end Sys2Proof.Machine
end

