-- ==== Sys2Proof/Machine/TypesEr.lean ====
section
/-! DEFINITION. The state types of the event recorder, operating time and the performance counters
(17_recorder_and_counters.md). -/

namespace Sys2Proof.Machine

/-- An event waiting in the recorder's queue: what was offered, with operating time and time stamps of the event (R528, R531). -/
structure ErQueued where
  ev : ErEvent
  pcycle : BitVec 32
  optime : Nat
  tq : Nat
  tdev : BitVec 96
  deriving DecidableEq, Repr

/-- A record of the recorder (R528). Its `RCRC` is a function of the other fields (R529). -/
structure ErRec where
  type : BitVec 8
  sev : BitVec 3
  code : BitVec 16
  source : BitVec 32
  pcycle : BitVec 32
  optime : Nat
  tq : Nat
  rep : Nat := 0
  tdev : BitVec 96
  tlastd : Nat := 0
  wseq : BitVec 16
  payload : Bytes
  deriving DecidableEq, Repr

/-- The event recorder (R526 to R537). `held` lists the occupied slots as (slot, record), slots rising;
`latest` is the source table, most recently used first, as (TYPE, SOURCE, slot). -/
structure Er where
  queue : List ErQueued := []
  held : SMap ErRec := []
  latest : List (BitVec 8 × BitVec 32 × Nat) := []
  wseq : BitVec 16 := 0
  scanDone : Bool := false
  droppedSeen : Bool := false
  crcBad : Nat := 0
  dropQueue : BitVec 32 := 0
  repeatSat : BitVec 32 := 0
  /-- New records dropped per severity, kept. -/
  dropped : List (BitVec 32) := List.replicate 8 0
  /-- Operating time in ms, its part below 1 ms in phases, and the elapsed instant up to which it is counted;
  the value last written to MRAM; whether the count runs. -/
  opMs : Nat := 0
  opSub : Nat := 0
  opMono : Nat := 0
  opStored : Nat := 0
  opRun : Bool := false
  /-- Power-cycle count, kept in MRAM (R527). -/
  pcycles : BitVec 32 := 0
  deriving DecidableEq, Repr

/-- An entry of the snapshot ring (R540). -/
structure PmcSnap where
  snseq : BitVec 32
  trig : Nat
  task : Nat
  tsnap : BitVec 96
  count : List (BitVec 32)
  deriving DecidableEq, Repr

/-- The performance counters (R538 to R543). -/
structure Pmc where
  sel : List (BitVec 16) := List.replicate 64 0
  val : List (BitVec 32) := List.replicate 64 0
  /-- The most recent snapshot (R540). -/
  snap : List (BitVec 32) := List.replicate 64 0
  ringSel : BitVec 8 := 0
  ring : List PmcSnap := []
  snseq : BitVec 32 := 0
  wrapped : Bool := false
  ringIdx : Nat := 0
  deriving DecidableEq, Repr

end Sys2Proof.Machine
end

