-- ==== Sys2Proof/Machine/ErOps.lean ====
section
/-! DEFINITION. The event recorder and the performance counters on their own state (R526 to R543). -/

namespace Sys2Proof.Machine

/-- Phases of 0.625 ns in a millisecond. -/
def phasesPerMs : Nat := 1600000

/-- Operating time in ms at elapsed instant `mono` (R526), saturating at 2⁴⁰ − 1. -/
def Er.optime (e : Er) (mono : Nat) : Nat :=
  min (2 ^ 40 - 1) (if e.opRun then e.opMs + (e.opSub + (mono - e.opMono)) / phasesPerMs else e.opMs)
/-- Operating time stops at `mono` (R526). -/
def Er.opStop (e : Er) (mono : Nat) : Er := { e with opMs := e.optime mono, opSub := 0, opMono := mono, opRun := false }
/-- Operating time resumes at the stored value + 1,000 ms (R526). -/
def Er.opResume (e : Er) (mono : Nat) : Er :=
  { e with opMs := min (2 ^ 40 - 1) (e.opStored + 1000), opSub := 0, opMono := mono, opRun := true }

/-- The position of the oldest entry of the lowest severity in the queue, with that severity. -/
def queueVictim : Nat → List ErQueued → Option (Nat × Nat)
  | _, [] => none
  | i, q :: t =>
    match queueVictim (i + 1) t with
    | some (j, s) => if q.ev.sev.toNat ≤ s then some (i, q.ev.sev.toNat) else some (j, s)
    | none => some (i, q.ev.sev.toNat)

/-- An event reaches the queue of 256 entries; a full queue follows the rule of R533 (R531). -/
def Er.offer (e : Er) (q : ErQueued) : Er :=
  if e.queue.length < 256 then { e with queue := e.queue ++ [q] }
  else match queueVictim 0 e.queue with
    | some (i, s) =>
      if s ≤ q.ev.sev.toNat then { e with queue := e.queue.eraseIdx i ++ [q], dropQueue := e.dropQueue + 1 }
      else { e with dropQueue := e.dropQueue + 1 }
    | none => { e with queue := [q] }

/-- Slots of the recorder's region (R528). -/
def erSlots : Nat := 262144

/-- The record in slot `n`. -/
def slotRec : SMap ErRec → Nat → Option ErRec
  | [], _ => none
  | (k, r) :: t, n => if k = n then some r else slotRec t n
/-- The slots with slot `n` holding `r`, slots rising. -/
def setSlot : SMap ErRec → Nat → ErRec → SMap ErRec
  | [], n, r => [(n, r)]
  | (k, v) :: t, n, r => if n < k then (n, r) :: (k, v) :: t else if n = k then (k, r) :: t else (k, v) :: setSlot t n r
/-- The lowest free slot from `i` on. -/
def freeSlot : Nat → SMap ErRec → Nat
  | i, [] => i
  | i, (k, _) :: t => if k = i then freeSlot (i + 1) t else i

/-- Record `a` is older than record `b`: order of OPTIME, then of WSEQ modulo 65,536 (R528). -/
def ErRec.older (a b : ErRec) : Bool :=
  decide (a.optime < b.optime) || (a.optime == b.optime && decide ((a.wseq - b.wseq).toInt < 0))

/-- The oldest record of the lowest severity held (R533). -/
def Er.victim : SMap ErRec → Option (Nat × ErRec)
  | [] => none
  | (k, r) :: t =>
    match Er.victim t with
    | some (j, v) =>
      if r.sev.toNat < v.sev.toNat || (r.sev == v.sev && r.older v) then some (k, r) else some (j, v)
    | none => some (k, r)

/-- The slot of a source's latest record (R532). -/
def Er.latestOf (e : Er) (type : BitVec 8) (source : BitVec 32) : Option Nat :=
  (e.latest.find? fun x => x.1 == type && x.2.1 == source).map (·.2.2)
/-- The source table with `slot` the latest of a source; the least recently used of 4,096 leaves (R532). -/
def Er.setLatest (e : Er) (type : BitVec 8) (source : BitVec 32) (slot : Nat) : Er :=
  { e with latest := ((type, source, slot) :: e.latest.filter fun x => !(x.1 == type && x.2.1 == source)).take 4096 }

/-- The event is a repeat of record `r` within the window of `repwin` s (R532). -/
def isRepeat (q : ErQueued) (r : ErRec) (repwin : Nat) : Bool :=
  r.type == q.ev.type && r.code == q.ev.code && r.sev == q.ev.sev &&
    decide (q.optime - (r.optime + r.tlastd) ≤ repwin * 1000)

/-- The record that an event gives (R528). -/
def newRec (q : ErQueued) (wseq : BitVec 16) : ErRec :=
  { type := q.ev.type, sev := q.ev.sev, code := q.ev.code, source := q.ev.source, pcycle := q.pcycle,
    optime := q.optime, tq := q.tq, tdev := q.tdev, wseq := wseq,
    payload := (q.ev.payload ++ List.replicate 24 0).take 24 }

/-- A new record is written into a free slot or over the oldest of the lowest severity, or dropped (R533). -/
def Er.write (e : Er) (q : ErQueued) : Er :=
  let w := e.wseq + 1
  let r := newRec q w
  if e.held.length < erSlots then
    let n := freeSlot 0 e.held
    ({ e with held := setSlot e.held n r, wseq := w }).setLatest r.type r.source n
  else match Er.victim e.held with
    | some (n, v) =>
      if v.sev.toNat ≤ q.ev.sev.toNat then
        ({ e with held := setSlot e.held n r, wseq := w,
                  latest := e.latest.filter fun x => x.2.2 != n }).setLatest r.type r.source n
      else { e with dropped := upd e.dropped q.ev.sev.toNat (· + 1), droppedSeen := true }
    | none => e

/-- The record that an event makes or repeats, where it does. -/
def Er.repeatOf (e : Er) (q : ErQueued) (repwin : Nat) : Option (Nat × ErRec) :=
  match e.latestOf q.ev.type q.ev.source with
  | some n => match slotRec e.held n with
    | some r => if isRepeat q r repwin then some (n, r) else none
    | none => none
  | none => none

/-- A repeat raises `REPEAT` and sets `TLASTD` (R532). -/
def repeatRec (q : ErQueued) (r : ErRec) : ErRec :=
  { r with rep := min 65535 (r.rep + 1), tlastd := min 0xFFFFFFFF (q.optime - r.optime) }

/-- The event at the front of the queue is handled: a repeat, a new record or a drop (R532, R533). -/
def Er.handle (e : Er) (repwin : Nat) : Er :=
  match e.queue with
  | [] => e
  | q :: t =>
    let e := { e with queue := t }
    match e.repeatOf q repwin with
    | some (n, r) =>
      ({ e with held := setSlot e.held n (repeatRec q r),
                repeatSat := if r.rep = 65535 then e.repeatSat + 1 else e.repeatSat }).setLatest r.type r.source n
    | none => e.write q

/-- CRC-16 of R529. -/
def crc16Reg : Nat → Bytes → Nat
  | r, [] => r
  | r, b :: t =>
    let step (r : Nat) : Nat := if r / 32768 % 2 = 1 then (r * 2 % 65536) ^^^ 0x1021 else r * 2 % 65536
    let r0 := r ^^^ (b.toNat * 256)
    crc16Reg (step (step (step (step (step (step (step (step r0)))))))) t

/-- The 64 bytes of a record (R528, R529). -/
def ErRec.bytes (r : ErRec) : Bytes :=
  let b := natLe 1 r.type.toNat ++ natLe 1 r.sev.toNat ++ natLe 2 r.code.toNat ++ natLe 4 r.source.toNat ++
    natLe 4 r.pcycle.toNat ++ natLe 5 r.optime ++ natLe 1 r.tq ++ natLe 2 r.rep ++ natLe 12 r.tdev.toNat ++
    natLe 4 r.tlastd ++ natLe 2 r.wseq.toNat ++ (r.payload ++ List.replicate 24 0).take 24
  b ++ natLe 2 (crc16Reg 0xFFFF b)

/-- The scan at a start (R534): a slot whose `RCRC` fails is made free and counted. Whether one fails, at start `n`, is free (log entry 1). -/
def Er.scan (e : Er) (n : Nat) : Er :=
  let kept := e.held.filter fun s => !Config.slotFails n s.1
  { e with held := kept, crcBad := Nat.min 0xFFFFFFFF (e.crcBad + (e.held.length - kept.length)), scanDone := true }

/-- Lowest severity held (R537); 0 while nothing is held. -/
def Er.lowestSev (e : Er) : Nat := match Er.victim e.held with | some (_, r) => r.sev.toNat | none => 0
/-- `ER_STATE` (R537); `held` where writes are held back. -/
def Er.stateWord (e : Er) (heldBack : Bool) : Nat :=
  b2n e.scanDone + 2 * b2n (decide (erSlots ≤ e.held.length)) + 4 * b2n (heldBack && !e.queue.isEmpty) +
    8 * b2n e.droppedSeen + 256 * min 255 e.queue.length + 65536 * e.lowestSev

/-! Performance counters. -/

/-- Event, unit and chain bit of a selection (R543). -/
def selEvent (s : BitVec 16) : Nat := s.toNat % 256
/-- See `selEvent`. -/
def selUnit (s : BitVec 16) : Nat := s.toNat / 256 % 16
/-- See `selEvent`. -/
def selChain (s : BitVec 16) : Bool := s.getLsbD 12

/-- The counters after `inc` counts of each selection; a chained counter adds the wraps of the one before it (R538, R539). -/
def pmcAdd (inc : BitVec 16 → Nat) : Nat → Nat → List (BitVec 16) → List (BitVec 32) → List (BitVec 32)
  | _, _, [], vs => vs
  | _, _, _, [] => []
  | i, wraps, s :: ss, v :: vs =>
    let n := v.toNat + if selChain s && i != 0 then wraps else inc s
    BitVec.ofNat 32 n :: pmcAdd inc (i + 1) (n / 2 ^ 32) ss vs

/-- `n` events of a unit happen (R538). -/
def Pmc.count (p : Pmc) (event unit n : Nat) : Pmc :=
  { p with val := pmcAdd (fun s => if selEvent s = event && selUnit s = unit then n else 0) 0 0 p.sel p.val }
/-- `n` events that have no unit happen (R538). -/
def Pmc.countAll (p : Pmc) (event n : Nat) : Pmc :=
  { p with val := pmcAdd (fun s => if selEvent s = event then n else 0) 0 0 p.sel p.val }

/-- A snapshot of all counters (R540); `trig` 1 a cadence tick, 2 the end of a cycle of `task`. -/
def Pmc.snapshot (p : Pmc) (trig task : Nat) (t : BitVec 96) : Pmc :=
  let selected := p.ringSel.toNat % 4 = trig && (trig == 1 || p.ringSel.toNat / 16 == task)
  let p1 := if trig = 1 ∨ selected then { p with snap := p.val } else p
  if selected then
    let e : PmcSnap := { snseq := p.snseq + 1, trig := trig, task := if trig = 2 then task else 0xFF, tsnap := t, count := p.val }
    { p1 with ring := (p.ring ++ [e]).drop (p.ring.length - 63), snseq := p.snseq + 1,
              wrapped := p.wrapped || decide (64 ≤ p.ring.length),
              ringIdx := if p.ring.isEmpty then 0 else (p.ringIdx + 1) % 64 }
  else p1

/-- The 288 bytes of a ring entry (R540). -/
def PmcSnap.bytes (e : PmcSnap) : Bytes :=
  natLe 4 e.snseq.toNat ++ natLe 1 e.trig ++ natLe 1 e.task ++ natLe 2 0 ++ natLe 12 e.tsnap.toNat ++ natLe 12 0 ++
    e.count.flatMap fun c => natLe 4 c.toNat

end Sys2Proof.Machine
end

