-- ==== Sys2Proof/Machine/EthOps.lean ====
section
/-! DEFINITION. Named operations of the Ethernet ports, the pannier pool, the gates, the Spoke link and the link tests
(12_ethernet_and_spoke_link.md). -/

namespace Sys2Proof.Machine

/-- Saturating addition on a 32-bit counter. -/
def satInc (c : BitVec 32) : BitVec 32 := if c = 0xFFFFFFFF then c else c + 1

/-- The number of a queue of a port: port × 16 + queue. -/
def queueNo (port q : Nat) : Nat := port * 16 + q

/-- The class of a queue: its number within its direction (R396). -/
def queueClass (n : Nat) : Nat := n % 8

/-- Buffers that a queue uses (R419); the frame leaving a port still holds its buffer. -/
def Eth.used (e : Eth) (n : Nat) : Nat :=
  (e.pool.filter fun f => queueNo f.port f.q == n).length
  + (match (at_ e.ports (n / 16) {}).tx with | some f => if queueNo f.port f.q = n then 1 else 0 | none => 0)

/-- Buffers of the pool in use. -/
def Eth.usedAll (e : Eth) : Nat := ((List.range 80).map e.used).sum

/-- Free buffers of the pool (R418). -/
def Eth.free (e : Eth) : Nat := 4096 - e.usedAll

/-- Free shared buffers: 4,096 less every minimum, less what queues hold above theirs (R418). -/
def Eth.sharedFree (e : Eth) (mins : List Nat) : Nat :=
  4096 - (mins.sum + ((List.range 80).map fun n => e.used n - at_ mins n 0).sum)

/-- The queue from which R419 evicts: above its minimum, of the lowest class, receive before transmit, then the higher port. -/
def Eth.victim (e : Eth) (mins : List Nat) : Option Nat :=
  let key (n : Nat) : Nat := queueClass n * 32 + (if n % 16 < 8 then 16 else 0) + (15 - n / 16)
  (List.range 80).foldl (fun best n =>
    if at_ mins n 0 < e.used n ∧ (e.pool.any fun f => queueNo f.port f.q == n) then
      match best with
      | some b => if key n < key b then some n else some b
      | none => some n
    else best) none

/-- The pool without the oldest frame of queue `n`. -/
def dropOldest (n : Nat) : List PoolFrame → List PoolFrame
  | [] => []
  | f :: t => if queueNo f.port f.q = n then t else f :: dropOldest n t

/-- A frame dropped for queue `n` (R419, R423). -/
def Eth.countDrop (e : Eth) (n : Nat) : Eth :=
  { e with drops := upd e.drops n fun d => Nat.min 65535 (d + 1),
           ports := upd e.ports (n / 16) fun p => { p with cnt := { p.cnt with dropPool := p.cnt.dropPool + 1 } } }

/-- The least free shared buffers, and the mark that none was left (R423, R424). -/
def Eth.noteShared (e : Eth) (mins : List Nat) : Eth :=
  let f := e.sharedFree mins
  { e with sharedLow := Nat.min e.sharedLow f, exhausted := e.exhausted || decide (f = 0) }

/-- A frame is placed in its queue, or a frame is dropped (R419). -/
def Eth.place (e : Eth) (mins : List Nat) (f : PoolFrame) : Eth :=
  let n := queueNo f.port f.q
  if e.used n < at_ mins n 0 ∨ 0 < e.sharedFree mins then ({ e with pool := e.pool ++ [f] }).noteShared mins
  else match e.victim mins with
    | some v =>
      if queueClass v < queueClass n then { (e.countDrop v) with pool := dropOldest v e.pool ++ [f] }
      else e.countDrop n
    | none => e.countDrop n

/-- Time on the wire of a frame of `n` bytes, in ns (R406). -/
def wireNs (n : Nat) (gigabit : Bool) : Nat := (n + 24) * (if gigabit then 8 else 80)

/-- The entry of a list at a position in units of 2⁻³⁰ ns, and the rest of its interval, walking the entries (R398). -/
def gateWalk : Nat → List GateEnt → Nat → Option (Nat × Nat)
  | _, [], _ => none
  | i, g :: t, pos =>
    let n := g.interval * unitsPerNs
    if pos < n then some (i, n - pos) else gateWalk (i + 1) t (pos - n)

/-- The cycle time of a gate list in ns (R398). -/
def GateList.cycle (g : GateList) : Nat := (g.ents.map (·.interval)).sum

/-- The position of a list at device time `now` (2⁻³⁰ ns): entry index and rest of its interval in the same units (R398). -/
def GateList.pos (g : GateList) (now : Nat) : Option (Nat × Nat) :=
  let c := g.cycle * unitsPerNs
  if c = 0 then none
  else
    let t : Int := (now : Int) - (dtTicks g.base * 2 ^ 14 : Nat)
    gateWalk 0 g.ents (t % (c : Int)).toNat

/-- How long the gate of class `cls` stays open from entry `i` on, in units of 2⁻³⁰ ns, over at most `n` entries. -/
def gateOpen (ents : List GateEnt) (cls : Nat) : Nat → Nat → Nat
  | 0, _ => 0
  | n + 1, i =>
    let g := at_ ents (i % ents.length) ⟨0, 0⟩
    if bitOf g.states cls then g.interval * unitsPerNs + gateOpen ents cls n (i + 1) else 0
/-- The gate list of a port that closes the gate of class `cls` in some entry: without one the gate is always open. -/
def closingList (gates : List GateList) (port cls : Nat) : Option GateList :=
  gates.find? fun g => g.port == port && g.ents.any fun e => !bitOf e.states cls

/-- The time for which the gate of class `cls` is open from `now` on, in units of 2⁻³⁰ ns; `none`: always open. -/
def openFor (gates : List GateList) (port cls now : Nat) : Option Nat :=
  match closingList gates port cls with
  | none => none
  | some g => match g.pos now with
    | none => none
    | some (i, rest) =>
      if bitOf (at_ g.ents i ⟨0, 0⟩).states cls then some (rest + gateOpen g.ents cls g.ents.length (i + 1)) else some 0

/-- The longest open window of class `cls`, in units of 2⁻³⁰ ns; `none` where the gate is always open. -/
def longestWindow (gates : List GateList) (port cls : Nat) : Option Nat :=
  (closingList gates port cls).map fun g =>
    ((List.range g.ents.length).map fun i => gateOpen g.ents cls g.ents.length i).foldl Nat.max 0

/-- The head frame of transmit queue `q` of a port. -/
def Eth.head (e : Eth) (port q : Nat) : Option PoolFrame := e.pool.find? fun f => f.port == port && f.q == q

/-- A frame's gate lets it start now (R398). -/
def gateFits (gates : List GateList) (f : PoolFrame) (gigabit : Bool) (now : Nat) : Bool :=
  match openFor gates f.port f.q now with
  | none => true
  | some w => decide (wireNs f.len gigabit * unitsPerNs ≤ w)

/-- A frame's launch time has come (R296). -/
def launchCome (f : PoolFrame) (now : BitVec 64) : Bool :=
  match f.launch with
  | none => true
  | some t => decide (shortDiff t now ≤ 0)

/-- The frame that a port starts next: strict priority over open gates and launch times (R397). -/
def Eth.next (e : Eth) (gates : List GateList) (port now : Nat) (st : BitVec 64) : Option PoolFrame :=
  let g := (at_ e.ports port {}).speed == 2
  (List.range 8).foldl (fun best i =>
    match best with
    | some b => some b
    | none => match e.head port (7 - i) with
      | some f => if launchCome f st && gateFits gates f g now then some f else none
      | none => none) none

/-- A frame that no window of its class can hold is dropped and counted (R398). -/
def Eth.nofit (e : Eth) (gates : List GateList) (port : Nat) : Eth :=
  let g := (at_ e.ports port {}).speed == 2
  let bad (f : PoolFrame) : Bool := f.port == port && decide (f.q < 8) &&
    (match longestWindow gates port f.q with | some w => decide (w < wireNs f.len g * unitsPerNs) | none => false)
  let n := (e.pool.filter bad).length
  if n = 0 then e
  else { e with pool := e.pool.filter fun f => !bad f,
                ports := upd e.ports port fun p => { p with cnt := { p.cnt with gateNofit := p.cnt.gateNofit + BitVec.ofNat 32 n } } }

/-- A frame is taken out of the pool: whether its CRC holds; one that fails is discarded and counted for its port (R22, R24). -/
def Eth.takeOut (e : Eth) (f : PoolFrame) : Eth × Bool :=
  let bad := Config.poolFails e.poolReads
  let k := { e with pool := dropOldest (queueNo f.port f.q) e.pool, poolReads := e.poolReads + 1 }
  if bad then ({ k with ports := upd k.ports f.port fun p => { p with cnt := { p.cnt with poolCrc := p.cnt.poolCrc + 1 } } }, false)
  else (k, true)
/-- The next frame of a port that leaves the pool sound (R24, R397); the fuel bounds the frames discarded. -/
def Eth.launch (gates : List GateList) (port now : Nat) (st : BitVec 64) : Nat → Eth → Eth × Option PoolFrame
  | 0, e => (e, none)
  | fuel + 1, e => match e.next gates port now st with
    | none => (e, none)
    | some f =>
      let r := e.takeOut f
      if !r.2 then Eth.launch gates port now st fuel r.1
      else
        let late := match f.launch with | some t => decide (shortDiff t st < 0) | none => false
        ({ r.1 with ports := upd r.1.ports port fun p => { p with tx := some f, cnt :=
             { p.cnt with launchLate := p.cnt.launchLate + (if late then 1 else 0) } } }, some f)
/-- An idle port with link starts its next frame: the frame that started, if any (R397). -/
def Eth.start (e : Eth) (gates : List GateList) (port now : Nat) (st : BitVec 64) : Eth × Option PoolFrame :=
  let e := e.nofit gates port
  let p := at_ e.ports port {}
  if p.tx.isSome || !p.link then (e, none) else Eth.launch gates port now st (e.pool.length + 1) e

/-- The head frames of queue `q` that carry `DROP_LATE` and reach the head late are dropped and counted (R297). -/
def Eth.dropLateOf (port q : Nat) (st : BitVec 64) : List PoolFrame → Eth → Eth
  | [], e => e
  | _ :: fuel, e => match e.head port q with
    | some f =>
      if f.dropLate && (match f.launch with | some t => decide (shortDiff t st < 0) | none => false) then
        Eth.dropLateOf port q st fuel { e with
          pool := dropOldest (queueNo port q) e.pool
          ports := upd e.ports port fun p => { p with cnt := { p.cnt with launchDrop := p.cnt.launchDrop + 1 } } }
      else e
    | none => e
/-- The late head frames of a port's transmit queues (R297). -/
def Eth.dropLate (e : Eth) (port : Nat) (st : BitVec 64) : Eth :=
  (List.range 8).foldl (fun k q => Eth.dropLateOf port q st k.pool k) e

/-- The frame leaving a port is gone: its buffer is free (R397). -/
def Eth.txDone (e : Eth) (port : Nat) : Eth :=
  { e with ports := upd e.ports port fun p =>
      if p.tx.isSome then { p with tx := none, cnt := { p.cnt with txOk := p.cnt.txOk + 1 } } else p }

/-- The class of a received frame (R396). -/
def rxClass (c : NetCfg) (f : RxFrame) : Nat :=
  match f.pcp with
  | some p => p.val
  | none =>
    if f.port.val = 2 ∨ f.port.val = 3 then 7
    else match c.flows.find? (fun w => w.port == f.port.val &&
        (if w.udp then f.udpDst == some (BitVec.ofNat 16 w.key) else f.etherType == BitVec.ofNat 16 w.key)) with
    | some w => match c.fpins.find? (fun p => p.kind == 5 && p.target == w.fnum) with
      | some p => p.b
      | none => w.tc
    | none => 0

/-- Whether a received frame is addressed to the module: a group address, the port's MAC, or the station MAC while ACT is
set (R392, R393, R394). -/
def rxAccept (f : RxFrame) (baseMac stationMac : BitVec 48) (act : Bool) : Bool :=
  let own : BitVec 48 := if f.port.val < 2 then baseMac else if f.port.val = 4 then baseMac + 1 else baseMac + 2
  f.dst.getLsbD 40 || f.dst == own || (act && f.dst == stationMac)

/-- A duplicate of PRP or HSR: the source and sequence number seen within 400 ms (R395). -/
def Eth.isDup (e : Eth) (f : RxFrame) (mono : Nat) : Bool :=
  match f.rctSeq with
  | some s => e.dups.any fun d => d.1 == f.src && d.2.1 == s && decide (mono < d.2.2 + phMs 400)
  | none => false

/-- The duplicate table with a frame noted: entries of the last 400 ms, at most 1,024 (R395). -/
def Eth.noteDup (e : Eth) (f : RxFrame) (mono : Nat) : Eth :=
  match f.rctSeq with
  | some s => { e with dups := ((f.src, s, mono) :: e.dups.filter fun d => decide (mono < d.2.2 + phMs 400)).take 1024 }
  | none => e

/-- The station MAC of a node number: 02-55-42-00-hh-ll (R392). -/
def stationMac (node : Nat) : BitVec 48 := 0x025542000000#48 + BitVec.ofNat 48 node

/-- A PTP message. -/
def EthData.isPtp : EthData → Bool
  | .ptp _ => true
  | _ => false
/-- The octets of a PTP message by its type (IEEE 1588-2019) with the headers of its transport; a management response with an empty TLV
(log entry 11). -/
def ptpLen (g : PtpMsg) : Nat :=
  Nat.max 60 ((if g.udp then 42 else 14) + (if g.type ≤ 1 ∨ g.type = 8 then 44 else if g.type = 11 then 64 else 54))
/-- The group address to which a PTP message goes (IEEE 1588-2019, IEEE 802.1AS; PRESUMED, log entry 11). -/
def ptpDst (profile : Nat) (g : PtpMsg) : BitVec 48 :=
  let peer := g.type = 2 ∨ g.type = 3 ∨ g.type = 10
  if g.udp then (if peer then 0x01005E00006B else 0x01005E000181) else if peer ∨ profile = 2 then 0x0180C200000E else 0x011B19000000
/-- What the instant `ts` at which an event message starts puts into it: its residence since `since` into the correction, else the instant
itself into the timestamp (R286, R296). -/
def ptpInsert (g : PtpMsg) (since : Option (BitVec 96)) (ts : BitVec 96) : PtpMsg :=
  match since with
  | some a => { g with correction := g.correction + ((dtTicks ts : Int) - dtTicks a) }
  | none => { g with origin := ts }
/-- A frame as it leaves at `ts`: a `SYNC` frame takes the device time of its own start of frame (R407, R408), a `DELAY` reply its `TURN` since
the request came (R409), a one-step PTP message its insertion (R296). -/
def PoolFrame.stampOut (f : PoolFrame) (ts : BitVec 96) : PoolFrame :=
  match f.data with
  | .spoke b =>
    if field b 0 1 = 1 then { f with data := .spoke (b.take 8 ++ natLe 8 (shortOf ts).toNat ++ b.drop 16) }
    else match f.stamp with
      | some a => { f with data := .spoke (b.take 20 ++ natLe 4 ((dtTicks ts - dtTicks a) / 65536) ++ b.drop 24) }
      | none => f
  | .ptp g => if f.oneStep then { f with data := .ptp (ptpInsert g f.stamp ts) } else f
  | _ => f
/-- The message that follows a two-step PTP message which started at `ts` (R286): Follow_Up after Sync, Pdelay_Resp_Follow_Up after
Pdelay_Resp. -/
def PoolFrame.followUp (f : PoolFrame) (ts : BitVec 96) : Option PoolFrame :=
  match f.data with
  | .ptp g => if g.twoStep then
      let h := { (ptpInsert g f.stamp ts) with type := if g.type = 0 then 8 else 10, twoStep := false }
      some { port := f.port, q := f.q, len := ptpLen h, data := .ptp h, hdr := f.hdr }
    else none
  | _ => none

/-- A frame is sent under the station identity, or by the master of a Spoke port (R28, R394, R417). -/
def EthData.asStation (d : EthData) (mac : BitVec 48) : Bool :=
  match d with
  | .station _ _ => true
  | .spoke _ => true
  | .arp _ from_ _ => from_ == mac
  | .icmp _ from_ _ => from_ == mac
  | .eap _ from_ _ => from_ == mac
  | .supervision from_ => from_ == mac
  | _ => false

/-! ### Spoke -/

/-- The nodes of Spoke port `sp` (0: P3, 1: P4) in `POS` order. -/
def spokeNodes (c : NetCfg) (sp : Nat) : List NodeCfg :=
  (c.nodes.filter fun n => n.port == sp + 3).mergeSort fun a b => decide (a.pos ≤ b.pos)

/-- Spoke port `sp` runs at 1000 Mbit/s. -/
def spokeGigabit (c : NetCfg) (sp : Nat) : Bool := (at_ c.ports (sp + 2) {}).speed == 2

/-- The delay budget of a link, with the default for 0 (R402). -/
def linkBudget (gigabit : Bool) (d : Nat) : Nat := if d = 0 then (if gigabit then 1100 else 3500) else d

/-- The sizes of the `OUT` frames' segments, packed whole into frames of 1,484 bytes (R406). -/
def packSegs : List Nat → Nat → List Nat
  | [], cur => if cur = 0 then [] else [cur]
  | s :: t, cur => if cur + s ≤ 1484 then packSegs t (cur + s) else cur :: packSegs t s

/-- Lead times and loads of a Spoke port (R406): h_star, w_in, w_out, w_mgmt in ns, l_in and l_out in µs. -/
structure Leads where
  hstar : Nat
  win : Nat
  wout : Nat
  wmgmt : Nat
  lin : Nat
  lout : Nat
  sync : Nat
  deriving DecidableEq, Repr

/-- The computation of R406 for a master at the slot A end, or at the slot B end: the farthest node comes first. -/
def spokeLeads (c : NetCfg) (sp : Nat) (tandem fromB : Bool) : Leads :=
  let ns := spokeNodes c sp
  let g := spokeGigabit c sp
  let links := (ns.map fun n => linkBudget g n.linkd).sum
  let h := links + (if tandem then linkBudget g (at_ c.ports (sp + 2) {}).endd + 5000 else 0)
  let win := (ns.map fun n => wireNs (34 + Nat.max n.ilen 26) g).sum
  let wout := ((packSegs ((if fromB then ns else ns.reverse).map fun n => 4 + n.olen) 0).map fun s => wireNs (Nat.max 60 (30 + s)) g).sum
  let wm := wireNs 290 g
  let mx (f : NodeCfg → Nat) := (ns.map f).foldl Nat.max 0
  { hstar := h, win := win, wout := wout, wmgmt := wm, sync := wireNs 60 g,
    lin := ceilDiv (mx (·.tprep) + h + win + wm + 5000) 1000,
    lout := ceilDiv (wout + h + mx (·.tapp) + 2000) 1000 }

/-- The longer of the output leads from the two ends, either of which may be master (R406, R132; DEDUCED, log entry 136), in µs. -/
def spokeLout (c : NetCfg) (sp : Nat) (tandem : Bool) : Nat :=
  Nat.max (spokeLeads c sp tandem false).lout (if tandem then (spokeLeads c sp tandem true).lout else 0)
/-- The cycle of a Spoke port is feasible at period `p` ns (R406). -/
def Leads.feasible (l : Leads) (p : Nat) : Bool :=
  decide (l.lin * 1000 ≤ p) && decide (10 * (l.sync + l.wout + l.wmgmt) ≤ 9 * p) && decide (10 * (l.win + l.wmgmt) ≤ 9 * p)

/-- A Spoke frame's payload: the header of R408, the body, padding to 46 bytes. -/
def spokeFrame (stype sfl : Nat) (cycle : BitVec 32) (stime : BitVec 64) (body : Bytes) : Bytes :=
  let b := [BitVec.ofNat 8 stype, BitVec.ofNat 8 sfl] ++ natLe 2 body.length ++ natLe 4 cycle.toNat ++ natLe 8 stime.toNat ++ body
  b ++ List.replicate (46 - b.length) 0

/-- The body of a `SYNC` frame (R409). -/
def syncBody (sample : BitVec 64) (periodNs nnode station : Nat) : Bytes :=
  natLe 8 sample.toNat ++ natLe 4 periodNs ++ natLe 2 nnode ++ natLe 2 station ++ List.replicate 14 0

/-- A segment of an `OUT` frame (R409). -/
def outSeg (n : NodeCfg) (safe : Bool) (data : Bytes) : Bytes :=
  natLe 2 n.node ++ natLe 1 n.olen ++ natLe 1 (b2n safe) ++ (data ++ List.replicate n.olen 0).take n.olen

/-- Segments packed whole into bodies of at most 1,484 bytes (R406). -/
def packBodies : List Bytes → Bytes → List Bytes
  | [], cur => if cur = [] then [] else [cur]
  | s :: t, cur => if cur.length + s.length ≤ 1484 then packBodies t (cur ++ s) else cur :: packBodies t s

/-- The body of a `MGMT` request (R409). -/
def mgmtBody (hops cmd : Nat) (mseq : BitVec 16) (body : Bytes) : Bytes :=
  natLe 1 hops ++ natLe 1 cmd ++ natLe 2 mseq.toNat ++ body

/-- The state of node `n`, as held for the configuration's node entries. -/
def Eth.node (e : Eth) (n : Nat) : SpokeNode :=
  match e.nodes.find? (fun x => x.1 == n) with
  | some x => x.2
  | none => { st := 0 }

/-- The state of node `n` changed. -/
def Eth.updNode (e : Eth) (n : Nat) (f : SpokeNode → SpokeNode) : Eth :=
  { e with nodes := e.nodes.map fun x => if x.1 == n then (x.1, f x.2) else x }

/-- The entry that an identity matches: the next in order from the master's end, past hop `after` entries already
matched, with equal vendor and product (R410). -/
def matchEntry : List NodeCfg → Nat → BitVec 32 → BitVec 32 → Option NodeCfg
  | [], _, _, _ => none
  | n :: t, after, v, p =>
    if after = 0 then (if n.vendor = v.toNat ∧ n.product = p.toNat then some n else matchEntry t 0 v p)
    else matchEntry t (after - 1) v p

/-- The refusal of an identity by its entry: 0 none, codes of R425. -/
def identRefusal (n : NodeCfg) (rev maxIn maxOut tprep tapp : Nat) : Nat :=
  if rev < n.minrev then 2
  else if maxIn < n.ilen ∨ maxOut < n.olen then 3
  else if n.tprep < tprep ∨ n.tapp < tapp then 4
  else 0

/-- The path budget of a node from slot A's end, or from slot B's end (R410). -/
def pathBudget (c : NetCfg) (sp : Nat) (fromB : Bool) (pos hops : Nat) : Nat :=
  let g := spokeGigabit c sp
  let ns := spokeNodes c sp
  (if fromB then
    ((ns.filter fun n => decide (pos < n.pos)).map fun n => linkBudget g n.linkd).sum
      + linkBudget g (at_ c.ports (sp + 2) {}).endd
   else ((ns.filter fun n => decide (n.pos ≤ pos)).map fun n => linkBudget g n.linkd).sum) + 50 * hops

/-- Nodes in cycle on a port. -/
def Eth.inCycle (e : Eth) (c : NetCfg) (sp : Nat) : Nat :=
  ((spokeNodes c sp).filter fun n => (e.node n.node).st == 3).length

/-- A break by the pattern of missing nodes: some position, the master's own port included, beyond which every node is missing while all
before it are present (R413; DEDUCED, log entry 146). `present` lists the nodes in `POS` order from the master's end. -/
def breakPattern (present : List Bool) : Bool :=
  let first := present.takeWhile id
  decide (first.length < present.length) && (present.drop first.length).all (!·)

/-- `NODE_STAT` (R425): `hopA` the hops from the slot A end. -/
def SpokeNode.stat (n : SpokeNode) (hopA : Nat) : Nat :=
  n.st + 8 * n.refuse + 128 * b2n n.sideB + 256 * n.nstat.toNat + 65536 * (hopA % 256) + 2 ^ 24 * b2n n.replaced

/-- `LT_STATE` (R426). -/
def LinkTest.stateWord (l : LinkTest) (mono : Nat) : Nat :=
  let el := if l.st = 1 then (mono - l.startAt) / phS 1 else l.elapsed
  l.link + 16 * l.st + 128 * l.mode + 1024 * l.pattern + 8192 * l.cause + 65536 * Nat.min 65535 el

/-- `PORT_STAT` (R424). -/
def EthPort.stat (p : EthPort) (oos gates : Bool) : Nat :=
  b2n p.link + 2 * (if p.link then p.speed else 0) + 8 * b2n oos + 16 * b2n gates + 256 * p.downs

/-- The port counters in the order of R423. -/
def PortCnt.list (c : PortCnt) : List (BitVec 32) :=
  [c.rxOk, c.txOk, c.rxFcs, c.rxOversize, c.launchLate, c.launchDrop, c.launchGated, c.gateNofit, c.dupDiscard,
   c.poolCrc, c.dropPool]

end Sys2Proof.Machine
end

