-- ==== Sys2Proof/Machine/CfgCheck.lean ====
section
/-! DEFINITION. Step 8 of R54 apart from placement: what the tables of an image may hold (R128, R197 to R202, R222, R223,
R230, R235, R249, R298, R301, R304, R403, R434, R454, R487, R490, R547). The sections are checked in the order of their codes
(log entry 5). -/

namespace Sys2Proof.Machine

/-- `n` outside `lo` … `hi`. -/
def outside (lo hi n : Nat) : Bool := decide (n < lo) || decide (hi < n)
/-- The keys of a table repeat: the position of the second. -/
def repeats (l : List Nat) : Option Nat := (enumFrom 0 l).findSome? fun p => if (l.take p.1).contains p.2 then some p.1 else none

/-! `HARDWARE_MAP`, `TABLE` 12. -/

/-- A DIO channel is an input, or an output (R455). -/
def DioCfg.isIn (d : DioCfg) : Bool := d.use == 1 || d.use == 2
/-- See `DioCfg.isIn`. -/
def DioCfg.isOut (d : DioCfg) : Bool := d.use == 3 || d.use == 4

/-- The checks of a DIO record (R455). -/
def checkDio (i : Nat) (d : DioCfg) : Viol :=
  rejIf (outside 0 4 d.use || (d.isOut && (outside 0 2 d.kick || outside 1 1000 d.otmoMs || outside 0 3600 d.dtest)) ||
    (d.isIn && (d.fn == 0 || d.chmax == 1 || (d.chmax != 0 && d.chwin == 0)))) 12 1 i
/-- The encoder that claims a pulse-input pin (R467, R468). -/
def encClaims (encs : List EncCfg) (p : Nat) : Bool :=
  let e := at_ encs (p / 2) {}
  e.kind == 1 || (e.kind == 2 && p % 2 == 0)
/-- The checks of a PI record (R467). -/
def checkPi (encs : List EncCfg) (i : Nat) (d : PiCfg) : Viol :=
  firstViol [rejIf (outside 0 1 d.use || (d.use == 1 && (outside 0 3 d.glitch || outside 1 3 d.edge || outside 1 250 d.fgateMs ||
      outside 1 200000 d.fmax))) 12 1 (256 + i),
    rejIf (d.use == 1 && encClaims encs i) 12 5 (256 + i)]
/-- The checks of an ENC record (R469): an SSI telegram must end 5 µs before the next one, and the velocity window must span two (R471,
R472). -/
def checkEnc (i : Nat) (d : EncCfg) : Viol :=
  firstViol [rejIf (outside 0 2 d.kind || (d.kind != 0 && (outside 0 2 d.zmode || outside 5 10000 d.vwin || outside 1 (2 ^ 31 - 1) d.vmax)) ||
    (d.kind == 2 && (outside 10 32 d.sbits || outside 100 2000 d.sclk || outside 1 20 d.sper))) 12 1 (512 + i),
    rejIf (d.kind == 2 && (decide (d.sper * 50000 < d.telegramNs + 5000) || decide (d.vwin * 10 < d.sper * 100))) 12 8 (512 + i)]
/-- The checks of an AI record (R477). -/
def checkAi (i : Nat) (d : AiCfg) : Viol :=
  rejIf (outside 0 3 d.use || (d.use != 0 && (outside 0 5 d.rate || outside 0 1000 d.rloop || (d.ls && outside 80 240 d.vtx))))
    12 1 (768 + i)
/-- The checks of an AO record (R478). -/
def checkAo (i : Nat) (d : AoCfg) : Viol :=
  rejIf (outside 0 1 d.use || (d.use == 1 && (outside 0 2 d.kick || outside 1 1000 d.otmoMs || !fIsFin d.kval ||
    fLt d.kval 0 || fLt (fOfInt 24) d.kval))) 12 1 (1024 + i)
/-- The checks of a TOU record (R298, R299). -/
def checkTou (dio : List DioCfg) (all : List TouCfg) (i : Nat) (d : TouCfg) : Viol :=
  let e := 1280 + d.unum
  let pulse := decide (d.edge ≤ 1)
  let sync := d.route == 0x20 || d.route == 0x21
  let onDio := decide (d.route < 0x20)
  firstViol [rejIf (outside 0 31 d.unum || (decide (0x21 < d.route) && d.route != 0xFF) || outside 0 4 d.edge || outside 0 1 d.latePol ||
      outside 0 2 d.lockReq) 12 1 e,
    rejIf (d.route != 0xFF && (all.take i).any (fun o => o.route == d.route)) 12 5 e,
    rejIf ((all.take i).any (fun o => o.unum == d.unum) || (onDio && !(at_ dio d.route {}).isOut) ||
      (sync && ((pulse && decide (d.width < 20)) || (d.period != 0 && decide (d.period < 100)))) ||
      (onDio && ((pulse && decide (d.width < 100000)) || (d.period != 0 && decide (d.period < 200000)))) ||
      (pulse && d.period != 0 && decide (d.period ≤ d.width))) 12 8 e]
/-- A capture source exists (R302). -/
def tcuSrcOk (s : Nat) : Bool := decide (s ≤ 0x2B) || s == 0x30 || s == 0x31 || s == 0xFF
/-- The checks of a TCU record (R302). -/
def checkTcu (all : List TcuCfg) (i : Nat) (d : TcuCfg) : Viol :=
  firstViol [rejIf (outside 0 31 d.unum || !tcuSrcOk d.src || outside 1 3 d.edge) 12 1 (1536 + d.unum),
    rejIf ((all.take i).any fun o => o.unum == d.unum) 12 8 (1536 + d.unum)]
/-- The checks of `HARDWARE_MAP` (R454). -/
def checkHw (c : Cfg) : Viol :=
  firstViol [eachViol c.dio checkDio, eachViol c.pi (checkPi c.enc), eachViol c.enc checkEnc, eachViol c.ai checkAi,
    eachViol c.ao checkAo, eachViol c.tou (checkTou c.dio c.tou), eachViol c.tcu (checkTcu c.tcu)]

/-! `TASKS` (R128). -/

/-- `TASKS_INVALID` with its detail word (R128). -/
def taskRej (task case offs unit ukind : Nat) : Reject :=
  { code := 2, where_ := task % 16 + 16 * case + 256 * (offs % 256) + 65536 * (unit % 4096) + 2 ^ 28 * ukind }
/-- Case 1 for one task entry: the offset of the first field out of range. -/
def taskField (t : TaskCfg) : Option Nat :=
  let trigOk : Bool :=
    let q := t.trig / 2 ^ 16 % 256
    match t.trig / 2 ^ 24 with
    | 1 => decide (1 ≤ q) && decide (q ≤ 3)
    | 2 => decide (q ≤ 3)
    | c => decide (c ≤ 5) && q == 0
  if 3 < t.kind then some 0
  else if t.kind ≠ 3 ∧ 15 < t.prio then some 1
  else if 3 < t.ovpol then some 2
  else if t.kind = 1 ∧ (outside 2 80000 t.period) = true ∨ t.kind ≠ 1 ∧ t.period ≠ 0 then some 4
  else if t.kind = 1 ∧ t.period ≤ t.phase ∨ t.kind ≠ 1 ∧ t.phase ≠ 0 then some 8
  else if t.kind = 1 ∧ (outside 50 (t.period * 125) t.oofs) = true ∨ t.kind = 2 ∧ (outside 50 1000000 t.oofs) = true ∨
      t.kind = 3 ∧ t.oofs ≠ 0 then some 12
  else if t.kind = 2 ∧ !trigOk then some 16
  else if t.kind = 2 ∧ (outside 125 10000000 t.minint) = true then some 20
  else none
/-- The instances of the net in task order and invocation order, with their task. -/
def netOrder (n : Net) : List (Nat × Nat × InstCfg) :=
  ((enumFrom 0 n.lists).map fun ((t, l) : Nat × List Nat) => l.filterMap fun i => (n.insts[i]?).map fun x => (t, i, x)).flatten
/-- What an output block writes: kind, unit, first and end byte (R128, case 4). -/
def writesOf (x : InstCfg) : Option (Nat × Nat × Nat × Nat) :=
  let p (i : Nat) := (pw x.params i).toNat
  if x.type = 0x0081 then some (1, p 0 % 256, 0, 1)
  else if x.type = 0x0083 then some (2, p 0 % 256, 0, 1)
  else if x.type = 0x0087 then some (3, p 0 % 65536, p 1 % 65536, p 1 % 65536 + tyWidth (p 2 % 256) / 8)
  else none
/-- Two writes meet. -/
def writesMeet (a b : Nat × Nat × Nat × Nat) : Bool :=
  a.1 == b.1 && a.2.1 == b.2.1 && decide (a.2.2.1 < b.2.2.2) && decide (b.2.2.1 < a.2.2.2)
/-- The task that a Spoke port is locked to. -/
def TasksCfg.lockOf (c : TasksCfg) (port : Nat) : Option Nat := if port = 3 then c.lockP3 else c.lockP4
/-- The port of a Spoke node. -/
def nodePort (c : NetCfg) (node : Nat) : Nat := match c.nodes.find? fun n => n.node == node with | some n => n.port | none => 0
/-- The task entry of a task number. -/
def TasksCfg.task (c : TasksCfg) (t : Nat) : TaskCfg := at_ c.tasks t {}

/-- The checks of `TASKS` in the order of the cases of R128; `pinOk` that the pin table fits (R176). -/
def checkTasks (c : Cfg) (ntask : Nat) (dir : List (Nat × Nat)) (pinOk : Bool) : Viol :=
  let ts := c.tasks
  let writers := (netOrder c.net).filterMap fun p => (writesOf p.2.2).map fun w => (p.1, w)
  let lockBad (l : Option Nat) : Bool := match l with | some t => decide (t < 16) && (ts.task t).kind != 1 | none => false
  let lockOut (l : Option Nat) : Bool := match l with | some t => decide (16 ≤ t) | none => false
  firstViol [
    eachViol ts.tasks fun i t => (taskField t).bind fun o => some (taskRej i 1 o 0 0),
    if lockBad ts.lockP3 then some (taskRej (ts.lockP3.getD 0) 2 8 0 0) else none,
    if lockBad ts.lockP4 then some (taskRej (ts.lockP4.getD 0) 2 9 0 0) else none,
    eachViol dir fun i d => if d.2 ≠ 0 ∧ (ts.task i).kind = 0 then some (taskRej i 3 0xFF 0 0) else none,
    (enumFrom 0 writers).findSome? fun ((k, w) : Nat × (Nat × (Nat × Nat × Nat × Nat))) =>
      if (writers.take k).any fun o => writesMeet o.2 w.2 then some (taskRej w.1 4 0xFF w.2.2.1 w.2.1) else none,
    writers.findSome? fun w =>
      if w.2.1 = 3 ∧ nodePort c.netc w.2.2.1 ≠ 0 ∧ (ts.lockOf (nodePort c.netc w.2.2.1)).isNone then
        some (taskRej w.1 5 0xFF w.2.2.1 3) else none,
    if pinOk then none else some (taskRej 0 6 0xFF 0 0),
    if outside 1 16 ntask then some (taskRej 0 7 0 0 0) else none,
    if lockOut ts.lockP3 then some (taskRej 0 7 8 0 0) else none,
    if lockOut ts.lockP4 then some (taskRej 0 7 9 0 0) else none ]

/-! `LOOPS`, `TABLE` 8. -/

/-- A read port is allowed for a loop (R198, R223). -/
def readPortOk (c : Cfg) (p : Nat) : Bool :=
  if p < 0x0C then (at_ c.enc (p % 4) {}).kind != 0
  else if 0x10 ≤ p ∧ p < 0x20 then (at_ c.ai (p - 0x10) {}).use != 0
  else if 0x20 ≤ p ∧ p < 0x28 then (at_ c.pi (p - 0x20) {}).use != 0
  else p == 0x28 || p == 0x29 || (0x30 ≤ p && p ≤ 0x33) || (0x40 ≤ p && p < 0x80)
/-- A write port is allowed for a loop (R199, R235). -/
def writePortOk (c : Cfg) (d : LoopCfg) (p : Nat) : Bool :=
  if 0x80 ≤ p ∧ p < 0x88 then d.oport == p && (at_ c.ao (p - 0x80) {}).use != 0
  else if p = 0x98 ∨ p = 0x99 then d.modes.any (·.bt)
  else p == 0x90 || 0xC0 ≤ p
/-- The ports that a loop owns: its AO, its brake axes and its link words (R199). -/
def LoopCfg.owned (d : LoopCfg) : List Nat :=
  (d.oport :: d.prog.filterMap fun w => match ceDecode w with | some (.wr _ p) => some p.toNat | _ => none).filter fun p =>
    (0x80 ≤ p && p < 0x88) || p == 0x98 || p == 0x99 || 0xC0 ≤ p
/-- The checks of one instruction (R197, R198, R199, R223). -/
def checkCeWord (c : Cfg) (d : LoopCfg) (i : Nat) (w : BitVec 32) : Viol :=
  match ceDecode w with
  | none => some (netRej 8 2 d.lnum)
  | some ins =>
    let op := w.toNat / 2 ^ 26
    firstViol [rejIf (w.toNat &&& (2 ^ 32 - 1 - ceUsed op) != 0) 8 1 d.lnum,
      match ins with
      | .lda _ k | .sta _ k => rejIf (decide (254 < k.toNat)) 8 1 d.lnum
      | .sha _ k => rejIf (k == 0x20) 8 1 d.lnum
      | .rd _ p => rejIf (!readPortOk c p.toNat) 8 8 d.lnum
      | .wr _ p =>
        if 0x80 ≤ p.toNat ∧ p.toNat < 0x88 ∧ (at_ c.ao (p.toNat - 0x80) {}).use ≠ 0 ∧ c.loops.any (fun o => o.oport == p.toNat && o.lid != d.lid)
        then some (netRej 8 5 d.lnum) else rejIf (!writePortOk c d p.toNat) 8 8 d.lnum
      | .br _ t => rejIf (decide (t.toNat ≤ i) || decide (d.prog.length ≤ t.toNat)) 8 8 d.lnum
      | .tbl _ tb e | .tblf _ tb e => rejIf (!(c.tabs.any fun t => t.tnum == tb.val) || (at_ c.enc e {}).kind == 0) 8 8 d.lnum
      | _ => none]
/-- The checks of a mode's entry (R230). -/
def modeParBad (d : LoopCfg) (i : Nat) (m : ModePar) : Bool :=
  if d.nmode ≤ i then m != {}
  else decide (m.hi < m.lo) || m.method == 3 || (m.method == 1 && m.arg == 0) ||
    (m.method == 0 && m.arg % 256 != 0xFF && (decide (m.arg % 256 < d.pwords) || decide (253 < m.arg % 256))) || (m.bt && i == 0)
/-- The worst-case cycle count of a loop: the instructions of its longest path and 12 of overhead; none where some path runs
past the end (R197). -/
def LoopCfg.worst (d : LoopCfg) : Option Nat :=
  let costs := ceCosts 0 (d.prog.filterMap ceDecode)
  let each := (d.entry.take d.nmode).map fun e => (costs[e]?).join
  if each.all (·.isSome) then some ((each.map fun o => o.getD 0).foldl Nat.max 0 + 12) else none
/-- The checks of a loop (R197 to R202, R230). -/
def checkLoop (c : Cfg) (i : Nat) (d : LoopCfg) : Viol :=
  let n := d.lnum
  let before := c.loops.take i
  firstViol [
    rejIf (outside 0 511 n || outside 1 20000 d.period || decide (d.period ≤ d.phase) || outside 1 128 d.prog.length || outside 1 4 d.nmode ||
      (d.oport != 0 && decide (d.oport < 0x80)) || field d.raw 20 4 % 4 != 0 ||
      ((enumFrom 0 d.entry).any fun p => if p.1 < d.nmode then decide (d.prog.length ≤ p.2) else p.2 != 0) ||
      (d.modes.any fun m => decide (32767 < m.rate))) 8 1 n,
    rejIf (before.any fun o => o.lnum == n || o.lid == d.lid) 8 8 n,
    eachViol d.prog (checkCeWord c d),
    rejIf (d.oport != 0 && !writePortOk c d d.oport) 8 8 n,
    rejIf d.worst.isNone 8 8 n,
    rejIf ((enumFrom 0 d.modes).any fun p => modeParBad d p.1 p.2) 8 8 n,
    rejIf (d.owned.any fun p => before.any fun o => o.owned.contains p) 8 5 n]
/-- The checks of `LOOPS`, with the AO channels that `AO_OUT` blocks write (R199). -/
def checkLoops (c : Cfg) : Viol :=
  let aoOut := c.net.insts.filterMap fun x => if x.type = 0x0083 then some (0x80 + (pw x.params 0).toNat % 256) else none
  firstViol [eachViol c.loops (checkLoop c),
    c.loops.findSome? fun d => rejIf (d.owned.any aoOut.contains) 8 5 d.lnum]

/-- The checks of `TABLES` (R221, R222). -/
def checkTabs (c : Cfg) : Viol :=
  eachViol c.tabs fun i t => firstViol [rejIf (outside 0 15 t.tnum || !t.kindOk || outside 1 (2 ^ 31 - 1) t.span || decide (32767 < t.db)) 8 1 t.tnum,
    rejIf ((c.tabs.take i).any fun o => o.tnum == t.tnum) 8 8 t.tnum]

/-! `ALARMS`, `TABLE` 9 (R249). -/

/-- The `ALM_IN` instances of a point. -/
def almIns (n : Net) (pnum : Nat) : List InstCfg := n.insts.filter fun x => x.type == 0x0090 && (pw x.params 0).toNat % 65536 == pnum
/-- The type of the source of a point, none where it has none (R249). -/
def srcType (c : Cfg) (p : PtCfg) : Option Nat :=
  match p.srckind with
  | 0 => ((almIns c.net p.pnum).head?).bind fun x => (at_ x.binds 0 {}).sig.bind fun s => (c.net.sigs[s]?).map (·.stype)
  | 1 => (c.net.sigs[p.src]?).map (·.stype)
  | 2 => if (at_ c.dio p.src {}).isIn then some 1 else none
  | _ => if (at_ c.ai p.src {}).use ≠ 0 then some 4 else none
/-- A type that a measuring point reads (R249). -/
def isMeasure (t : Nat) : Bool := t == 2 || t == 3 || t == 4 || t == 5
/-- The checks of a point (R248, R249, R256, R266). -/
def checkPt (c : Cfg) (i : Nat) (p : PtCfg) : Viol :=
  let n := p.pnum
  let before := c.alarms.points.take i
  firstViol [
    rejIf (outside 0 16383 n || outside 0 3 p.ptype || outside 0 3 p.srckind || outside 1 4 p.prio || outside 1 1440 p.shlvmax ||
      outside 0 (if p.ptype = 1 then 3 else if p.ptype = 3 then 1 else 0) p.level ||
      (if p.ptype = 3 then outside 16 60000 p.aux else outside 0 (if p.ptype = 2 then c.net.sigs.length - 1 else 0) p.aux) ||
      fLt p.dband 0 || fIsNaN p.dband || (p.invert && p.ptype != 0) ||
      outside 0 (match p.srckind with | 0 => 0 | 1 => c.net.sigs.length - 1 | 2 => 31 | _ => 15) p.src) 9 1 n,
    rejIf (before.any fun o => o.pid == p.pid || o.pnum == p.pnum) 9 6 n,
    rejIf (p.srckind == 0 && (almIns c.net n).length != 1) 9 8 n,
    (match srcType c p with
      | none => some (netRej 9 8 n)
      | some t => rejIf (if p.ptype = 0 then t != 1 else !isMeasure t) 9 4 n),
    rejIf (p.ptype == 2 && !(match c.net.sigs[p.aux]? with | some s => isMeasure s.stype | none => false)) 9 4 n,
    rejIf ((p.sgroup != 0xFF && decide (c.alarms.sgrps.length ≤ p.sgroup)) ||
      (p.fgroup != 0xFF && !(c.alarms.fgrps.any fun g => g.gnum == p.fgroup))) 9 8 n]
/-- The checks of `ALARMS`. -/
def checkAlarms (c : Cfg) : Viol :=
  let a := c.alarms
  let boolSig (s : Nat) : Bool := match c.net.sigs[s]? with | some x => x.stype == 1 | none => false
  firstViol [rejIf (decide (16384 < a.points.length) || outside 10 10000 a.flood || decide (256 < a.sgrps.length) || decide (256 < a.fgrps.length)) 9 1 0,
    eachViol a.points (checkPt c),
    eachViol a.sgrps fun i g => firstViol [rejIf (decide (c.net.sigs.length ≤ g.sig)) 9 1 i, rejIf (!boolSig g.sig) 9 4 i],
    eachViol a.fgrps fun i g => firstViol [
      rejIf (outside 5 1000 g.settle || outside 1 16 g.part.length || g.part.any (outside 1 4095) ||
        (match g.rstsig with | some s => decide (c.net.sigs.length ≤ s) | none => false)) 9 1 g.gnum,
      rejIf (match g.rstsig with | some s => !boolSig s | none => false) 9 4 g.gnum,
      rejIf (!(g.part.zip g.part.tail).all (fun p => decide (p.1 < p.2)) || !g.part.contains c.ident.node ||
        (a.fgrps.take i).any (fun o => o.gnum == g.gnum)) 9 8 g.gnum]]

/-! `NETWORK`, `TABLE` 10 (R403). -/

/-- The checks of the PTP record (R286, R288). -/
def checkPtp (p : PtpCfg) : Bool :=
  outside 0 2 p.profile || outside 0 (if p.profile = 2 then 0 else 127) p.domain || decide (p.logSync < -7 ∨ 1 < p.logSync) ||
    decide (p.logAnn < -3 ∨ 3 < p.logAnn) || decide (p.logPdly < -7 ∨ 3 < p.logPdly) || outside 0 254 p.prio2 || outside 2 10 p.annTmo || outside 10000 1000000000 p.stepLimit ||
    outside 5 10000 p.lockThr || outside 1 100000 p.holdDrift || outside 100 100000000 p.holdLimit
/-- The checks of a node entry (R402, R403). -/
def checkNode (c : NetCfg) (i : Nat) (n : NodeCfg) : Viol :=
  firstViol [rejIf (outside 1 256 n.node || outside 3 4 n.port || outside 1 128 n.pos || outside 0 252 n.ilen || n.ilen % 4 != 0 ||
      outside 0 252 n.olen || n.olen % 4 != 0 || outside 500 50000 n.tprep || outside 500 50000 n.tapp ||
      (n.linkd != 0 && outside 300 5000 n.linkd) || outside 3 255 n.wdog) 10 1 n.node,
    rejIf ((c.nodes.take i).any fun o => o.node == n.node || (o.port == n.port && o.pos == n.pos)) 10 6 n.node]
/-- The checks of `NETWORK`, whose bytes are `b`; `tandem` the carrier's kind. -/
def checkNetwork (c : Cfg) (b : Bytes) (tandem : Bool) : Viol :=
  let n := c.netc
  let spokePort (sp : Nat) : Viol :=
    if (spokeNodes n sp).isEmpty then none
    else match c.tasks.lockOf (sp + 3) with
      | some t => rejIf ([false, true].any fun b => (!b || tandem) && !(spokeLeads n sp tandem b).feasible ((c.tasks.task t).period * 125000))
          10 10 (sp + 3)
      | none => none
  if !c.hasNet then none else
  firstViol [rejIf (field b 0 1 != 1 || outside 0 2 n.prmode || outside 0 4094 n.vid || decide (3 < field b 36 2) || decide (256 < field b 38 2) ||
      decide (256 < field b 44 2) || decide (256 < field b 46 2) || decide (256 < field b 56 2) ||
      [28, 32, 40, 48, 52, 60].any (fun o => field b o 4 % 16 != 0)) 10 1 0,
    eachViol n.ports fun i p => rejIf (outside 0 1 (field b (64 + 8 * i) 1) || outside 0 2 p.speed || (p.pen && (i == 2 || i == 3) && p.speed == 0) ||
      (p.endd != 0 && ((i != 2 && i != 3) || !tandem || outside 300 5000 p.endd))) 10 1 (i + 1),
    (n.ptp.bind fun p => rejIf (checkPtp p) 10 1 0),
    eachViol n.gates fun i g => firstViol [
      rejIf (!([0, 1, 4].contains g.port) || outside 1 64 g.ents.length || !dtValid g.base ||
        g.ents.any (fun e => outside 1000 1000000000 e.interval)) 10 1 (g.port + 1),
      rejIf ((n.gates.take i).any fun o => o.port == g.port) 10 8 (g.port + 1)],
    eachViol (recs b (field b 40 4) 16 (if field b 40 4 = 0 then 0 else field b 38 2)) fun _ r =>
      rejIf (outside 0 1 (field r 4 1)) 10 1 (field r 0 2),
    eachViol n.flows fun i f => firstViol [rejIf (decide (4 < f.port) || outside 0 7 f.tc) 10 1 f.fnum,
      rejIf ((n.flows.take i).any fun o => o.fnum == f.fnum) 10 6 f.fnum],
    eachViol n.acts fun _ a => firstViol [rejIf (outside 0 31 a.unit || outside 0 1 a.latePol || outside 0 2 a.lockReq) 10 1 a.action,
      rejIf (!(c.tou.any fun t => t.unum == a.unit)) 10 8 a.action],
    rejIf (!n.acts.isEmpty && c.cred.actkey.all (· == 0)) 10 8 0,
    eachViol n.nodes (checkNode n), spokePort 0, spokePort 1]

/-! `CAN`, `TABLE` 11 (R434). -/

/-- The data lengths of R427. -/
def canLens (fd : Bool) : List Nat := [0, 1, 2, 3, 4, 5, 6, 7, 8] ++ if fd then [12, 16, 20, 24, 32, 48, 64] else []
/-- A pair of rates within R427 and R428; a data rate of 0 is classical. -/
def canRatesOk (nbr dbr : Nat) : Bool :=
  canRateOk nbr && !outside 10 1000 nbr && (dbr == 0 || canRateOk dbr && decide (dbr ≤ 5000))
/-- The checks of the header of `CAN`, whose bytes are `b`, and of its candidates (R429 to R431, R434); `ENTRY` is that of CAN0 or of the
controller (log entry 126). -/
def checkCanHdr (c : Cfg) (b : Bytes) : Viol :=
  firstViol [
    rejIf (field b 0 1 != 1 || field b 4 4 % 4 != 0 || field b 8 4 % 4 != 0 || c.can.cands.any fun e => !canRatesOk e.1 e.2) 11 1 0,
    eachViol (recs b 16 32 4) fun k r =>
      rejIf (outside 0 1 (field r 0 1) || field r 0 1 == 1 && (outside 0 1 (field r 1 1) || field r 16 4 % 4 != 0 || field r 20 4 % 4 != 0 ||
        field r 24 4 % 4 != 0 || decide (256 < field r 12 2) || decide (64 < field r 14 2))) 11 1 (k * 256)]
/-- The checks of a controller (R428, R430 to R434). -/
def checkCanCtrl (k : Nat) (c : CanCtrlCfg) : Viol :=
  let e (i : Nat) := k * 256 + i
  if !c.cen then none else
  firstViol [
    rejIf ((c.nbr != 0 && !canRatesOk c.nbr c.dbr) || (if c.fd then (c.dbr == 0 && c.nbr != 0) || (c.dbr != 0 && (!canRateOk c.dbr || decide (5000 < c.dbr))) else c.dbr != 0) ||
      c.service && (outside 0 253 c.svc.paddr || outside 0 253 c.svc.amin || outside 0 253 c.svc.amax) || outside 50 90 c.nsp || outside 50 90 c.dsp || outside 0 10000 c.boffDly || decide (256 < c.rx.length) || decide (64 < c.tx.length)) 11 1 (e 0),
    eachViol c.rx fun i r => firstViol [
      rejIf (outside 0 60000 r.rtmo || decide (8 < r.fields.length) || r.fields.any (fun f => outside 1 32 f.len) ||
        (!r.ide && decide (2047 < r.id.toNat))) 11 1 (e i),
      rejIf ((c.rx.take i).any fun o => o.id == r.id && o.ide == r.ide) 11 6 (e i),
      rejIf ((!r.svc && r.fields.any fun f => !f.within 64) || ((r.svc || r.fastpkt) && !c.service)) 11 8 (e i)],
    eachViol c.tx fun i t => firstViol [
      rejIf (outside 1 10000 t.txtmo || decide (8 < t.fields.length) || t.fields.any (fun f => outside 1 32 f.len) ||
        (!t.ide && decide (2047 < t.id.toNat)) || (if t.svc then decide ((if t.fastpkt then 223 else 1785) < t.dlen) else !(canLens t.fd).contains t.dlen) ||
        (t.fd && !c.fd)) 11 1 (e i),
      rejIf ((t.fields.any fun f => !f.within t.dlen) || ((t.svc || t.fastpkt) && !c.service)) 11 8 (e i)],
    rejIf (decide (8 < (c.tx.filter (·.persistent)).length)) 11 10 (e 0)]

/-! References from the net to other sections, `TABLE` 3. -/

/-- What an instance names exists (R120, R128, R208, R301, R304, R403, R434, R454); `sel` are the counters' selections. -/
def checkRef (c : Cfg) (sel : List (BitVec 16)) (before : List InstCfg) (i : Nat) (x : InstCfg) : Viol :=
  let p (k : Nat) := (pw x.params k).toNat
  let twice (ty : Nat) (same : InstCfg → Bool) : Bool := before.any fun o => o.type == ty && same o
  let node := c.netc.nodes.find? fun n => n.node == p 0 % 65536
  let fits (len : Nat) : Bool := decide (p 1 % 65536 + tyWidth (p 2 % 256) / 8 ≤ len)
  match x.type with
  | 0x0071 => rejIf (!(c.loops.any fun d => d.lnum == p 0 % 65536) || twice 0x0071 fun o => pw o.params 0 == pw x.params 0) 3 8 i
  | 0x0080 => rejIf (!(at_ c.dio (p 0 % 256) {}).isIn) 3 8 i
  | 0x0081 => firstViol [rejIf (!(at_ c.dio (p 0 % 256) {}).isOut) 3 8 i, rejIf (c.tou.any fun t => t.route == p 0 % 256) 3 5 i]
  | 0x0082 => rejIf ((at_ c.ai (p 0 % 256) {}).use == 0) 3 8 i
  | 0x0083 => rejIf ((at_ c.ao (p 0 % 256) {}).use == 0) 3 8 i
  | 0x0084 => rejIf (if p 0 % 256 = 0 then (at_ c.pi (p 1 % 256) {}).use == 0 else (at_ c.enc (p 1 % 256) {}).kind == 0) 3 8 i
  | 0x0086 => rejIf (match node with | some n => !fits n.ilen | none => true) 3 8 i
  | 0x0087 => rejIf (match node with | some n => !fits n.olen | none => true) 3 8 i
  | 0x0088 =>
    let k := at_ c.can.ctrls (p 0 % 256) {}
    rejIf (!k.cen || decide (k.rx.length ≤ p 1 % 65536) ||
      twice 0x0088 fun o => pw o.params 0 == pw x.params 0 && pw o.params 1 == pw x.params 1) 3 8 i
  | 0x0089 =>
    let k := at_ c.can.ctrls (p 0 % 256) {}
    rejIf (!k.cen || decide (k.tx.length ≤ p 1 % 65536) ||
      twice 0x0089 fun o => pw o.params 0 == pw x.params 0 && pw o.params 1 == pw x.params 1) 3 8 i
  | 0x0090 => rejIf (!(c.alarms.points.any fun t => t.pnum == p 0 % 65536 && t.srckind == 0)) 3 8 i
  | 0x0091 =>
    rejIf (if bitOf (p 0) 16 then !(c.alarms.fgrps.any fun g => g.gnum == p 0 % 65536)
      else !(c.alarms.points.any fun t => t.pnum == p 0 % 65536)) 3 8 i
  | 0x00A2 => rejIf (c.cred.actkey.all (· == 0)) 3 8 i
  | 0x00A3 => rejIf (c.netc.acts.any fun a => a.unit == p 0 % 256) 3 8 i
  | 0x00B1 => rejIf (p 1 % 256 != 0 && (p 0 % 2 == 1 || !selChain (at_ sel (p 0 % 256 + 1) 0))) 3 8 i
  | 0x00B3 => rejIf ((c.tasks.task (p 0 % 256)).kind != 2) 3 8 i
  | _ => none
/-- The references of the instance at place `i`, and the number of remote points up to it (R403). -/
def checkRefAt (c : Cfg) (sel : List (BitVec 16)) (i : Nat) : Viol :=
  match c.net.insts[i]? with
  | none => none
  | some x =>
    let before := c.net.insts.take i
    let isRio (x : InstCfg) : Bool := x.type == 0x0086 || x.type == 0x0087
    firstViol [checkRef c sel before i x, rejIf (isRio x && decide (16384 ≤ (before.filter isRio).length)) 3 10 i]

/-! `HART`, `TRIMS`, `DISPLAY`. -/

/-- The checks of `HART`, `TABLE` 13 (R490). -/
def checkHart (c : Cfg) (b : Bytes) : Viol :=
  firstViol [rejIf (decide (24 < c.hart.length)) 13 1 0,
    eachViol c.hart fun i h => firstViol [
      rejIf (outside 0 1 (field b (16 + 16 * i) 1) || outside 0 (if h.ao then 7 else 15) h.ch || outside 0 63 h.poll || !([0, 3, 9, 48].contains h.scan) || outside 0 5 h.retry ||
        (h.scan != 0 && outside 5 36000 h.scanPer)) 13 1 i,
      rejIf (!(if h.ao then (at_ c.ao h.ch {}).hart && (at_ c.ao h.ch {}).use != 0 else (at_ c.ai h.ch {}).hart && (at_ c.ai h.ch {}).use != 0) ||
        (c.hart.take i).any (fun o => o.ao == h.ao && o.ch == h.ch)) 13 8 i]]
/-- A trim value lies within 0.2 mA of nominal (R487). -/
def trimNear (v : Real32) (nominal : Int) : Bool :=
  fIsFin v && decide ((5 * (fUnits v - nominal * 2 ^ 149)).natAbs ≤ 2 ^ 149)
/-- The checks of `TRIMS`, `TABLE` 14 (R487). -/
def checkTrims (c : Cfg) : Viol :=
  firstViol [rejIf (decide (48 < c.trims.length)) 14 1 0,
    eachViol c.trims fun i t => firstViol [
      rejIf (outside 0 1 t.cls || outside 0 (if t.cls = 0 then 15 else 7) t.ch || outside 0 2 t.pos || !trimNear t.t4 4 || !trimNear t.t20 20) 14 1 i,
      rejIf ((c.trims.take i).any fun o => o.cls == t.cls && o.ch == t.ch && o.pos == t.pos) 14 6 i]]
/-- The checks of `DISPLAY`, `TABLE` 15 (R547). -/
def checkIcons (c : Cfg) : Viol :=
  firstViol [rejIf (decide (38 < c.icons.length)) 15 1 0,
    eachViol c.icons fun i d => firstViol [rejIf (outside 0 37 d.icon || decide (c.net.sigs.length ≤ d.sig)) 15 1 i,
      rejIf ((c.icons.take i).any fun o => o.icon == d.icon) 15 6 i,
      rejIf ((at_ c.net.sigs d.sig { stype := 0 }).stype != 1) 15 4 i]]

/-! The whole image. -/

/-- The bytes of the section of a type; none where the image lacks it. -/
def secBytes (img : Bytes) (secs : List SecEnt) (type : Nat) : Bytes :=
  match secs.find? fun s => s.type == type with | some s => s.bytes img | none => []
/-- The image has a section of a type. -/
def hasSec (secs : List SecEnt) (type : Nat) : Bool := secs.any fun s => s.type == type
/-- A section's table, the default where the image lacks the section. -/
def ifSec {α : Type} (img : Bytes) (secs : List SecEnt) (type : Nat) (d : α) (f : Bytes → α) : α :=
  if hasSec secs type then f (secBytes img secs type) else d
/-- `TABLES` (R221, R222). -/
def parseTabs (b : Bytes) : List TabCfg :=
  (enumFrom 0 (recs b (field b 4 4) 16 (field b 0 2))).map fun ((i, r) : Nat × Bytes) =>
    { tnum := field r 0 1, linear := field r 1 1 != 0, kindOk := decide (field r 1 1 ≤ 1), origin := sfield r 4 4, span := field r 8 4, db := field r 12 2,
      sgain := field r 14 2, data := tabulate 1024 fun k => BitVec.ofNat 16 (field b (field b 8 4 + i * 2048 + 2 * k) 2) }

/-- The configuration of an image that has passed steps 1 to 6. -/
def parseCfg (img : Bytes) : Cfg :=
  let secs := imgSecs img
  let raw := parseRawNet (secBytes img secs 5)
  let c : Cfg :=
    { version := field img 8 4, icrc := crc32 img, secs := secs, ident := (parseIdent (secBytes img secs 1)).getD {},
      reqs := parseReqs (secBytes img secs 2), tasks := parseTasks (secBytes img secs 4), net := (buildNet raw).1,
      loops := ifSec img secs 6 [] parseLoops, tabs := ifSec img secs 7 [] parseTabs, alarms := ifSec img secs 8 {} parseAlarms,
      netc := ifSec img secs 9 {} parseNet, hasNet := hasSec secs 9, can := ifSec img secs 0xA {} parseCan,
      hart := ifSec img secs 0xB [] parseHart, icons := ifSec img secs 0xC [] parseDisplay,
      swimg := field (secBytes img secs 0xD) 0 2, swinv := field (secBytes img secs 0xD) 2 2,
      cred := parseCred (secBytes img secs 0xE), trims := ifSec img secs 0xF [] parseTrims }
  parseHw c (secBytes img secs 3)

/-- Step 7 of R54, with the ranges of R56 and R316. -/
def checkReqs (img : Bytes) (main si hw : Nat) (variantE : Bool) : Bool :=
  let secs := imgSecs img
  (parseIdent (secBytes img secs 1)).isSome && (parseReqs (secBytes img secs 2)).met main si hw variantE

/-- The headers of `HARDWARE_MAP`, `LOOPS`, `TABLES` and `ALARMS`: version, counts, and table offsets that are multiples of 4 or 16 (R201,
R221, R247, R453); `ENTRY` is 0 (log entry 107). -/
def checkSecHdrs (img : Bytes) (type : Nat) : Viol :=
  let b := secBytes img (imgSecs img) type
  let odd (o : Nat) : Bool := field b o 4 % 16 != 0
  if !hasSec (imgSecs img) type then none
  else match type with
    | 3 => rejIf (field b 0 2 != 1 || [4, 8, 12, 16, 20, 28, 32].any (fun o => field b o 4 % 4 != 0) || decide (32 < field b 24 1) ||
        decide (32 < field b 25 1)) 12 1 0
    | 6 => rejIf (outside 1 512 (field b 0 2) || odd 4) 8 1 0
    | 7 => rejIf (outside 1 16 (field b 0 2) || odd 4 || odd 8) 8 1 0
    | _ => rejIf (odd 4 || odd 12 || odd 16) 9 1 0
/-- The first violation of the tables of an image (step 8 of R54, before placement); `sel` are the counters' selections (R120). -/
def checkTables (img : Bytes) (c : Cfg) (fwMain : Nat) (tandem : Bool) (sel : List (BitVec 16)) : Viol :=
  let secs := imgSecs img
  let bn := secBytes img secs 5
  let raw := parseRawNet bn
  let bt := buildNet raw
  let tb := secBytes img secs 4
  let pinOk := decide (tb.length ≤ 528) || (decide (field tb 528 4 ≤ 4096) && decide (532 + 12 * field tb 528 4 ≤ tb.length))
  firstViol [checkNet bn fwMain raw bt.2.1 c.net.lists (checkRefAt c sel),
    checkTasks c (field tb 0 1) raw.dir pinOk,
    checkSecHdrs img 3, checkHw c, checkSecHdrs img 6, checkLoops c, checkSecHdrs img 7, checkTabs c, checkSecHdrs img 8, checkAlarms c, checkNetwork c (secBytes img secs 9) tandem,
    (if hasSec secs 0xA then checkCanHdr c (secBytes img secs 0xA) else none), eachViol c.can.ctrls checkCanCtrl, checkHart c (secBytes img secs 0xB), checkIcons c, checkTrims c]

end Sys2Proof.Machine
end

