-- ==== Sys2Proof/Machine/TypesClk.lean ====
section
/-! DEFINITION. The state types of the clock and supply supervisor and of the backup domain
(16_clocks_supply_backup.md). -/

namespace Sys2Proof.Machine

/-- A frequency measurement in progress or done (R504). -/
structure Fmc where
  status : Nat := 0
  meas : Nat := 0
  ref : Nat := 0
  gate : Nat := 0
  count : BitVec 32 := 0
  due : Option Nat := none
  deriving DecidableEq, Repr

/-- The clock and supply supervisor (R499 to R511). -/
structure Clk where
  pllLocked : Bool := false
  override : Bool := false
  clkinOk : Bool := false
  cmonEn : Bool := false
  cause : Nat := 0
  stall : Bool := false
  gateRefused : Bool := false
  cmonCount : Nat := 0
  faults : BitVec 32 := 0
  stalls : BitVec 32 := 0
  /-- Qualification: running, gates passed, the first count of the run (R505). -/
  qualifying : Bool := false
  qualRun : Nat := 0
  qualFirst : Nat := 0
  fmc : Fmc := {}
  gated : List GateBlk := []
  /-- Blocks asked to quiesce, and the instant by which they must have acknowledged (R508). -/
  gating : List (GateBlk × Nat) := []
  /-- Source of each domain: false the PLL, true the internal oscillator; switches in progress (R506). -/
  src : List Bool := List.replicate 5 true
  switching : List (Nat × Bool × Nat) := []
  deriving DecidableEq, Repr

/-- The supply supervisor (R509 to R511). -/
structure Sup where
  vorMv : Nat := 0
  vin1Mv : Nat := 0
  vin2Mv : Nat := 0
  storeMv : Nat := 0
  vorMin : Nat := 65535
  vin1Ok : Bool := false
  vin2Ok : Bool := false
  belowWrite : Bool := false
  belowErase : Bool := false
  holdupReady : Bool := false
  pfSeen : Bool := false
  fails : BitVec 32 := 0
  deferred : BitVec 32 := 0
  /-- Hold-up is running since this instant (R510). -/
  holdupFrom : Option Nat := none
  resetAsserted : Bool := false
  coreLost : Bool := false
  deriving DecidableEq, Repr

/-- An RTC alarm (R519). -/
structure Alm where
  target : Nat := 0
  wake : Bool := false
  armed : Bool := false
  fired : Bool := false
  late : Bool := false
  deriving DecidableEq, Repr

/-- The backup domain (R512 to R520). `base` is the count in 1/32,768 s at the instant `since`; `e` the crystal's error in
0.01 ppm; `debt` the crystal cycles that the present second counts beyond 32,768 (R516). -/
structure Bkp where
  base : Nat := 0
  since : Nat := 0
  rest : Nat := 0
  e : Int := 0
  acc : Int := 0
  debt : Int := 0
  osf : Bool := false
  por : Bool := false
  vbatMv : Nat := 0
  vbatLow : Bool := false
  vbatAbsent : Bool := false
  capUsed : Bool := false
  /-- Present source: 0 main feed, 1 VBAT, 2 capacitor. -/
  source : Nat := 0
  locked : Bool := false
  temp : Int := 0
  alms : List Alm := [{}, {}]
  pwronFrom : Option Nat := none
  pfTime : BitVec 64 := 0
  utcOffset : Int := 0
  curve : List (BitVec 16) := List.replicate 32 0
  disciplinedAt : Option Nat := none
  shifts : Nat := 0
  /-- Device time of the last capture for the discipline, and of the seconds write to come, in units (R518). -/
  capAt : Option Nat := none
  setAt : Option Nat := none
  deriving DecidableEq, Repr

end Sys2Proof.Machine
end

