-- ==== Sys2Proof/Machine/ClkOps.lean ====
section
/-! DEFINITION. Named operations of the clock and supply supervisor and of the backup domain
(16_clocks_supply_backup.md). -/

namespace Sys2Proof.Machine

/-! ### Clocks -/

/-- A CMON window passes (R500). -/
def cmonPasses (n : Nat) : Bool := decide (226 ≤ n) && decide (n ≤ 286)

/-- A gate's count lies within ±3 % of 250,000 (R505). -/
def gateWithin (n : Nat) : Bool := decide (242500 ≤ n) && decide (n ≤ 257500)

/-- A count differs from the first of the run by at most 0.1 % (R505). -/
def gateNear (first n : Nat) : Bool := decide (1000 * (Nat.max first n - Nat.min first n) ≤ first)

/-- A qualification gate is judged (R505): a gate that fails starts the run again. -/
def Clk.gate (c : Clk) (n : Nat) : Clk :=
  if !c.qualifying then c
  else if !gateWithin n then { c with qualRun := 0, qualFirst := 0 }
  else if c.qualRun = 0 then { c with qualRun := 1, qualFirst := n }
  else if gateNear c.qualFirst n then { c with qualRun := c.qualRun + 1 }
  else { c with qualRun := 0, qualFirst := 0 }

/-- `CLKIN` is qualified (R505). -/
def Clk.qualified (c : Clk) : Bool := c.qualifying && decide (10 ≤ c.qualRun)

/-- The forced override begins (R502): every domain on the internal oscillator, qualification running. -/
def Clk.force (c : Clk) (cause : Nat) : Clk :=
  { c with override := true, pllLocked := false, cause := cause, faults := c.faults + 1, src := List.replicate 5 true,
           switching := [], qualifying := true, qualRun := 0, qualFirst := 0 }

/-- A domain's number (R506). -/
def domNo : Domain → Nat
  | .core => 0 | .root => 1 | .peri => 2 | .net => 3 | .io => 4

/-- The derailleur completes a domain's change (R506). -/
def Clk.switched (c : Clk) (d : Nat) : Clk :=
  match c.switching.find? (fun s => s.1 == d) with
  | none => c
  | some s =>
    let src := put c.src d s.2.1
    let done := src.all (!·)
    { c with src := src, switching := c.switching.filter fun s => s.1 ≠ d, pllLocked := done,
             override := c.override && !done, qualifying := c.qualifying && !done }

/-- The domains are asked to move to the PLL (R501, R503). -/
def Clk.toPll (c : Clk) (mono : Nat) : Clk :=
  { c with switching := (List.range 5).map fun d => (d, false, mono), qualifying := false }

/-- The bit of `CLK_GATED` of a block (R521). -/
def gateBit : GateBlk → Nat
  | .can c => c.val
  | .mac p => 4 + p.val
  | .hart => 9
  | .lane l => 10 + l.val
  | .fmc => 14
  | .display => 15

/-- A block's gate closes on its acknowledgement (R508). -/
def Clk.ack (c : Clk) (b : GateBlk) : Clk :=
  if c.gating.any (fun g => g.1 == b) then
    { c with gating := c.gating.filter fun g => g.1 ≠ b, gated := c.gated ++ [b] }
  else c

/-- Gating of a block is abandoned (R508). -/
def Clk.refuse (c : Clk) (b : GateBlk) : Clk :=
  if c.gating.any (fun g => g.1 == b) then { c with gating := c.gating.filter fun g => g.1 ≠ b, gateRefused := true } else c

/-- `CLK_GATED` (R521). -/
def Clk.gatedWord (c : Clk) : Nat := (c.gated.map fun b => 2 ^ gateBit b).sum

/-- `CLK_STATE` (R522). -/
def Clk.stateWord (c : Clk) : Nat :=
  b2n c.pllLocked + 2 * b2n c.override + 4 * b2n c.clkinOk + 8 * b2n c.qualifying + 16 * c.cause + 128 * b2n c.cmonEn
  + 256 * b2n c.stall + 512 * b2n c.gateRefused + 65536 * Nat.min 65535 (c.qualRun * 10)

/-- `FMC_RESULT` (R521). -/
def Fmc.bytes (f : Fmc) : Bytes := natLe 1 f.status ++ [0, 0, 0] ++ natLe 4 f.count.toNat

/-- The nominal frequency of a clock source in Hz, on the PLL or in the override (R18, R502, R504). -/
def srcHz (override : Bool) (code : Nat) : Nat :=
  if code = 7 then 32768
  else if override then 25000000
  else at_ [25000000, 25000000, 800000000, 400000000, 200000000, 125000000, 100000000] code 25000000

/-- A frequency measurement is requested (R504). -/
def Clk.fmcStart (c : Clk) (meas ref gate mono : Nat) : Clk :=
  if c.qualifying then { c with fmc := { c.fmc with status := 3 } }
  else { c with fmc := { status := 1, meas := meas, ref := ref, gate := gate,
                         due := some (mono + ceilDiv (gate * 1600000000) (srcHz c.override ref)) } }

/-! ### Supply (R509) -/

/-- A threshold with hysteresis: below `fall` set, from `rise` on clear. -/
def below (was : Bool) (fall rise mv : Nat) : Bool := if mv < fall then true else if rise ≤ mv then false else was

/-- V_OR measured (R509, R521). -/
def Sup.vor (s : Sup) (mv : Nat) : Sup :=
  { s with vorMv := mv, vorMin := Nat.min s.vorMin mv, belowErase := below s.belowErase 9000 9400 mv,
           belowWrite := below s.belowWrite 7200 7600 mv }

/-- An input measured (R509). -/
def Sup.vin (s : Sup) (second : Bool) (mv : Nat) : Sup :=
  if second then { s with vin2Mv := mv, vin2Ok := !below (!s.vin2Ok) 5400 5800 mv }
  else { s with vin1Mv := mv, vin1Ok := !below (!s.vin1Ok) 5400 5800 mv }

/-- The measurements anew from the after-reset values (R14, R523). -/
def Sup.measured (s : Sup) : Sup :=
  ((({ s with vin1Ok := false, vin2Ok := false, belowWrite := false, belowErase := false } : Sup).vor s.vorMv).vin false s.vin1Mv).vin true
    s.vin2Mv
/-- Page programs and MRAM writes may start (R77, R510). -/
def Sup.mayWrite (s : Sup) : Bool := s.holdupReady && !s.belowWrite && s.holdupFrom.isNone
/-- Sector erases may start (R77, R510). -/
def Sup.mayErase (s : Sup) : Bool := s.holdupReady && !s.belowErase && s.holdupFrom.isNone

/-- `SUP_STATE` (R523). -/
def Sup.stateWord (s : Sup) : Nat :=
  packBits [s.vin1Ok, s.vin2Ok, s.belowWrite, s.belowErase, s.holdupReady, s.pfSeen]

/-! ### Real-time clock (R515 to R520) -/

/-- Crystal cycles from `since` to `mono`, in units of 1 / (1.6 × 10¹⁷). -/
def Bkp.elapsed (b : Bkp) (mono : Nat) : Nat := b.rest + (mono - b.since) * (32768 * (100000000 + b.e).toNat)

/-- Units in one crystal cycle. -/
def cycleUnit : Nat := 160000000000000000

/-- The count of the RTC in 1/32,768 s (R515). -/
def Bkp.count (b : Bkp) (mono : Nat) : Nat :=
  let n : Int := (b.elapsed mono / cycleUnit : Nat) - b.debt
  b.base + (if n < 0 then 0 else n.toNat)

/-- The RTC with its count taken at `mono` as the new base. -/
def Bkp.rebase (b : Bkp) (mono : Nat) : Bkp :=
  let n : Int := (b.elapsed mono / cycleUnit : Nat) - b.debt
  if n < 0 then b
  else { b with base := b.base + n.toNat, since := mono, rest := b.elapsed mono % cycleUnit, debt := 0 }

/-- Seconds of the RTC (R515). -/
def Bkp.sec (b : Bkp) (mono : Nat) : Nat := b.count mono / 32768 % 2 ^ 40

/-- `RTC_TAI`: seconds and prescaler (R524). -/
def Bkp.tai (b : Bkp) (mono : Nat) : BitVec 64 := BitVec.ofNat 64 (b.sec mono + b.count mono % 32768 * 2 ^ 40)

/-- The elapsed instant at which the count reaches `n`. -/
def Bkp.reaches (b : Bkp) (n : Nat) : Nat :=
  let need : Int := ((n : Int) - b.base + b.debt) * (cycleUnit : Int) - b.rest
  if need ≤ 0 then b.since else b.since + ceilDiv need.toNat (32768 * (100000000 + b.e).toNat)

/-- The count at which the next compensation is made: the next second that is a multiple of 16 (R516). -/
def Bkp.nextComp (b : Bkp) (mono : Nat) : Nat := (b.sec mono / 16 + 1) * 16 * 32768

/-- The factory curve at a temperature, in 0.01 ppm, interpolated linearly; the end values outside it (R516). -/
def curveAt (curve : List (BitVec 16)) (t : Int) : Int :=
  let e (k : Nat) : Int := (at_ curve k 0).toInt
  let x := t + 50
  if x ≤ 0 then e 0
  else if 155 ≤ x then e 31
  else
    let k := (x / 5).toNat
    e k + (e (k + 1) - e k) * (x % 5) / 5

/-- The compensation of R516. -/
def Bkp.compensate (b : Bkp) (t : Int) (mono : Nat) : Bkp :=
  let b1 := b.rebase mono
  let e := curveAt b.curve t
  let acc := b1.acc + e * 524288
  let c := acc.tdiv 100000000
  { b1 with temp := t, e := e, acc := acc - c * 100000000, debt := c }

/-- An alarm fires (R519). -/
def Alm.fire (a : Alm) (late : Bool) : Alm := { a with armed := false, fired := true, late := a.late || late }

/-- The alarms after the count has been set from second `old` to `new` (R519): those carried over their target fire late. -/
def Bkp.carried (b : Bkp) (old new mono : Nat) : Bkp × Bool :=
  let fires (a : Alm) : Bool := a.armed && decide (old < a.target) && decide (a.target ≤ new)
  let wake := b.alms.any fun a => fires a && a.wake
  ({ b with alms := b.alms.map fun a => if fires a then a.fire true else a,
            pwronFrom := if wake then b.pwronFrom.or (some mono) else b.pwronFrom }, b.alms.any fires)

/-- A SHIFT by `n` counts (R517). -/
def Bkp.shift (b : Bkp) (n : Int) (mono : Nat) : Bkp × Bool :=
  let b1 := b.rebase mono
  let old := b1.sec mono
  let b2 := { b1 with base := ((b1.base : Int) + n).toNat }
  b2.carried old (b2.sec mono) mono

/-- A seconds write (R517). -/
def Bkp.setSec (b : Bkp) (sec mono : Nat) : Bkp × Bool :=
  let old := b.sec mono
  let b1 := { b with base := sec % 2 ^ 40 * 32768, since := mono, rest := 0, debt := 0, osf := false, setAt := none }
  b1.carried old (sec % 2 ^ 40) mono

/-- An alarm is armed at a target second (R519): a target not above the count fires at once, late. -/
def Bkp.arm (b : Bkp) (n target : Nat) (wake : Bool) (mono : Nat) : Bkp × Bool :=
  let late := decide (target ≤ b.sec mono)
  let a : Alm := { (at_ b.alms n {}) with target := target, wake := wake, armed := !late }
  ({ b with alms := put b.alms n (if late then a.fire true else a),
            pwronFrom := if late ∧ wake then b.pwronFrom.or (some mono) else b.pwronFrom }, late)

/-- An armed alarm whose target the count has reached by ordinary counting fires (R519). -/
def Bkp.fire (b : Bkp) (n mono : Nat) : Bkp × Bool :=
  let a := at_ b.alms n {}
  if a.armed ∧ a.target ≤ b.sec mono then
    ({ b with alms := put b.alms n (a.fire false),
              pwronFrom := if a.wake then b.pwronFrom.or (some mono) else b.pwronFrom }, true)
  else (b, false)

/-- The power-on reset of the backup domain (R514). -/
def Bkp.powerOn (b : Bkp) (mono : Nat) : Bkp :=
  { b with
    osf := true, por := true, base := 0, since := mono, rest := 0, debt := 0, acc := 0,
    alms := b.alms.map fun _ => ({} : Alm), pwronFrom := none, pfTime := 0, utcOffset := 0, setAt := none }

/-- VBAT measured (R512): the flags, and whether `VBAT_LOW` has risen. -/
def Bkp.vbat (b : Bkp) (mv : Nat) : Bkp × Bool :=
  ({ b with vbatMv := mv, vbatLow := decide (mv < 2200), vbatAbsent := decide (mv < 1000) }, decide (mv < 2200) && !b.vbatLow)

/-- Days from 1970-01-01 to a civil date's year start, and the date of a day number (R515). -/
def civil (days : Nat) : Nat × Nat × Nat :=
  let z := days + 719468
  let era := z / 146097
  let doe := z % 146097
  let yoe := (doe - doe / 1460 + doe / 36524 - doe / 146096) / 365
  let doy := doe - (365 * yoe + yoe / 4 - yoe / 100)
  let mp := (5 * doy + 2) / 153
  let d := doy - (153 * mp + 2) / 5 + 1
  let mo := if mp < 10 then mp + 3 else mp - 9
  (yoe + era * 400 + (if mo ≤ 2 then 1 else 0), mo, d)

/-- `RTC_UTC` (R515, R524). -/
def Bkp.utcBytes (b : Bkp) (mono : Nat) : Bytes :=
  let s := ((b.sec mono : Int) - b.utcOffset).toNat
  let (y, mo, d) := civil (s / 86400)
  natLe 2 y ++ natLe 1 mo ++ natLe 1 d ++ natLe 1 (s / 3600 % 24) ++ natLe 1 (s / 60 % 60) ++ natLe 1 (s % 60) ++ [0]

/-- `RTC_STATE` (R525). -/
def Bkp.stateWord (b : Bkp) (mono : Nat) : Nat :=
  let a0 := at_ b.alms 0 {}
  let a1 := at_ b.alms 1 {}
  let disc := match b.disciplinedAt with | some t => decide (mono ≤ t + phS 64) | none => false
  packBits [b.osf, disc, b.vbatLow, b.vbatAbsent, b.capUsed, b.por, false, false, a0.fired, a1.fired, a0.late, a1.late,
            a0.armed, a1.armed, b.pwronFrom.isSome] + 65536 * b.shifts

/-- `ALMn` (R524). -/
def Alm.bytes (a : Alm) : Bytes := natLe 8 (a.target % 2 ^ 40 + 2 ^ 40 * b2n a.wake)

end Sys2Proof.Machine
end

