-- ==== Sys2Proof/Machine/TypesEap.lean ====
section
/-! DEFINITION. The state types of the engineering access protocol, of starts and of the online change
(19_engineering_access.md, 02_cassette_and_startup.md R70 to R82, 04_task_cycle_and_online_change.md R149 to R164). -/

namespace Sys2Proof.Machine

/-- A response held for retransmission (R565). -/
structure Resp where
  tid : BitVec 16
  status : Nat
  body : Bytes
  deriving DecidableEq, Repr

/-- A session (R558, R559, R561, R565). `port` 0 P1, 1 P2, 2 P5; `role` 1 VIEW to 4 SERVICE. -/
structure Session where
  id : Nat
  port : Nat
  station : Bool
  role : Nat
  /-- Serial number of the client certificate. -/
  serial : Nat := 0
  lastAt : Nat
  held : List Resp := []
  deriving DecidableEq, Repr

/-- An open file (R572): for reading, its content; for writing, what has been received. -/
structure FileOpen where
  sess : Nat
  fh : BitVec 8
  name : FileName
  write : Bool
  total : Nat
  data : Bytes := []
  /-- Bytes written so far. -/
  pos : Nat := 0
  lastAt : Nat
  deriving DecidableEq, Repr

/-- A subscription (R569, R570): records waiting with their numbers of arrival, oldest first, records dropped since the last `NOTIFY`,
the instant before which no `NOTIFY` follows, the next multiple of a trend's period in 2⁻³⁰ ns of device time. -/
structure Sub where
  subid : BitVec 8
  sess : Nat
  req : SubReq
  pend : List (Nat × Bytes) := []
  dropped : Nat := 0
  /-- Stream 1: the record expected next; none where any may follow (R261). -/
  next : Option (BitVec 32) := none
  notifyAt : Option Nat := none
  sampleAt : Nat := 0
  deriving DecidableEq, Repr

/-- A command object (R575): the last result, and the request that is accepted and not complete. -/
structure CmdObj where
  status : Nat := 0
  detail : Nat := 0
  value : Nat := 0
  open_ : Bool := false
  deriving DecidableEq, Repr

/-- A close of a relayed slot that waits for the partner (R573). -/
structure RelayClose where
  rq : Req
  slot : Nat
  crc : BitVec 32
  /-- Body of the answer. -/
  body : Bytes
  due : Nat
  deriving DecidableEq, Repr

/-- The EAP server (R556 to R581). -/
structure Eap where
  sessions : List Session := []
  files : List FileOpen := []
  subs : List Sub := []
  /-- `0x2F01` to `0x2F0D`. -/
  cmds : List CmdObj := List.replicate 13 {}
  nextSess : Nat := 0
  /-- Number of the next record that a subscription takes. -/
  nextRec : Nat := 0
  /-- Instants of the handshakes started within the last second. -/
  shakes : List Nat := []
  notifyDrops : BitVec 32 := 0
  authFail : BitVec 32 := 0
  fallback : Bool := false
  unchecked : Bool := false
  relayClose : Option RelayClose := none
  /-- Files relayed by the partner: what has come of each. -/
  relays : List (RelayFile × Bytes) := []
  /-- Files that the partner is known to hold, with the CRC-32 of the whole file (R65, R229, R330). -/
  acks : List (RelayFile × BitVec 32) := []
  deriving DecidableEq, Repr

/-- A reset that the module has ordered (R70): cause of the start, kind where the order chooses it, the start into MAINTENANCE
by command; the reset itself follows. -/
structure ResetOrder where
  cause : Nat
  cold : Option Bool := none
  maint : Bool := false
  /-- The restart re-admits excluded units (R183). -/
  readmit : Bool := false
  /-- The earliest instant of the reset (R577). -/
  due : Nat := 0
  deriving DecidableEq, Repr

/-- Starts and resets (R70 to R82, R183). -/
structure Boot where
  state : Nat := 0
  maintReason : Nat := 0
  maintStrap : Bool := false
  stuckSeen : Bool := false
  bankFallback : Bool := false
  /-- The module is held in reset. -/
  inReset : Bool := true
  /-- What the start met that waits in reset for `CLKIN` to be qualified (R501, R503). -/
  held : Option StartObs := none
  order : Option ResetOrder := none
  /-- Instant of the press latched under R74, and the pin ignored until it has read high for 1 s. -/
  pressAt : Option Nat := none
  pinIgnored : Option Nat := none
  /-- The bank that a command has selected for the next start; true for B (R66). -/
  bankSwitch : Option Bool := none
  /-- Instant at which the present or latest reset began, and t0 of the present start (R70). -/
  resetAt : Nat := 0
  t0 : Nat := 0
  cause : Nat := 0
  warm : Bool := false
  startMs : Nat := 0
  slotId : Nat := 0
  /-- Excluded core pairs [3:0] and lanes [7:4]; fatal records by unit and operating time (R183). -/
  excl : Nat := 0
  fatals : List (Nat × Nat) := []
  deriving DecidableEq, Repr

/-- The online change (R149 to R164). `img` the image to be switched to, `old` the net replaced while old cycles run. -/
structure Change where
  phase : Nat := 0
  slot : Nat := 0
  /-- The header of phase 3: 0 of an activation (R59), 1 of a commanded rollback (R64), 2 written before (R63), 3 of a rollback that the
  partner makes (R63, R65). -/
  how : Nat := 0
  cfg : Option Cfg := none
  plan : Option Plan := none
  /-- Phase 2 of a tandem (R149, R181): 0 the partner has not answered, 1 it has prepared the same plan, 2 another one. -/
  peer : Nat := 0
  /-- The window of a trial was running when the change began (R164). -/
  inWindow : Bool := false
  partnerAck : Bool := false
  proposals : Nat := 0
  /-- Number of the latest proposal (R330), and its instant of acknowledgement limit. -/
  bnum : BitVec 8 := 0
  refused : Bool := false
  refuseCode : Nat := 0
  switchAt : BitVec 96 := 0
  /-- B in units of device time, once fixed. -/
  b : Option Nat := none
  carried : Nat := 0
  migrated : Nat := 0
  initialised : Nat := 0
  removed : Nat := 0
  old : Option (Net × NetSt) := none
  /-- The switch of the control engine waits for the next frame boundary, that of the alarm engine for the next evaluation
  instant (R216, R259). -/
  cePend : Bool := false
  /-- The switch brings other `LOOPS`, other `TABLES` (R215, R227). -/
  ceLoops : Bool := false
  ceTabs : Bool := false
  aePend : Bool := false
  deriving DecidableEq, Repr

/-- What the factory and the carrier give the module (R4, R80, R392, R516): constants of the part. -/
structure Otp where
  serial : BitVec 64 := 0x0000000000000001
  hwRev : Nat := 0x43
  variantE : Bool := false
  mac : BitVec 48 := 0x02000000A000
  curve : List (BitVec 16) := List.replicate 32 0
  /-- The private key of the module's P-256 pair (R557, log entry 23). -/
  key : Nat := 1
  /-- The latencies from comparator match to the pins `SYNC0` and `SYNC1`, measured at the factory, in 2⁻¹⁶ ns (R300, log entry 23). -/
  syncLat : List Nat := [0, 0]
  /-- The carrier has two module slots (HX-4890). -/
  tandem : Bool := true
  deriving DecidableEq, Repr

/-- What has left the module on its links: the model's own record, latest first (log entry 2). -/
inductive Out where
  /-- Twin-link frames (R329): a bell, a control message, and the shadow segments that carry a batch. -/
  | bell (frame : Bytes)
  | heartbeat (bits : BitVec 20)
  | control (frame : Bytes)
  | batch (h : BatchHdr) (recs : List ShRec) (frames : List Bytes)
  | respond (rq : Req) (status : Nat) (body : Bytes)
  | notify (sess : Nat) (body : Bytes)
  | alert (port : Nat)
  /-- The module's certificate in a handshake (R557): its subject, the public key, the hardware revision whose authority signs it. -/
  | certificate (port : Nat) (subject : BitVec 64) (pub : Bytes) (hwRev : Nat)
  | frame (f : PoolFrame)
  /-- A Spoke frame handed to the partner over the twin link, or a frame of a Spoke port relayed to it (R413, R416). -/
  | spokeRelay (sp : Nat) (bytes : Bytes)
  | can (ctrl : Nat) (f : CanFrame)
  /-- A HART request (R491): by its polling address in a short frame, or by the expanded device type and identifier in a long one. -/
  | hart (dev : Nat) (addr : HartAddr) (cmd : BitVec 8) (data : Bytes)
  deriving DecidableEq, Repr

end Sys2Proof.Machine
end

