-- ==== Sys2Proof/Machine/TypesSi.lean ====
section
/-! DEFINITION. The state types of the safety island (11_safety_island.md). -/

namespace Sys2Proof.Machine

/-- An input pair, or SL_IN (R366 to R369): the two channels closed, the instants since which they are open, the filter
time elapsed on them, a test pulse passed since they closed. -/
structure SiPair where
  a : Bool := false
  b : Bool := false
  openA : Nat := 0
  openB : Nat := 0
  filtA : Bool := false
  filtB : Bool := false
  passA : Bool := false
  passB : Bool := false
  demand : Bool := false
  disc : Bool := false
  tpFail : Bool := false
  bothOpenSeen : Bool := false
  discAt : Option Nat := none
  deriving DecidableEq, Repr

/-- A test of an output switch whose result the island has still to judge (R372, R373). -/
structure SiTest where
  highSide : Bool
  res : OutTest
  deriving DecidableEq, Repr

/-- An output: SO0 to SO3, SBC0, SBC1, SL_OUT (R370 to R373, R376). -/
structure SiOut where
  on : Bool := false
  hsFault : Bool := false
  lsFault : Bool := false
  shortExt : Bool := false
  cross : Bool := false
  edmFault : Bool := false
  vmonFault : Bool := false
  abandoned : BitVec 8 := 0
  test : Option SiTest := none
  /-- The output state in which a test of the switch was abandoned: the next test of that switch waits for it (R373). -/
  waitHs : Option Bool := none
  waitLs : Option Bool := none
  /-- The instant of the last command that changed the output (R370). -/
  changedAt : Nat := 0
  testedHs : Option Nat := none
  testedLs : Option Nat := none
  edmAt : Option Nat := none
  edmClosedFrom : Option Nat := none
  deriving DecidableEq, Repr

/-- An output group of R374: energised, and the instant since which the other conditions hold. -/
structure SiGroup where
  on : Bool := false
  /-- A brake test has failed since the group was energised last: the SBC outputs stay open until it is again (R38, R380). -/
  failed : Bool := false
  condFrom : Option Nat := none
  deriving DecidableEq, Repr

/-- The states of a brake test (R379). -/
inductive BtState where
  | idle
  | checking
  | granted
  | running
  | pass
  | fail
  | aborted
  deriving DecidableEq, Repr

/-- A brake (R378 to R380). `spent` and `runFrom` count island powered time since the last pass. -/
structure Brake where
  st : BtState := .idle
  cause : Nat := 0
  req : Bool := false
  torque : Bool := false
  slipBase : Int := 0
  at_ : Nat := 0
  due : Bool := false
  overdue : Bool := false
  failedLatch : Bool := false
  spent : Nat := 0
  runFrom : Nat := 0
  deriving DecidableEq, Repr

/-- The island's report and its objects on the main side (R360, R387 to R390). -/
structure SiReport where
  state : Nat := 0
  swActual : Nat := 0
  swExpected : Nat := 0
  reactSo : Nat := 0
  reactSbc : Nat := 0
  faultCode : Nat := 0
  demands : Nat := 0
  up : Nat := 0
  inStat : List Nat := List.replicate 9 0
  outStat : List Nat := List.replicate 7 0
  edm : Nat := 0
  btStat : List Nat := List.replicate 2 0
  senc : Nat := 0
  lastSlip : Nat := 0
  faultCS : Bool := false
  deriving DecidableEq, Repr

/-- The safety island. -/
structure Si where
  started : Bool := false
  powered : Bool := true
  startAt : Nat := 0
  /-- The supply monitor has cycled since the last start, and its input is low (R357, R358). -/
  cycled : Bool := true
  monLow : Bool := false
  /-- The switch image in use, and as read last (R361, R387). -/
  img : Nat := 0
  swRead : Nat := 0
  expected : Option Nat := none
  swInvalid : Bool := false
  swChanged : Bool := false
  swMismatch : Bool := false
  /-- A mismatch found at island start keeps the safe state; one found by a re-read only bars new energising (R365). -/
  mismatchAtStart : Bool := false
  /-- Category C faults: 0x30, 0x31, 0x32 present. -/
  core : Bool := false
  supplyTrip : Bool := false
  imageBad : Bool := false
  ufsLow : Bool := false
  ubLow : Bool := false
  pairs : List SiPair := List.replicate 9 {}
  outs : List SiOut := List.replicate 7 {}
  groups : List SiGroup := List.replicate 2 {}
  edm : Nat := 0
  /-- The levels of TP1 and TP2 at the last instant, true for high (R366). -/
  tp : List Bool := [true, true]
  /-- Reset input SI7 (R374): closure instants of its channels, a valid closure of both has ended, RESET_HELD, resets ignored. -/
  rstA : Option Nat := none
  rstB : Option Nat := none
  rstDone : Bool := false
  resetHeld : Bool := false
  rstOpenFrom : Option Nat := none
  rstIgnored : Nat := 0
  senc : Int := 0
  /-- The SENC tracks as sampled last; none before the first sample (R378). -/
  sencAt : Option (BitVec 2) := none
  /-- Movements of the last 500 ms: (instant, counts). -/
  sencMoves : List (Nat × Nat) := []
  sencFaultAt : Option Nat := none
  brakes : List Brake := List.replicate 2 {}
  lastSlip : Nat := 0
  demands : Nat := 0
  /-- Faults present, the latest first: code, and the input pair or output where it names one (R384). -/
  faults : List (Nat × Nat) := []
  lastTestAt : Option Nat := none
  lastRead : Nat := 0
  /-- Events not yet reported: (kind: 0 fault change, 1 demand, 2 brake-test result; number; counter). -/
  events : List (Nat × Nat × Nat) := []
  eventCount : Nat := 0
  /-- Main side: last report and the instant at which it came, status valid, next report. -/
  rep : SiReport := {}
  repAt : Option Nat := none
  statusValid : Bool := false
  reportDue : Nat := 0
  deriving DecidableEq, Repr

end Sys2Proof.Machine
end

