-- ==== Sys2Proof/Machine/State.lean ====
section
/-! DEFINITION. The whole state: the module's blocks and the queue of waiting commands; reset; the reasons of a stop. -/

namespace Sys2Proof.Machine

/-- The module. -/
structure Mod where
  tb : TimeBase := {}
  ptp : Ptp := {}
  tous : List Tou := List.replicate 32 {}
  tcus : List Tcu := List.replicate 32 {}
  aat : Aat := {}
  er : Er := {}
  pmc : Pmc := {}
  ce : Ce := {}
  ae : Ae := {}
  tasks : List Task := List.replicate 16 {}
  net : NetSt := {}
  plan : PlanSt := {}
  ret : RetArea := {}
  tan : Tandem := {}
  si : Si := {}
  eth : Eth := {}
  cans : List Can := List.replicate 4 {}
  dio : Dio := {}
  an : An := {}
  clk : Clk := {}
  sup : Sup := {}
  bkp : Bkp := {}
  disp : Disp := {}
  cas : Cas := {}
  bankA : FwBank := {}
  bankB : FwBank := {}
  /-- The bank that runs is B; the bank selected for the next start, where a command chose one (R66). -/
  onB : Bool := false
  eap : Eap := {}
  boot : Boot := {}
  otp : Otp := {}
  cfg : Cfg := {}
  change : Change := {}
  /-- Remote outputs as applied: (node, offset) with the bytes, for the Spoke port of the node (R135, R138). -/
  rioOut : List (Nat × Nat × Bytes) := []
  /-- The brake request lines `BT_REQ` as driven (R378). -/
  btReq : List Bool := [false, false]
  /-- Free values drawn so far (log entry 1). -/
  free : Nat := 0
  out : List Out := []
  deriving DecidableEq, Repr

/-- The state of the block: the waiting commands, first in first out, and the module. -/
structure State where
  pending : List Instr := []
  m : Mod := {}
  deriving DecidableEq, Repr

/-- No command of this block ends in a fault: every effect the spec gives leads to a next state. -/
inductive Fault where
  deriving DecidableEq, Repr

/-- Why a command has no meaning. -/
inductive Refusal where
  /-- Raised by an arm of `exec` that has no meaning yet. Safe: the block stops where the hardware goes on. -/
  | notModelled (mnemonic : String)
  deriving DecidableEq, Repr

/-- The block right after reset: every field at its default. -/
def State.reset : State := {}

end Sys2Proof.Machine
end

