-- ==== Sys2Proof/Machine/Ops.lean ====
section
/-! DEFINITION. Named operations on the whole module that the commands share: time, records, counters, field output
stages, the claim and ACT, fatal conditions. -/

namespace Sys2Proof.Machine

/-- A command that changes the module by `f`. -/
def State.run (s : State) (f : Mod → Mod) : Host.Outcome State Fault Refusal := .next { s with m := f s.m }

/-! Readings. -/

/-- Elapsed time in phases of 0.625 ns. -/
def Mod.mono (m : Mod) : Nat := m.tb.mono
/-- Own ACT latch. -/
def Mod.act (m : Mod) : Bool := m.tan.ilk.act
/-- Device time, and its short form (R275, R276). -/
def Mod.dt (m : Mod) : BitVec 96 := m.tb.dtime
/-- See `Mod.dt`. -/
def Mod.short (m : Mod) : BitVec 64 := shortOf m.tb.dtime
/-- Device time at a phase of the present ROOT cycle (R278). -/
def Mod.dtAt (m : Mod) (phase : Nat) : BitVec 96 := m.tb.dtAt phase
/-- Operating time in ms (R526). -/
def Mod.optime (m : Mod) : Nat := m.er.optime m.mono
/-- The code of the time quality (R279). -/
def Mod.tq (m : Mod) : Nat := m.ptp.quality.code
/-- The main side runs: it is not held in reset. -/
def Mod.live (m : Mod) : Bool := !m.boot.inReset
/-- `CLOCK_FAULT` counts as present until the domains return to the PLL (R29). -/
def Mod.clockFault (m : Mod) : Bool := m.clk.override
/-- The roles that execute tasks, CE and AE (R317). -/
def Role.executes : Role → Bool
  | .solo => true
  | .active => true
  | _ => false
/-- The module executes its configuration. -/
def Mod.executing (m : Mod) : Bool := m.act && m.tan.role.executes && m.cas.running

/-! Time, counters, records and what leaves the module. -/

/-- `f` where the main side runs; nothing while it is held in reset. -/
def Mod.whenLive (m : Mod) (f : Mod → Mod) : Mod := if m.live then f m else m
/-- A link test runs on link `id` (R420): the link is out of service. -/
def Mod.testing (m : Mod) (id : Nat) : Bool := m.eth.lt.st == 1 && m.eth.lt.link == id
/-- Something leaves the module. -/
def Mod.send (m : Mod) (o : Out) : Mod := { m with out := o :: m.out }
/-- A free value, and the module with one more drawn (log entry 1). -/
def Mod.draw (m : Mod) : BitVec 96 × Mod := (Config.freeWord m.free, { m with free := m.free + 1 })
/-- `n` events of a unit happen (R538). -/
def Mod.count (m : Mod) (event unit n : Nat) : Mod := { m with pmc := m.pmc.count event unit n }

/-- Selected events for which the spec gives no rule: each adds a free number of at most 4 per ROOT cycle (R538; log entry 1). -/
def Pmc.countFree (free n : Nat) : List (BitVec 16) → Nat → Pmc → Pmc
  | [], _, p => p
  | s :: t, k, p =>
    if [2, 3, 4, 5, 6, 8].contains (selEvent s) then
      Pmc.countFree free n t (k + 1) (p.count (selEvent s) (selUnit s) ((Config.freeWord (free + k)).toNat % (4 * n + 1)))
    else Pmc.countFree free n t (k + 1) p
/-- The counters after `n` ROOT cycles (R538). -/
def Pmc.cycles (p : Pmc) (free n : Nat) : Pmc := Pmc.countFree free n p.sel.eraseDups 0 (p.countAll 1 n)
/-- The seconds write that waits for a device-time second boundary is made where `n` ROOT cycles reach it (R518); a locked
interface answers it with an error (R513). -/
def Mod.setRtc (m : Mod) (n : Nat) : Bkp :=
  match m.bkp.setAt with
  | none => m.bkp
  | some u =>
    let k := m.tb.cyclesToNow u
    if n < k then m.bkp
    else if m.bkp.locked then { m.bkp with setAt := none }
    else (m.bkp.setSec (u / (1000000000 * unitsPerNs)) (m.tb.pass k).mono).1
/-- `n` ROOT cycles pass. -/
def Mod.pass (m : Mod) (n : Nat) : Mod :=
  { m with tb := m.tb.pass n, pmc := m.pmc.cycles m.free n, free := m.free + 64, bkp := m.setRtc n }
/-- Time runs on to elapsed instant `due`. -/
def Mod.to (m : Mod) (due : Nat) : Mod := m.pass (m.tb.cyclesTo due)
/-- Time runs on to device time `u` in 2⁻³⁰ ns. -/
def Mod.toNow (m : Mod) (u : Nat) : Mod := m.pass (m.tb.cyclesToNow u)
/-- A timer that is armed for `due` runs out: time runs on to its instant, then `f`. An unarmed timer does nothing. -/
def Mod.onDue (m : Mod) (due : Option Nat) (f : Mod → Mod) : Mod :=
  match due with
  | some d => f (m.to d)
  | none => m

/-- An event is offered to the recorder with the timestamp of its originator (R528, R531). -/
def Mod.logAt (m : Mod) (type sev code source : Nat) (payload : Bytes) (ts : BitVec 96) : Mod :=
  let q : ErQueued := {
        ev := { type := BitVec.ofNat 8 type, sev := BitVec.ofNat 3 sev, code := BitVec.ofNat 16 code,
                source := BitVec.ofNat 32 source, payload := payload },
        pcycle := m.er.pcycles, optime := m.optime, tq := m.tq, tdev := ts }
  { m with er := m.er.offer q }
/-- An event is offered to the recorder at the present device time (R528, R531). -/
def Mod.log (m : Mod) (type sev code source : Nat) (payload : Bytes) : Mod := m.logAt type sev code source payload m.dt

/-! Parts changed by position. -/

/-- The record of a digital channel. -/
def Mod.dioCfg (m : Mod) (i : Nat) : DioCfg := at_ m.cfg.dio i {}
/-- The record of a current input. -/
def Mod.aiCfg (m : Mod) (i : Nat) : AiCfg := at_ m.cfg.ai i {}
/-- The record of a current output. -/
def Mod.aoCfg (m : Mod) (i : Nat) : AoCfg := at_ m.cfg.ao i {}
/-- The record of an encoder. -/
def Mod.encCfg (m : Mod) (i : Nat) : EncCfg := at_ m.cfg.enc i {}
/-- The record of a pulse input. -/
def Mod.piCfg (m : Mod) (i : Nat) : PiCfg := at_ m.cfg.pi i {}
/-- The record of a timed-output unit, where the configuration has one. -/
def Mod.touCfg (m : Mod) (i : Nat) : Option TouCfg := m.cfg.tou.find? fun c => c.unum == i
/-- What latency compensation takes off a unit's target: the latency of its `SYNC` pin, unless `NOCAL` is set (R298, R300). -/
def Mod.touLat (m : Mod) (c : TouCfg) : Nat :=
  if (c.route = 0x20 ∨ c.route = 0x21) ∧ !c.nocal then at_ m.otp.syncLat (c.route - 0x20) 0 else 0
/-- The time that a unit's comparator compares with its target (R289, R300). -/
def Mod.touNow (m : Mod) (c : TouCfg) : BitVec 64 := shortAdd m.short (m.touLat c)
/-- The record of a capture unit. -/
def Mod.tcuCfg (m : Mod) (i : Nat) : Option TcuCfg := m.cfg.tcu.find? fun c => c.unum == i
/-- The record of a task. -/
def Mod.taskCfg (m : Mod) (i : Nat) : TaskCfg := m.cfg.tasks.task i
/-- The record of a CAN controller. -/
def Mod.canCfg (m : Mod) (i : Nat) : CanCtrlCfg := at_ m.cfg.can.ctrls i {}
/-- A digital channel. -/
def Mod.dioCh (m : Mod) (i : Nat) : DioCh := at_ m.dio.ch i {}
/-- A current input. -/
def Mod.aiCh (m : Mod) (i : Nat) : AiCh := at_ m.an.ai i {}
/-- A current output. -/
def Mod.aoCh (m : Mod) (i : Nat) : AoCh := at_ m.an.ao i {}
/-- A task. -/
def Mod.task (m : Mod) (i : Nat) : Task := at_ m.tasks i {}
/-- A CAN controller. -/
def Mod.can (m : Mod) (i : Nat) : Can := at_ m.cans i {}
/-- A digital channel changed. -/
def Mod.updDio (m : Mod) (i : Nat) (f : DioCh → DioCh) : Mod := { m with dio := { m.dio with ch := upd m.dio.ch i f } }
/-- A pulse input changed. -/
def Mod.updPi (m : Mod) (i : Nat) (f : PiCh → PiCh) : Mod := { m with dio := { m.dio with pi := upd m.dio.pi i f } }
/-- An encoder changed. -/
def Mod.updEnc (m : Mod) (i : Nat) (f : EncCh → EncCh) : Mod := { m with dio := { m.dio with enc := upd m.dio.enc i f } }
/-- A current input changed. -/
def Mod.updAi (m : Mod) (i : Nat) (f : AiCh → AiCh) : Mod := { m with an := { m.an with ai := upd m.an.ai i f } }
/-- A current output changed. -/
def Mod.updAo (m : Mod) (i : Nat) (f : AoCh → AoCh) : Mod := { m with an := { m.an with ao := upd m.an.ao i f } }
/-- A task changed. -/
def Mod.updTask (m : Mod) (i : Nat) (f : Task → Task) : Mod := { m with tasks := upd m.tasks i f }
/-- A CAN controller changed. -/
def Mod.updCan (m : Mod) (i : Nat) (f : Can → Can) : Mod := { m with cans := upd m.cans i f }
/-- A timed-output unit changed. -/
def Mod.updTou (m : Mod) (i : Nat) (f : Tou → Tou) : Mod := { m with tous := upd m.tous i f }
/-- A capture unit changed. -/
def Mod.updTcu (m : Mod) (i : Nat) (f : Tcu → Tcu) : Mod := { m with tcus := upd m.tcus i f }
/-- The interlock changed. -/
def Mod.updIlk (m : Mod) (f : Ilk → Ilk) : Mod := { m with tan := { m.tan with ilk := f m.tan.ilk } }
/-- Tandem redundancy changed. -/
def Mod.updTan (m : Mod) (f : Tandem → Tandem) : Mod := { m with tan := f m.tan }
/-- The trim of an analogue channel (R488): class 0 AI, 1 AO. -/
def Mod.trim (m : Mod) (cls ch : Nat) : Option TrimCfg :=
  (selectTrim m.cfg.trims cls ch m.tan.slotB m.otp.serial.toNat).1

/-! Field output stages. -/

/-- Every stage in the state of R29 at the present instant. -/
def Mod.restage (m : Mod) : Mod :=
  { m with
    dio := { m.dio with ch := mapFrom (fun i h =>
      h.setStage (h.out.restage m.tan.ilk m.clockFault (phMs (m.dioCfg i).otmoMs) m.mono) m.mono) 0 m.dio.ch },
    an := { m.an with ao := mapFrom (fun i h =>
      h.setStage (h.out.restage m.tan.ilk m.clockFault (phMs (m.aoCfg i).otmoMs) m.mono) m.mono) 0 m.an.ao } }

/-! Frames into and out of the pannier pool (12_ethernet_and_spoke_link.md R392 to R399, R408, R418, R419). -/

/-- The minimums of the queues in the plan (R418). -/
def Mod.mins (m : Mod) : List Nat := match m.plan.plan with | some p => p.queues | none => []
/-- Drops and late launches since `e` count for the ports (R538). -/
def Mod.countNet (m : Mod) (e : Eth) : Mod :=
  [0, 1, 2, 3, 4].foldl (fun k p =>
    let a := (at_ e.ports p {}).cnt
    let b := (at_ m.eth.ports p {}).cnt
    (k.count 0x32 (p + 1) (b.dropPool - a.dropPool).toNat).count 0x33 (p + 1) (b.launchLate - a.launchLate).toNat) m
/-- A frame enters its queue, and nothing starts. -/
def Mod.enqueue (m : Mod) (f : PoolFrame) : Mod := { m with eth := m.eth.place m.mins f }.countNet m.eth
/-- An idle port starts its next frame (R297, R397), at a phase that is free (R278; log entry 1): its transmit timestamp, where one is
requested, its insertions, and the message that follows it. -/
def Mod.kick (m : Mod) (p : Nat) : Mod :=
  let r := (m.eth.dropLate p m.short).start m.cfg.netc.gates p m.tb.now m.short
  let m1 := { m with eth := r.1 }.countNet m.eth
  match r.2 with
  | none => m1
  | some f =>
    let d := m1.draw
    let ts := m1.dtAt (d.1.toNat % 4)
    let m2 : Mod := { d.2 with eth := { d.2.eth with ports := upd d.2.eth.ports p fun k =>
      { k with txStamp := if f.tsReq then some ts else k.txStamp } } }
    (match f.followUp ts with | some g => m2.enqueue g | none => m2).send (.frame (f.stampOut ts))
/-- Ports, counters, free values and what has left are those of `k`; nothing else changes. -/
def Mod.netOf (m k : Mod) : Mod := { m with eth := k.eth, pmc := k.pmc, free := k.free, out := k.out }
/-- A frame is placed in its queue (R419); a transmit queue's port may start it. -/
def Mod.place (m : Mod) (f : PoolFrame) : Mod := m.netOf (if f.q < 8 then (m.enqueue f).kick f.port else m.enqueue f)
/-- The header of a frame that the module builds for port `p` (R392, R395, R396, R399, R408; addresses that the standards fix: PRESUMED, log
entry 11). -/
def Mod.headOf (m : Mod) (p : Nat) (rct : Option (BitVec 16)) (d : EthData) : Option EthHdr :=
  let own := if p = 4 then m.otp.mac + 1 else m.otp.mac
  match d with
  | .ptp g => some { dst := ptpDst (match m.cfg.netc.ptp with | some c => c.profile | none => 0) g, src := own,
                     etherType := if g.udp then 0x0800 else 0x88F7 }
  | .station k _ => some { dst := 0x035542534D00 + BitVec.ofNat 48 (k - 1), src := stationMac m.cfg.ident.node, etherType := 0x88B6,
                           vlan := some (if k = 1 then 7 else 6, m.cfg.netc.vid), rct := rct }
  | .supervision mac => some { dst := 0x01154E000100, src := mac, etherType := 0x88FB, rct := rct }
  | .eap s mac _ => some { dst := Config.clientMac s, src := mac, etherType := 0x0800, rct := rct }
  | .arp _ mac asker => some { dst := asker, src := mac, etherType := 0x0806, rct := rct }
  | .icmp _ mac asker => some { dst := asker, src := mac, etherType := 0x0800, rct := rct }
  | .spoke _ => some { dst := 0x035542535000, src := m.otp.mac + 2, etherType := 0x88B5 }
  | .rx _ => none
/-- A frame of the module's own on each of `ports` (R396). Under PRP and HSR a frame for the plant network leaves on both of its ports, with
one sequence number in the 6 bytes of its trailer or tag (R391, R395); PTP takes the two as two ports (R286). -/
def Mod.placeOn (m : Mod) (ports : List Nat) (q len : Nat) (d : EthData) : Mod :=
  let twice := 1 ≤ m.cfg.netc.prmode && ports.any (· < 2) && !d.isPtp
  let seq := m.eth.prpSeq + 1
  let m0 : Mod := if twice then { m with eth := { m.eth with prpSeq := seq } } else m
  m.netOf ((if twice then [0, 1] ++ ports.filter (2 ≤ ·) else ports).foldl (fun k p =>
    let red := twice && decide (p < 2)
    k.place { port := p, q := q, len := if red then len + 6 else len, data := d, hdr := m.headOf p (if red then some seq else none) d }) m0)
/-- A message of the engineering access leaves through queue 3 of its session's port (R396): the octets of UDP, IPv4 and the MAC header, of
the DTLS record and of the header of R563 around its body. -/
def Mod.eapFrame (m : Mod) (sess : Nat) (body : Bytes) : Mod :=
  match m.eap.sessions.find? fun s => s.id == sess with
  | none => m
  | some s =>
    let p := at_ [0, 1, 4] s.port 4
    let mac := if s.station then stationMac m.cfg.ident.node else if p = 4 then m.otp.mac + 1 else m.otp.mac
    m.placeOn [p] 3 (Nat.max 60 (54 + Config.dtlsOverhead + body.length)) (.eap sess mac body)

/-! Files and sessions. -/

/-- A write held back under R77 is counted (R521). -/
def Mod.deferWrite (m : Mod) : Mod := { m with sup := { m.sup with deferred := m.sup.deferred + 1 } }
/-- A header change, whose write waits while the supply forbids erasing (R77, R79); one that fails is recorded (R46). -/
def Mod.changeHdr (m : Mod) (h : Hdr) : Mod :=
  if m.sup.mayErase then
    let k : Mod := { m with cas := m.cas.writeHdr h }
    if k.cas.hdrFailed then k.log 1 4 6 0 [] else k
  else ({ m with cas := m.cas.holdHdr h } : Mod).deferWrite
/-- The journal changes; MRAM follows as far as the supply permits (R77, R79). -/
def Mod.setJrn (m : Mod) (f : Journal → Journal) : Mod :=
  let j := f m.cas.jrn
  if m.sup.mayWrite then { m with cas := { m.cas with jrn := j, mram := j, pendW := m.cas.pendW.filter fun w => w != .journal } }
  else if m.cas.pendW.contains .journal then { m with cas := { m.cas with jrn := j } }
  else ({ m with cas := { m.cas with jrn := j, pendW := m.cas.pendW ++ [.journal] } } : Mod).deferWrite
/-- The header names another image, and with it the trial that the journal counts (R59, R60, R64); nothing else changes where its write
fails (R46). -/
def Mod.newActive (m : Mod) (h : Hdr) : Mod :=
  let k := m.changeHdr h
  if k.cas.hdrFailed && m.sup.mayErase then k
  else ({ k with cas := { k.cas with winFrom := none } } : Mod).setJrn fun j =>
    { j with servedMs := 0, trials := 0, pend := 0, failedSlot := h.active }
/-- The last header change failed for good (R46). -/
def Mod.hdrLost (m : Mod) : Bool := m.cas.hdrFailed && m.sup.mayErase
/-- A header change that the journal records, a commit or a rollback: it is in effect at once, and a failed write is made up for at the
next start (R46, R62, R63, R73). -/
def Mod.changeRecorded (m : Mod) (h : Hdr) (f : Journal → Journal) : Mod :=
  let k := m.changeHdr h
  let shown := m.sup.mayErase && !k.cas.hdrFailed
  let k1 : Mod := if k.cas.hdrFailed && m.sup.mayErase then { k with cas := { k.cas with hdr := { h with seq := k.cas.hdr.seq } } } else k
  k1.setJrn fun j => { f j with pend := if shown then 0 else j.pend }
/-- A change of a slot entry of the header in use (R46, R79). -/
def Mod.setSlot (m : Mod) (n : Nat) (e : SlotEnt) : Mod := m.changeHdr { m.cas.hdr with slots := put m.cas.hdr.slots n e }
/-- An open file is given up: a slot being written is marked `EMPTY` (R573). -/
def Mod.dropFile (m : Mod) (f : FileOpen) : Mod :=
  let m1 := { m with eap := { m.eap with files := m.eap.files.filter fun g => g.fh != f.fh } }
  match f.write, f.name with
  | true, .slot n => m1.setSlot n {}
  | _, _ => m1
/-- The sessions that satisfy `p` end with their files and subscriptions (R559). -/
def Mod.endSessions (m : Mod) (p : Session → Bool) : Mod :=
  let gone := (m.eap.sessions.filter p).map (·.id)
  let m1 := (m.eap.files.filter fun f => gone.contains f.sess).foldl Mod.dropFile m
  { m1 with eap := { m1.eap with sessions := m1.eap.sessions.filter fun s => !p s,
                                 subs := m1.eap.subs.filter fun s => !gone.contains s.sess } }

/-- A command object's request that is accepted and not complete ends with a `RESULT` (R575). -/
def Mod.cmdDone (m : Mod) (idx status detail value : Nat) : Mod :=
  { m with eap := { m.eap with cmds := upd m.eap.cmds idx fun c =>
      if c.open_ then { status := status, detail := detail, value := value } else c } }

/-! Answers. -/

/-- Status codes of R564. -/
def stOk : Nat := 0
/-- See `stOk`. -/
def stAccepted : Nat := 1
/-- See `stOk`. -/
def stAccess : Nat := 2
/-- See `stOk`. -/
def stNoObject : Nat := 3
/-- See `stOk`. -/
def stRole : Nat := 4
/-- See `stOk`. -/
def stRange : Nat := 5
/-- See `stOk`. -/
def stLength : Nat := 6
/-- See `stOk`. -/
def stBusy : Nat := 7
/-- See `stOk`. -/
def stNotActive : Nat := 8
/-- See `stOk`. -/
def stCondition : Nat := 9
/-- See `stOk`. -/
def stAbsent : Nat := 10
/-- See `stOk`. -/
def stPartner : Nat := 11
/-- See `stOk`. -/
def stNoPartner : Nat := 12
/-- See `stOk`. -/
def stNoPrevious : Nat := 13
/-- See `stOk`. -/
def stPtpOwns : Nat := 14
/-- See `stOk`. -/
def stSupplyLow : Nat := 15
/-- See `stOk`. -/
def stInUse : Nat := 16
/-- See `stOk`. -/
def stNotPending : Nat := 17
/-- See `stOk`. -/
def stHidden : Nat := 18
/-- See `stOk`. -/
def stStale : Nat := 19
/-- See `stOk`. -/
def stNotShelvable : Nat := 20
/-- See `stOk`. -/
def stNotArmed : Nat := 21
/-- See `stOk`. -/
def stSequence : Nat := 22
/-- See `stOk`. -/
def stTimeout : Nat := 23
/-- See `stOk`. -/
def stBkpLocked : Nat := 24
/-- See `stOk`. -/
def stFwIncompatible : Nat := 25
/-- See `stOk`. -/
def stNode : Nat := 26
/-- See `stOk`. -/
def stImg : Nat := 27

/-- A response goes to its session's port, and is held for retransmission: the last 16 of its session (R565). -/
def Mod.respond (m : Mod) (rq : Req) (status : Nat) (body : Bytes) : Mod :=
  let keep (s : Session) : Session :=
    if s.id = rq.sess then { s with held := ({ tid := rq.tid, status := status, body := body } :: s.held).take 16 } else s
  let k := m.eapFrame rq.sess body
  { m.netOf k with eap := { m.eap with sessions := m.eap.sessions.map keep }, out := .respond rq status body :: k.out }
/-- The result body of `ALARM` (R579). -/
def alarmBody (seq state : Nat) : Bytes := natLe 4 seq ++ natLe 1 state ++ [0, 0, 0]
/-- An `ALARM` command is complete: `RESULT` takes its status, and its session, where it still stands, the answer (R575, R579). -/
def Mod.answerAlarm (m : Mod) (c : AlmCmd) : Mod :=
  let m1 : Mod := { m with eap := { m.eap with cmds := put m.eap.cmds 6 { status := c.status } } }
  if m1.eap.sessions.any fun s => s.id == c.rq.sess then m1.respond c.rq c.status (alarmBody c.seq c.state) else m1
/-- Alarm commands that no evaluation will apply, since ACT has cleared, are refused (R260, R579; log entry 111). -/
def Mod.refuseAlarms (m : Mod) : Mod :=
  m.ae.cmds.foldl (fun k c => k.answerAlarm { c with status := stNotActive, seq := 0 }) { m with ae := { m.ae with cmds := [], due := [] } }

/-! Streams. -/

/-- Of (number, size) entries, newest first, the number of the oldest that still fits into `room` bytes (R570). -/
def oldestKept : Nat → Nat → List (Nat × Nat) → Nat
  | _, k, [] => k
  | room, k, (a, n) :: t => if n ≤ room then oldestKept (room - n) a t else k
/-- The pending records of session `sess` are held to 64 KB: the oldest are dropped (R570). -/
def Mod.trimPending (m : Mod) (sess : Nat) : Mod :=
  let mine := m.eap.subs.filter fun s => s.sess == sess
  let ents := ((mine.map fun s => s.pend.map fun e => (e.1, e.2.length)).flatten).mergeSort fun a b => decide (b.1 ≤ a.1)
  let k := oldestKept 65536 m.eap.nextRec ents
  let gone (s : Sub) : Nat := if s.sess = sess then (s.pend.filter fun e => decide (e.1 < k)).length else 0
  let cut (s : Sub) : Sub :=
    if s.sess = sess then { s with pend := s.pend.filter (fun e => decide (k ≤ e.1)), dropped := s.dropped + gone s } else s
  let alarm := m.eap.subs.any fun s => decide (0 < gone s) && (match s.req with | .alarms _ => true | _ => false)
  { m with
    eap := { m.eap with subs := m.eap.subs.map cut, notifyDrops := m.eap.notifyDrops + BitVec.ofNat 32 (m.eap.subs.map gone).sum }
    ae := if alarm then { m.ae with pubGap := true } else m.ae }
/-- A record is pending for the subscriptions that take it (R569, R570). -/
def Mod.feedOne (m : Mod) (takes : SubReq → Bool) (r : Bytes) : Mod :=
  let m1 : Mod := { m with eap := { m.eap with
    nextRec := m.eap.nextRec + 1
    subs := m.eap.subs.map fun s => if takes s.req then { s with pend := s.pend ++ [(m.eap.nextRec, r)] } else s } }
  (m.eap.subs.map (·.sess)).eraseDups.foldl Mod.trimPending m1
/-- Records of a stream arise. -/
def Mod.feed (m : Mod) (takes : SubReq → Bool) (rs : List Bytes) : Mod :=
  if m.eap.subs.any fun s => takes s.req then rs.foldl (fun k r => k.feedOne takes r) m else m
/-- The alarm engine changes; the records it has published since reach the subscribers of stream 1 (R262, R569). -/
def Mod.setAe (m : Mod) (a : Ae) : Mod :=
  if a.seq = m.ae.seq then { m with ae := a }
  else
    let fresh := a.ring.filter fun r => decide ((r.seq - m.ae.seq - 1).toNat < (a.seq - m.ae.seq).toNat)
    let next (k : Sub) : Sub := match k.req with | .alarms _ => { k with next := some (a.seq + 1) } | _ => k
    let k := ({ m with ae := a } : Mod).feed (fun q => match q with | .alarms _ => true | _ => false) (fresh.map PubRec.bytes)
    { k with eap := { k.eap with subs := k.eap.subs.map next } }
/-- A snapshot of the counters; one that enters the ring reaches the subscribers of stream 4 (R540, R569). -/
def Mod.snapshot (m : Mod) (trig task : Nat) : Mod :=
  let p := m.pmc.snapshot trig task m.dt
  let m1 := { m with pmc := p }
  if p.snseq = m.pmc.snseq then m1
  else m1.feed (fun q => match q with | .counters => true | _ => false) (p.ring.getLast?.toList.map PmcSnap.bytes)

/-! The claim and ACT. -/

/-- What follows from ACT having cleared: alarm commands that wait are refused, the trace aborts (R242), the engine stops, station sessions end (R559), the alarm stream
yields nothing more of what it held (R569), the controllers listen only (R28, R445), HART transmits nothing (R492), the `SYNC` outputs are low (R28), no frame leaves from the station MAC or on the Spoke link (R394,
R417). -/
def Mod.actCleared (m : Mod) : Mod :=
  let m1 := m.refuseAlarms.endSessions (·.station)
  let quiet (k : Sub) : Sub := match k.req with | .alarms _ => { k with pend := [], dropped := 0 } | _ => k
  { m1 with
    ce := { m1.ce with running := false, trc := m1.ce.trc.abort 1 },
    ae := { m1.ae with running := false },
    eap := { m1.eap with subs := m1.eap.subs.map quiet },
    cans := m1.cans.map Can.listenOnly,
    an := { m1.an with hart := m1.an.hart.map fun d => { d with trans := none } },
    eth := { m1.eth with pool := m1.eth.pool.filter fun f => !f.data.asStation (stationMac m1.cfg.ident.node) },
    tb := { m1.tb with sync := [false, false] },
    dio := { m1.dio with ch := m1.dio.ch.map fun h => { h with maskFrom := m1.mono, partnerNoDrive := false } } }
/-- The claim is released: `ILK_OWN` at the unclaimed level, the ACT latch clears with it (R323), the stages follow (R29); a module
that held ACT carries `RELEASE` in its bells from then on (R326; DEDUCED, log entry 12). -/
def Mod.releaseClaim (m : Mod) : Mod :=
  let m1 := m.updTan fun t => { t with ilk := t.ilk.release m.mono, releaseMark := t.releaseMark || t.ilk.act }
  (if m.act then m1.actCleared else m1).restage
/-- The tasks stop where they stand: cycles in progress and applies to come are dropped (R27, R317). -/
def Mod.stopTasks (m : Mod) : Mod :=
  { m with tasks := m.tasks.map fun t => { t with running := none, pend := [], bgOut := [], asked := false } }

/-! The commit window and fatal conditions. -/

/-- A trial version is running, and its window is neither complete nor failed (R60, R61): not before B of an online change. -/
def Mod.windowOpen (m : Mod) : Bool :=
  m.cas.running && m.cas.hdr.commit == 1 && m.cas.jrn.pend == 0 && !m.cas.pendW.contains .commit && decide (m.change.phase < 3 ∨ 5 ≤ m.change.phase)
/-- A rollback is recorded in the journal (R63, R77). -/
def Mod.recordRollback (m : Mod) : Mod :=
  if m.sup.mayWrite then m.setJrn fun j => { j with pend := 2, failedSlot := m.cas.hdr.active }
  else ({ m with cas := { m.cas with pendW := m.cas.pendW ++ [.rollback] } } : Mod).deferWrite
/-- The module runs its image: it executes it, or follows it as the standby (R60). -/
def Mod.runsImage (m : Mod) : Bool := m.cas.running && (m.tan.role.executes || decide (m.tan.role = .standby))
/-- Time served in the window in ms (R60). -/
def Mod.servedMs (m : Mod) : Nat :=
  m.cas.jrn.servedMs + (match m.cas.winFrom with | some a => (m.mono - a) / phMs 1 | none => 0)
/-- The module takes another role; the window counts only while it runs its image (R60, R318). -/
def Mod.setRole (m : Mod) (r : Role) : Mod :=
  let k := m.updTan fun t => { t with role := r }
  if k.runsImage || m.cas.winFrom.isNone then k
  else ({ k with cas := { k.cas with winFrom := none } } : Mod).setJrn fun j => { j with servedMs := m.servedMs }
/-- The module takes the role `FAILED` (R26, R319): `cause` is that of the start that follows. -/
def Mod.toFailed (m : Mod) (cause : Nat) : Mod :=
  (m.stopTasks.setRole .failed).updTan fun t => { t with
    failedAt := some m.mono, failCause := cause, ho := { t.ho with pend := none, waitAck := false, permit := false } }
/-- A unit has been named in a fatal record: the second within 24 h of operating time excludes it (R183). -/
def Boot.fatalUnit (b : Boot) (unit : Option Nat) (optime : Nat) : Boot :=
  match unit with
  | none => b
  | some u =>
    let again := b.fatals.any fun f => f.1 == u && decide (optime ≤ f.2 + 86400000)
    { b with fatals := b.fatals ++ [(u, optime)], excl := if again then b.excl ||| 2 ^ u else b.excl }
/-- A fatal condition of R25: 1 lockstep, 2 ECC, 3 clock, 4 supply. `unit` is the number of R530's payload; `excl` the
core pair or lane (4 and above) that R183 counts. -/
def Mod.fatal (m : Mod) (cond unit : Nat) (excl : Option Nat) : Mod :=
  let fails := m.windowOpen && m.tan.role == .solo && cond != 4
  let m1 := m.releaseClaim.log 1 7 2 unit (natLe 1 cond ++ natLe 1 unit)
  let m2 := { m1 with boot := m1.boot.fatalUnit excl m1.optime }
  let m3 := if fails then m2.recordRollback else m2
  m3.toFailed 6
/-- A software fault (R27): kind 1 watchdog, 2 exception. -/
def Mod.softFault (m : Mod) (kind pair : Nat) : Mod :=
  let fails := m.windowOpen && m.executing
  let m1 := m.releaseClaim.log 1 6 9 pair (natLe 1 kind ++ natLe 1 pair)
  let m2 := if fails then m1.recordRollback else m1
  m2.toFailed 7

end Sys2Proof.Machine
end

