-- ==== Sys2Proof/Machine/Operands.lean ====
section
/-! DEFINITION. Requests of the engineering access protocol as the commands carry them: sessions, retransmission, roles, the answers
of READ, WRITE and COMMAND (19_engineering_access.md R563 to R568, R575, R577). -/

namespace Sys2Proof.Machine

/-- What becomes of a request: the module, and the answer with its body; none while the answer is to come. -/
structure Served where
  m : Mod
  ans : Option (Nat × Bytes) := some (0, [])
  deriving DecidableEq, Repr

/-- A valid record of a session has arrived (R558). -/
def Mod.touchSession (m : Mod) (id : Nat) : Mod :=
  { m with eap := { m.eap with sessions := m.eap.sessions.map fun s => if s.id = id then { s with lastAt := m.mono } else s } }
/-- The requests that wait for their answer (R409, R565, R573, R579). -/
def Mod.waiting (m : Mod) : List Req :=
  m.ae.cmds.map (·.rq) ++ m.eth.relays.map (·.rq) ++ (m.eap.relayClose.map (·.rq)).toList
/-- A request of session `s` is served now (R565): its `TID` is neither held nor that of a request that waits, and fewer than 8 wait. -/
def Mod.serves (m : Mod) (rq : Req) (s : Session) : Bool :=
  (s.held.find? fun r => r.tid == rq.tid).isNone && !m.waiting.contains rq &&
    decide ((m.waiting.filter fun q => q.sess == rq.sess).length < 8)
/-- A held response leaves again (R565). -/
def Mod.resend (m : Mod) (rq : Req) (r : Resp) : Mod := (m.eapFrame rq.sess r.body).send (.respond rq r.status r.body)
/-- A request is served (R565): without a session it is not heard; one whose `TID` is held gets the held response again, a repeat of one
that waits its only answer (log entry 128), and one beyond 8 that wait `BUSY`. -/
def Mod.serve (m : Mod) (rq : Req) (f : Session → Mod → Served) : Mod :=
  if !m.live then m
  else match m.eap.sessions.find? fun s => s.id == rq.sess with
  | none => m
  | some s =>
    let m1 := m.touchSession rq.sess
    if m.serves rq s then
      let r := f s m1
      match r.ans with
      | some (st, b) => r.m.respond rq st b
      | none => r.m
    else match s.held.find? fun r => r.tid == rq.tid with
    | some r => m1.resend rq r
    | none => if m.waiting.contains rq then m1 else m1.respond rq stBusy []
/-- The module is in `MAINTENANCE` (R69, R82). -/
def Mod.maint (m : Mod) : Bool := m.boot.state == 6

/-- An activation that meets one in phases 1 to 5 is refused (R152, R164). -/
def Mod.busyChange (m : Mod) : Mod :=
  if 1 ≤ m.change.phase ∧ m.change.phase ≤ 5 then { m with change := { m.change with refused := true, refuseCode := 0xFE } } else m
/-- What a command comes to (R575, R577): status, `DETAIL` and `VALUE` of `RESULT`, result body. -/
structure CmdAns where
  m : Mod
  status : Nat := 0
  detail : Nat := 0
  value : Nat := 0
  body : Bytes := []
  /-- `STATUS` of `RESULT`, where an accepted request has ended at once (R577). -/
  ended : Option Nat := none
  /-- The request stays incomplete after an `ACCEPTED`. -/
  stays : Bool := true
  deriving DecidableEq, Repr

/-- A COMMAND to command object `0x2F01` + `idx` (R575 to R577): `role` the least role, `p5` a command of P5 only, `inMaint` whether
R69 admits it in `MAINTENANCE`. -/
def Mod.command (m : Mod) (rq : Req) (idx role : Nat) (p5 inMaint : Bool) (f : Session → Mod → CmdAns) : Mod :=
  m.serve rq fun s m =>
    if (p5 && s.port != 2) || decide (s.role < role) then { m := m, ans := some (stRole, []) }
    else if m.maint && !inMaint then { m := m, ans := some (stCondition, []) }
    else if (at_ m.eap.cmds idx {}).open_ then { m := if idx = 1 then m.busyChange else m, ans := some (stBusy, []) }
    else
      let r := f s m
      let c : CmdObj := if r.status = stAccepted ∧ r.stays ∧ r.ended.isNone then { at_ m.eap.cmds idx {} with open_ := true }
        else { status := r.ended.getD (if r.status = stAccepted then stOk else r.status), detail := r.detail, value := r.value }
      { m := { r.m with eap := { r.m.eap with cmds := put r.m.eap.cmds idx c } }, ans := some (r.status, r.body) }


/-- One result of a READ (R567). -/
def readResult (status : Nat) (v : Bytes) : Bytes :=
  natLe 1 status ++ [0] ++ natLe 2 v.length ++ v ++ List.replicate ((4 - v.length % 4) % 4) 0
/-- One result of a WRITE (R567). -/
def writeResult (status : Nat) : Bytes := natLe 1 status ++ [0, 0, 0]
/-- A READ of one read-and-clear object (R568): `f` gives the value and the module after it. The access takes one ROOT cycle, and
what that cycle brings comes after the clearing (R15, log entry 105). -/
def Mod.readClear (m : Mod) (rq : Req) (f : Mod → Mod × Nat × Bytes) : Mod :=
  m.serve rq fun _ m =>
    if m.maint then { m := m, ans := some (stOk, readResult stCondition []) }
    else let r := f m; { m := r.1.pass 1, ans := some (stOk, readResult r.2.1 r.2.2) }
/-- A WRITE of one object: `role` the least role, `inMaint` whether R69 admits it; `f` gives the status. -/
def Mod.writeOne (m : Mod) (rq : Req) (role : Nat) (inMaint : Bool) (f : Session → Mod → Mod × Nat) : Mod :=
  m.serve rq fun s m =>
    if s.role < role then { m := m, ans := some (stOk, writeResult stRole) }
    else if m.maint && !inMaint then { m := m, ans := some (stOk, writeResult stCondition) }
    else let r := f s m; { m := r.1, ans := some (stOk, writeResult r.2) }

end Sys2Proof.Machine
end

