-- ==== Sys2Proof/Machine/CeGlue.lean ====
section
/-! DEFINITION. The control engine against the rest of the module: its read ports, the outputs it owns, its frame boundary,
lane counters, table switch and trace commands (06_control_engine.md, 07_compensation_handover_trace.md). -/

namespace Sys2Proof.Machine

/-- `sat16(round(x × 32,768 ÷ d))` (R16, R198). -/
def q15Of (x : Real32) (d : Nat) : Q15 :=
  if fIsNaN x then 0
  else if fIsInf x then (if fSign x then 0x8000 else 0x7FFF)
  else BitVec.ofInt 16 (clamp (-32768) 32767 (roundDiv (fUnits x * 32768) (d * 2 ^ 149)))
/-- The current of a value staged on an AO port: max(0, x) × 24 mA ÷ 32,768 (R199). -/
def aoPortMa (x : Q15) : Real32 := fOfRat (Nat.max 0 x.toInt.toNat * 24 : Nat) 32768

/-- The last HART response of a current input shows field device malfunction (R480, R491). -/
def Mod.aiMalf (m : Mod) (ch : Nat) : Bool :=
  match indexOf? (fun h : HartCfg => !h.ao && h.ch == ch) m.cfg.hart with
  | some i => (at_ m.an.hart i {}).devStat.getLsbD 7
  | none => false

/-- The link words in effect, by number (R198, R199). -/
def Ce.linkWords (c : Ce) : SMap Q15 :=
  (c.eff.filter fun e => decide (0xC0 ≤ e.1) && decide (e.1 ≤ 0xFF)).foldl (fun acc e => SMap.set 0 acc (e.1 - 0xC0) e.2) []

/-- The read ports of R198 as they stand at a boundary. -/
def Mod.ceLatch (m : Mod) : CeLatch :=
  { enc := m.dio.enc.map (·.count),
    encBad := m.dio.enc.map fun e => e.quality m.dio.encSupFault == 0,
    vel := mapFrom (fun i _ => q15Of ((at_ m.dio.enc i {}).vel (m.encCfg i) m.mono) (m.encCfg i).vmax) 0 (List.replicate 4 0),
    ai := m.an.ai.map fun a => q15Of a.mA 24,
    aiBad := m.an.ai.map fun a => !a.done || (decide (1 ≤ a.qual) && decide (a.qual ≤ 3)),
    pi := mapFrom (fun i _ => q15Of ((at_ m.dio.pi i {}).settle (m.piCfg i) m.mono).f (m.piCfg i).fmax) 0 (List.replicate 8 0),
    piBad := List.replicate 8 false,
    din := BitVec.ofNat 32 (packBits (m.dio.ch.map (·.level))),
    links := m.ce.linkWords }

/-- The AO channels that loops own (R199). -/
def Mod.ownedAo (m : Mod) : List Nat :=
  m.ce.cfg.filterMap fun d => if 0x80 ≤ d.oport ∧ d.oport ≤ 0x87 then some (d.oport - 0x80) else none
/-- An AO channel takes the value in effect on its port: a command, and a refresh (R199). -/
def Mod.aoFromCe (m : Mod) (n : Nat) : Mod :=
  m.updAo n fun h => h.command (aoPortMa (SMap.get 0 m.ce.eff (0x80 + n))) (m.trim 1 n) m.mono
/-- Step 1 of R206: staged values take effect, and the ports staged in the frame, or during a hold every owned output with a staged
value, are refreshed (R199, R216). With ACT clear no up buffer is written and no output commanded (R208). -/
def Mod.ceApply (m : Mod) : Mod :=
  if !m.act then
    { m with ce := { m.ce with touched := [], st := m.ce.st.map fun p => (p.1, { p.2 with upNext := none }) } }
  else
    let ports := (if 0 < m.ce.hold then m.ce.held.filter fun p => m.ownedAo.contains (p - 0x80) else m.ce.touched).filterMap fun p =>
      if 0x80 ≤ p ∧ p ≤ 0x87 then some (p - 0x80) else none
    (ports.foldl Mod.aoFromCe { m with ce := m.ce.applyStaged }).restage

/-- An SSI telegram starts at the frames of its period (R471). -/
def Mod.ssiStart (m : Mod) : Mod :=
  { m with dio := { m.dio with enc := mapFrom (fun i e =>
      let c := m.encCfg i
      if c.kind = 2 ∧ m.ce.f % Nat.max 1 c.sper = 0 then { e with ssiFrom := some m.mono } else e) 0 m.dio.enc } }

/-- The record of a lane overrun, at most once per second per lane (R207). -/
def Mod.laneOverrun (m : Mod) (l : Nat) : Mod :=
  let r := at_ m.ce.lanes l {}
  if (match r.ovrAt with | some a => decide (a + phS 1 ≤ m.mono) | none => true) then
    { m with ce := { m.ce with lanes := upd m.ce.lanes l fun r => { r with ovrAt := some m.mono } } }.log 4 5 0x21 l []
  else m

/-- The counters of a lane after a frame of `budget` cycles (R538). -/
def Mod.countLane (m : Mod) (budget l : Nat) : Mod :=
  let r := at_ m.ce.lanes l {}
  (((m.count 0x10 l r.issued).count 0x11 l (budget - r.cycles)).count 0x12 l r.execs).count 0x13 l r.lost

/-- The frame boundary (R204 to R208, R216). -/
def Mod.frameBoundary (m : Mod) : Mod :=
  let m1 := m.ceApply
  let past := decide (shortDiff m1.ce.trc.trig.t (shortOf (dtimeOf m1.ce.nextB)) ≤ 0)
  let budget := frameLength (gridOffset m1.ce.nextB) / m1.tb.cycleUnits
  let act := m1.executing && decide (m1.ce.from_ ≤ m1.mono)
  let r := m1.ce.boundary m1.ceLatch act past budget
  let m2 := { m1 with ce := r.1 }.ssiStart
  let m3 := r.2.foldl Mod.laneOverrun m2
  if act then [0, 1, 2, 3].foldl (fun k l => k.countLane budget l) m3 else m3

/-- The first frame boundary at or after the present device time (R208): the grid starts there. -/
def Mod.startGrid (m : Mod) : Mod :=
  { m with ce := { m.ce with nextB := ceilDiv m.tb.now frameUnits * frameUnits, gridOff := 0, started := false, f := 0 } }

end Sys2Proof.Machine
end

