-- ==== Sys2Proof/Machine/NetGlue.lean ====
section
/-! DEFINITION. Frames into and out of the pannier pool as the whole module sees them (12_ethernet_and_spoke_link.md R395 to
R399, R418, R419). -/

namespace Sys2Proof.Machine

/-- The payload of a station message (R399): `MKIND`, `MVER` 1, `MLEN`, the message. -/
def stationPayload (kind : Nat) (msg : Bytes) : Bytes := natLe 1 kind ++ [1] ++ natLe 2 msg.length ++ msg
/-- A station message on P1 and P2 (R399): kind 1 act-at-time in class 7, 2 first-out in class 6; sent while ACT is set (R28). -/
def Mod.stationMsg (m : Mod) (kind : Nat) (msg : Bytes) : Mod :=
  if m.act then m.placeOn [0, 1] (if kind = 1 then 7 else 6) (22 + msg.length) (.station kind (stationPayload kind msg)) else m
/-- A copy of an instance's act-at-time message has not left a port whose link is up (R122). -/
def Mod.actAtBusy (m : Mod) (iid : Nat) : Bool :=
  let mine (f : PoolFrame) : Bool := match f.data with | .station 1 msg => field msg 12 4 == iid | _ => false
  [0, 1].any fun p =>
    let e := at_ m.eth.ports p {}
    e.link && ((m.eth.pool.any fun f => f.port == p && mine f) || (match e.tx with | some f => mine f | none => false))

end Sys2Proof.Machine
end

