-- ==== Sys2Proof/Machine/SiOps.lean ====
section
/-! DEFINITION. Named operations of the safety island (11_safety_island.md). -/

namespace Sys2Proof.Machine

/-- The function set code of a switch image (R361). -/
def swFunc (img : Nat) : Nat := bitsOf img 0 4
/-- The input filter in µs (R361). -/
def swFilterUs (img : Nat) : Nat := at_ [500, 1000, 3000, 10000] (bitsOf img 4 2) 0
/-- Automatic restart (R361). -/
def swAuto (img : Nat) : Bool := bitOf img 6
/-- EDM monitoring (R361). -/
def swEdm (img : Nat) : Bool := bitOf img 7
/-- The brake-test interval in hours; none with the interval off (R361). -/
def swInterval (img : Nat) : Option Nat := at_ [some 8, some 24, some 168, none] (bitsOf img 8 2) none
/-- T_test in s (R361). -/
def swTestS (img : Nat) : Nat := at_ [1, 2, 5, 10] (bitsOf img 10 2) 0
/-- The slip limit in counts (R361). -/
def swSlip (img : Nat) : Nat := at_ [4, 8, 16, 32] (bitsOf img 12 2) 0
/-- SL_IN is a demand source (R361). -/
def swSlIn (img : Nat) : Bool := bitOf img 14

/-- Brake `n` has a brake test in the function set (R362). -/
def hasBrakeTest (func n : Nat) : Bool := func == 3 && n == 0 || func == 4 || func == 5

/-- An invalid switch image (R362). -/
def swInvalidImg (img : Nat) : Bool :=
  decide (6 ≤ swFunc img) || bitOf img 15 || ((swInterval img).isSome && !hasBrakeTest (swFunc img) 0)

/-- The function sets with two groups (R362). -/
def isSplit (func : Nat) : Bool := func == 2 || func == 5

/-- The group of output SO`n`, or of the outputs that follow SBC`n - 4` (R362). -/
def outGroup (func out : Nat) : Nat :=
  if isSplit func then (if out < 4 then out / 2 else out - 4) else 0

/-- Pair `p` (0 to 7: SI, 8: SL_IN) is a demand source of group `g` (R362, R374). -/
def isSource (img p g : Nat) : Bool :=
  let func := swFunc img
  if p = 8 then swSlIn img
  else if p = 7 ∧ !swAuto img then false
  else if func = 0 then false
  else if isSplit func then p / 4 == g
  else g == 0

/-- SBC`n` is served by the function set (R362); the others are held off. -/
def sbcServed (func n : Nat) : Bool := hasBrakeTest func n

/-- A demand of group `g` is present. -/
def Si.groupDemand (s : Si) (g : Nat) : Bool :=
  (List.range 9).any fun p => isSource s.img p g && (at_ s.pairs p {}).demand

/-- A demand of an SI pair is present, for SL_OUT (R375). -/
def Si.siDemand (s : Si) : Bool :=
  (List.range 8).any fun p => (p ≠ 7 || swAuto s.img) && (at_ s.pairs p {}).demand

/-- Any demand source is a demand. -/
def Si.anyDemand (s : Si) : Bool := s.groupDemand 0 || s.groupDemand 1 || s.siDemand

/-- A category C fault is present (R384). -/
def Si.faultC (s : Si) : Bool := s.core || s.supplyTrip || s.imageBad

/-- A category S fault is present (R384). -/
def Si.faultS (s : Si) : Bool := s.swInvalid || s.swChanged || s.swMismatch

/-- The safe state holds for the whole island (R359, R365, R384). -/
def Si.tripped (s : Si) : Bool :=
  !s.started || !s.powered || s.faultC || s.swInvalid || s.swChanged || s.mismatchAtStart || decide (swFunc s.img = 0)

/-- A category B fault of an output that keeps it off (R384). -/
def SiOut.faulty (o : SiOut) : Bool := o.hsFault || o.lsFault || o.shortExt || o.cross || o.edmFault || o.vmonFault

/-- The EDM inputs of SO`n` read closed (R376). -/
def Si.edmClosed (s : Si) (n : Nat) : Bool := bitOf s.edm (2 * n) && bitOf s.edm (2 * n + 1)
/-- The EDM inputs of SO`n` read open. -/
def Si.edmOpen (s : Si) (n : Nat) : Bool := !bitOf s.edm (2 * n) && !bitOf s.edm (2 * n + 1)

/-- SO`n` belongs to group `g`. -/
def inGroup (func n g : Nat) : Bool := n < 4 && outGroup func n == g

/-- Group `g` exists in the function set. -/
def groupExists (func g : Nat) : Bool := func ≠ 0 && (g == 0 || isSplit func)

/-- The conditions of R374 but for EDM and the restart condition: what keeps an energised group on. -/
def Si.groupHolds (s : Si) (g : Nat) : Bool :=
  !s.tripped && groupExists (swFunc s.img) g && !s.groupDemand g && !s.ufsLow &&
    (List.range 4).all fun n => !inGroup (swFunc s.img) n g || !(at_ s.outs n {}).faulty

/-- The conditions of R374 but for the restart condition: what lets a group that is off energise. -/
def Si.groupReady (s : Si) (g : Nat) : Bool :=
  s.groupHolds g && !s.swMismatch &&
    (!swEdm s.img || (List.range 4).all fun n => !inGroup (swFunc s.img) n g || s.edmClosed n)

/-- SBC`n` is locked out (R380). -/
def Si.locked (s : Si) (n : Nat) : Bool := (at_ s.brakes n {}).overdue || (at_ s.brakes n {}).failedLatch

/-- SBC`n` is on (R371, R375, R379, R380). After a failed test it waits for the restart condition of its group, which the fall of
`BT_REQ` does not meet (R38; DEDUCED, log entry 27). -/
def Si.sbcOn (s : Si) (n : Nat) : Bool :=
  let o := at_ s.outs (4 + n) {}
  let b := at_ s.brakes n {}
  !s.tripped && sbcServed (swFunc s.img) n && !s.groupDemand (outGroup (swFunc s.img) (4 + n)) && !o.faulty
    && decide (b.st ≠ .granted) && decide (b.st ≠ .running) && s.brakes.all (fun b => decide (b.st ≠ .fail))
    && !(at_ s.groups (outGroup (swFunc s.img) (4 + n)) {}).failed
    && (o.on || !s.locked n && !s.swMismatch)

/-- SL_OUT is on (R375, R365). -/
def Si.slOutOn (s : Si) : Bool :=
  let o := at_ s.outs 6 {}
  !s.tripped && !s.siDemand && !s.ufsLow && !o.faulty && (o.on || !s.swMismatch)

/-- An output commanded to `on`: a change arms its EDM timer (R376). -/
def SiOut.command (o : SiOut) (on edm : Bool) (now : Nat) : SiOut :=
  if o.on = on then o else { o with on := on, changedAt := now, edmAt := if edm then some (now + phMs 300) else none }

/-- A fault of each output that satisfies `f`. -/
def Si.outFaults (s : Si) (code : Nat) (f : SiOut → Bool) : List (Nat × Nat) :=
  ((enumFrom 0 s.outs).filter fun e => f e.2).map fun e => (code, e.1)

/-- The faults of R384 that are present, in code order, each with the pair or the output where it names one. -/
def Si.present (s : Si) : List (Nat × Nat) :=
  let p := enumFrom 0 (s.pairs.take 8)
  let whole (b : Bool) (code : Nat) : List (Nat × Nat) := if b then [(code, 0)] else []
  ((p.filter fun e => e.2.disc).map fun e => (0x01, e.1)) ++ ((p.filter fun e => e.2.tpFail).map fun e => (0x02, e.1))
  ++ whole (at_ s.pairs 8 {}).disc 0x03 ++ s.outFaults 0x10 (fun o => o.hsFault || o.lsFault)
  ++ s.outFaults 0x11 (·.shortExt) ++ s.outFaults 0x12 (·.cross) ++ s.outFaults 0x13 (·.edmFault) ++ s.outFaults 0x14 (·.vmonFault)
  ++ whole s.sencFaultAt.isSome 0x15 ++ whole s.ufsLow 0x20 ++ whole s.ubLow 0x21 ++ whole s.core 0x30 ++ whole s.supplyTrip 0x31
  ++ whole s.imageBad 0x32 ++ whole s.swInvalid 0x40 ++ whole s.swChanged 0x41 ++ whole (s.swMismatch || s.expected.isNone && s.started) 0x42

/-- An event for the next report (R360). -/
def Si.event (s : Si) (kind num : Nat) : Si :=
  { s with events := s.events ++ [(kind, num, s.eventCount + 1)], eventCount := s.eventCount + 1 }

/-- The faults' order after a change, with an event for each fault that has come or gone. -/
def Si.noteFaults (s : Si) : Si :=
  let now := s.present
  let fresh := now.filter fun f => !s.faults.contains f
  let gone := s.faults.filter fun f => !now.contains f
  let s1 := (fresh ++ gone).foldl (fun s f => s.event 0 f.1) s
  { s1 with faults := fresh.reverse ++ s.faults.filter fun f => now.contains f }

/-- The end of a brake test in `st` with a cause, its slip, which counts from `GRANTED`, and its event (R379, R380). -/
def Si.btEnd (s : Si) (n : Nat) (st : BtState) (cause : Nat) : Si :=
  let b := at_ s.brakes n {}
  let slip := if b.st = .checking then 0 else Nat.min 65535 (s.senc - b.slipBase).natAbs
  let s1 := { s with lastSlip := slip, brakes := upd s.brakes n fun b =>
    match st with
    | .pass => { b with st := .pass, cause := 0, due := false, overdue := false, failedLatch := false, spent := 0 }
    | .fail => { b with st := .fail, cause := cause, failedLatch := true }
    | _ => { b with st := st, cause := cause } }
  let s2 := if st = .fail then { s1 with groups := s1.groups.map fun _ => { failed := true } } else s1
  s2.event 2 n

/-- The running tests end as `ABORTED` where a demand or a fault is present (R379, R383). -/
def Si.btAborts (s : Si) : Si :=
  (List.range 2).foldl (fun s n =>
    let b := at_ s.brakes n {}
    if b.st = .granted ∨ b.st = .running then
      if s.anyDemand then s.btEnd n .aborted 2
      else if s.sencFaultAt.isSome then s.btEnd n .aborted 6
      else if s.present.any (·.1 ≠ 0x21) then s.btEnd n .aborted 8
      else s
    else s) s

/-- The outputs follow the groups, the brakes and SL_OUT (R371, R374, R375); faults and tests are noted. -/
def Si.settle (s : Si) (now : Nat) : Si :=
  let s0 := s.btAborts
  let gs := (enumFrom 0 s0.groups).map fun (g, x) =>
    let on := x.on && s0.groupHolds g
    { x with on := on, condFrom := if on then none else if s0.groupReady g then x.condFrom.or (some now) else none }
  let s1 := { s0 with groups := gs }
  let func := swFunc s1.img
  let outs := (enumFrom 0 s1.outs).map fun (i, o) =>
    let on := if i < 4 then (at_ gs (outGroup func i) {}).on && !o.faulty
              else if i < 6 then s1.sbcOn (i - 4) else s1.slOutOn
    o.command on (i < 4 && swEdm s1.img) now
  { s1 with outs := outs }.noteFaults

/-- Group `g` energises (R374). -/
def Si.energise (s : Si) (g now : Nat) : Si :=
  { s with groups := upd s.groups g fun x => { x with on := true, condFrom := none, failed := false } }.settle now

/-- The instant from which a source's test pulses count: TP2's lie 5 ms after TP1's (R366). -/
def Si.pulseFrom (s : Si) (tp2 : Bool) : Nat := s.startAt + (if tp2 then phMs 5 else 0)
/-- A source is low: for 100 µs every 10 ms (R366). -/
def Si.tpLow (s : Si) (tp2 : Bool) (now : Nat) : Bool :=
  decide (s.pulseFrom tp2 ≤ now) && decide ((now - s.pulseFrom tp2) % phMs 10 < phUs 100)
/-- The mask window of a source's inputs: 200 µs from the start of its pulse (R366). -/
def Si.masked (s : Si) (tp2 : Bool) (now : Nat) : Bool :=
  decide (s.pulseFrom tp2 ≤ now) && decide ((now - s.pulseFrom tp2) % phMs 10 < phUs 200)
/-- The time inside mask windows of a source up to an instant. -/
def Si.maskTime (s : Si) (tp2 : Bool) (now : Nat) : Nat :=
  let d := now - s.pulseFrom tp2
  d / phMs 10 * phUs 200 + Nat.min (d % phMs 10) (phUs 200)
/-- The time for which a channel that opened at `from_` has been open, without mask windows (R367); SL_IN has none (R369). -/
def Si.openFor (s : Si) (pair : Nat) (chB : Bool) (from_ now : Nat) : Nat :=
  now - from_ - (if pair = 8 then 0 else s.maskTime chB now - s.maskTime chB from_)
/-- The instant at which a channel that opened at `from_` completes the filter time f (R367): mask windows that it spans put it off. -/
def Si.filterDue (s : Si) (pair : Nat) (chB : Bool) (from_ : Nat) : Nat :=
  let f := phUs (swFilterUs s.img)
  let later (t : Nat) : Nat := from_ + f + (if pair = 8 then 0 else s.maskTime chB t - s.maskTime chB from_)
  later (later (later (later (from_ + f))))

/-- A channel as sampled: open where it reads low outside its mask windows (R367). -/
def Si.closedAt (s : Si) (pair : Nat) (chB was level : Bool) (now : Nat) : Bool :=
  if pair ≠ 8 && s.masked chB now then was else level
/-- A pair with one sample of its channels: openings, closings, filter times and the start of a discrepancy (R366, R367, R369). A pulse
that a channel has passed counts while both stay closed. -/
def Si.samplePair (s : Si) (i : Nat) (p : SiPair) (chA chB : Bool) (now : Nat) : SiPair :=
  let a := s.closedAt i false p.a chA now
  let b := s.closedAt i true p.b chB now
  let p1 := { p with
    a := a, b := b,
    openA := if a || p.a then now else p.openA, openB := if b || p.b then now else p.openB,
    passA := p.passA && a && b, passB := p.passB && a && b,
    bothOpenSeen := p.bothOpenSeen || !a && !b,
    discAt := if a = b then none else p.discAt.or (some (now + phMs 100)) }
  let f := phUs (swFilterUs s.img)
  { p1 with filtA := p1.filtA || !a && decide (f ≤ s.openFor i false p1.openA now),
            filtB := p1.filtB || !b && decide (f ≤ s.openFor i true p1.openB now) }
/-- The instants of a cycle's samples, which ends at `now`. -/
def sampleTimes (xs : List SiSample) (now : Nat) : List (Nat × SiSample) := (enumFrom 0 xs).map fun e => (now + phUs 10 * (e.1 + 1) - phUs 250, e.2)

/-- A pair's demand at a cycle boundary (R367, R384): it rises with a filter time that has completed since the last one, and clears once both channels are
closed and have passed a test pulse, after both have been open where a fault of the pair is present. -/
def SiPair.judge (p : SiPair) (pulses : Bool) : SiPair :=
  let rise := p.filtA || p.filtB || p.disc || p.tpFail
  let clear := p.a && p.b && (!pulses || p.passA && p.passB) && (!(p.disc || p.tpFail) || p.bothOpenSeen)
  let q := { p with filtA := p.filtA && !p.a, filtB := p.filtB && !p.b }
  if !p.demand && rise then { q with demand := true, passA := false, passB := false, bothOpenSeen := !p.a && !p.b }
  else if p.demand && clear then { q with demand := false, disc := false, tpFail := false, bothOpenSeen := false }
  else q

/-- The judgement of a test's result (R372, R384). -/
def Si.judgeTest (s : Si) (i : Nat) (t : SiTest) : Si :=
  let put1 (f : SiOut → SiOut) (s : Si) (i : Nat) : Si := { s with outs := upd s.outs i f }
  match t.res with
  | .pass => s
  | .hsFail => put1 (fun o => { o with hsFault := true }) s i
  | .lsFail => put1 (fun o => { o with lsFault := true }) s i
  | .shortExt => put1 (fun o => { o with shortExt := true }) s i
  | .cross j => put1 (fun o => { o with cross := true }) (put1 (fun o => { o with cross := true }) s i) j.val
  | .vmon => if i = 4 ∨ i = 5 then put1 (fun o => { o with vmonFault := true }) s i else s

/-- A demand of pair `p` reaches output `i` (R362, R375). -/
def Si.demandOn (s : Si) (p i : Nat) : Bool :=
  if i < 6 then isSource s.img p (outGroup (swFunc s.img) i) else decide (p < 8) && (p ≠ 7 || swAuto s.img)

/-- Pending tests at a cycle: abandoned where a demand has just come for the output, also for one in demand already, judged otherwise
(R373). `rises` are the pairs that have become demands. -/
def Si.tests (s : Si) (rises : List Nat) : Si :=
  (List.range 7).foldl (fun s i =>
    let o := at_ s.outs i {}
    match o.test with
    | none => s
    | some t =>
      if rises.any fun p => s.demandOn p i then
        { s with outs := upd s.outs i fun o =>
          { o with test := none, waitHs := if t.highSide then some o.on else o.waitHs, waitLs := if t.highSide then o.waitLs else some o.on,
                   abandoned := if o.abandoned = 255 then 255 else o.abandoned + 1 } }
      else { s with outs := upd s.outs i fun o => { o with test := none } }.judgeTest i t) s

/-- A closure of both channels of SI7 that ends now was a reset (R374): the channels closed within 100 ms of each other, and both stayed
closed for 100 ms to 5 s. -/
def Si.resetValid (s : Si) (now : Nat) : Bool :=
  !s.resetHeld && (match s.rstA, s.rstB with
    | some x, some y => decide (Nat.max x y - Nat.min x y ≤ phMs 100)
        && decide (Nat.max x y + phMs 100 ≤ now) && decide (now ≤ Nat.max x y + phS 5)
    | _, _ => false)

/-- The reset input SI7 at a cycle (R374): closure instants; the closure of both channels ends as the first of them opens; RESET_HELD. -/
def Si.resetInput (s : Si) (now : Nat) : Si :=
  let p := at_ s.pairs 7 {}
  let closed := s.rstA.isSome && s.rstB.isSome
  let begins := p.a && s.rstA.isNone || p.b && s.rstB.isNone
  let openFrom := if !p.a && !p.b then s.rstOpenFrom.or (some now) else none
  let release := match openFrom with | some t => decide (t + phS 1 ≤ now) | none => false
  { s with
    rstA := if p.a then s.rstA.or (some now) else none
    rstB := if p.b then s.rstB.or (some now) else none
    rstDone := if closed && !(p.a && p.b) then s.resetValid now else if begins then false else s.rstDone
    rstOpenFrom := openFrom, resetHeld := s.resetHeld && !release }

/-- EDM at a cycle (R376): an input pair that has followed ends the timer; a fault clears after 1 s closed. -/
def Si.edmCycle (s : Si) (now : Nat) : Si :=
  { s with outs := (enumFrom 0 s.outs).map fun ((i, o) : Nat × SiOut) =>
      if i < 4 then
        let closed := s.edmClosed i
        let from_ := if closed then o.edmClosedFrom.or (some now) else none
        let ok := match from_ with | some t => decide (t + phS 1 ≤ now) | none => false
        { o with edmAt := if (if o.on then s.edmOpen i else closed) then none else o.edmAt,
                 edmClosedFrom := from_, edmFault := o.edmFault && !ok }
      else o }

/-- The position of the SENC tracks in their cycle: track A leads B where the shaft turns upwards (DESIGN CHOICE, log entry 145). -/
def trackPos (t : BitVec 2) : Nat :=
  match t.toNat with | 0 => 0 | 1 => 1 | 3 => 2 | _ => 3
/-- The quadrature decode of one sample: the count, or none where both tracks have changed (R378). -/
def quadStep (was now : BitVec 2) : Option Int :=
  match (trackPos now + 4 - trackPos was) % 4 with | 0 => some 0 | 1 => some 1 | 3 => some (-1) | _ => none
/-- One sample of SENC (R378): a count, or an invalid transition, which is a fault for 10 s. -/
def Si.sencSample (s : Si) (tracks : BitVec 2) (now : Nat) : Si :=
  let k := { s with sencAt := some tracks }
  match s.sencAt with
  | none => k
  | some was => match quadStep was tracks with
    | none => { k with sencFaultAt := some now }
    | some 0 => k
    | some d => { k with senc := k.senc + d, sencMoves := (now, 1) :: k.sencMoves }
/-- SENC over one cycle (R378, R384). -/
def Si.sencCycle (s : Si) (xs : List (Nat × SiSample)) (now : Nat) : Si :=
  let k := xs.foldl (fun (k : Si) e => k.sencSample e.2.senc e.1) s
  { k with sencMoves := k.sencMoves.filter fun (t, _) => decide (now < t + phMs 500),
           sencFaultAt := k.sencFaultAt.filter fun t => decide (now < t + phS 10) }

/-- The shaft is at standstill (R378). -/
def Si.standstill (s : Si) : Bool := decide ((s.sencMoves.map (·.2)).sum ≤ 2)

/-- The brake tests at a cycle: the checks of `CHECKING`, and a slip above the limit (R379). -/
def Si.brakeCycle (s : Si) (now : Nat) : Si :=
  (List.range 2).foldl (fun s n =>
    let b := at_ s.brakes n {}
    match b.st with
    | .checking =>
      if !hasBrakeTest (swFunc s.img) n then s.btEnd n .aborted 7
      else if s.anyDemand then s.btEnd n .aborted 2
      else if s.sencFaultAt.isSome then s.btEnd n .aborted 6
      else if s.present.any (·.1 ≠ 0x21) then s.btEnd n .aborted 8
      else if !s.standstill then s.btEnd n .aborted 1
      else { s with brakes := upd s.brakes n fun b => { b with st := .granted, cause := 0, slipBase := s.senc, at_ := now } }
    | .granted => if swSlip s.img < (s.senc - b.slipBase).natAbs then s.btEnd n .fail 0 else s
    | .running => if swSlip s.img < (s.senc - b.slipBase).natAbs then s.btEnd n .fail 0 else s
    | _ => s) s

/-- The field supplies as a cycle reads them (R384). -/
def Si.supplies (s : Si) (ufsMv ubMv : Nat) : Si :=
  { s with ufsLow := if ufsMv < 16000 then true else if 17000 ≤ ufsMv then false else s.ufsLow,
           ubLow := if ubMv < 18000 ∧ ((at_ s.outs 4 {}).on ∨ (at_ s.outs 5 {}).on) then true
                    else if 19000 ≤ ubMv then false else s.ubLow }

/-- The voltage read back at the SBC outputs against their commands (R370), once an output has had its switch-off time of 700 µs. -/
def Si.readBack (s : Si) (volt : BitVec 2) (now : Nat) : Si :=
  let bad (i : Nat) (o : SiOut) : Bool :=
    (i == 4 || i == 5) && o.test.isNone && decide (o.changedAt + phUs 700 ≤ now) && (volt.getLsbD (i - 4) != o.on)
  { s with outs := mapFrom (fun i o => { o with vmonFault := o.vmonFault || bad i o }) 0 s.outs }

/-- The input pairs over one cycle (R366, R367). -/
def Si.samplePairs (s : Si) (xs : List (Nat × SiSample)) : List SiPair :=
  mapFrom (fun i p =>
    (xs.foldl (fun (q : SiPair) e => s.samplePair i q (e.2.chA.getLsbD i) (e.2.chB.getLsbD i) e.1) p).judge (i ≠ 8)) 0 s.pairs

/-- One SI cycle (R365, R367, R370, R373 to R380, R384). -/
def Si.cycle (s : Si) (inp : SiIn) (now : Nat) : Si :=
  if !s.started then s
  else
    let xs := sampleTimes inp.samples now
    let s0 := { s with swChanged := s.swChanged || inp.switches.toNat != s.img, swRead := inp.switches.toNat, core := s.core || !inp.selfOk,
                       tp := [!s.tpLow false now, !s.tpLow true now] }
    let s1 := { s0.supplies inp.ufsMv inp.ubMv with edm := inp.edm.toNat, pairs := s0.samplePairs xs }
    let rises := ((List.range 9).filter fun i => (at_ s1.pairs i {}).demand && !(at_ s.pairs i {}).demand
      && (i ≠ 7 || swAuto s.img) && (i ≠ 8 || swSlIn s.img))
    let s2 := rises.foldl (fun s i => { s with demands := s.demands + 1 }.event 1 i) s1
    let s3 := (((s2.sencCycle xs now).resetInput now).edmCycle now).readBack inp.sbcVolt now
    ((s3.tests rises).brakeCycle now).settle now

/-- The filter time has elapsed on an open channel (R367). -/
def Si.filterElapsed (s : Si) (pair : Nat) (chB : Bool) (now : Nat) : Si :=
  { s with pairs := upd s.pairs pair fun p =>
      let f := phUs (swFilterUs s.img)
      if chB then (if !p.b && decide (f ≤ s.openFor pair true p.openB now) then { p with filtB := true } else p)
      else (if !p.a && decide (f ≤ s.openFor pair false p.openA now) then { p with filtA := true } else p) }

/-- A pair with a failed test pulse (R368, R384): it clears only after both of its channels have opened again. -/
def SiPair.failPulse (p : SiPair) : SiPair := { p with tpFail := true, bothOpenSeen := false, passA := false, passB := false }

/-- A test-pulse mask window of a source is judged as it ends, 200 µs from the pulse: `high` marks the channels that read high throughout
(R366, R368); a pair in demand is tested again once both of its channels are closed (R367). -/
def Si.testPulse (s : Si) (tp2 : Bool) (high : BitVec 9) : Si :=
  { s with
    tp := if tp2 then [at_ s.tp 0 true, true] else [true, at_ s.tp 1 true]
    pairs := (enumFrom 0 s.pairs).map fun ((i, p) : Nat × SiPair) =>
      if i = 8 then p
      else if tp2 then
        (if !p.b || p.demand && !p.a then p else if high.getLsbD i then p.failPulse else { p with passB := true })
      else
        (if !p.a || p.demand && !p.b then p else if high.getLsbD i then p.failPulse else { p with passA := true }) }

/-- A discrepancy time has run out (R369). -/
def Si.discrepancy (s : Si) (pair now : Nat) : Si :=
  match (at_ s.pairs pair {}).discAt with
  | some t => if t ≤ now then
      { s with pairs := upd s.pairs pair fun p => { p with disc := true, discAt := none, bothOpenSeen := false, passA := false, passB := false } }.noteFaults
    else s
  | none => s

/-- A switch test of an output runs (R372): it needs the state that an abandoned test waits for (R373), and SL_OUT is
tested only while on. -/
def Si.outputTest (s : Si) (out : Nat) (highSide : Bool) (res : OutTest) (now : Nat) : Si :=
  let o := at_ s.outs out {}
  let waits := match (if highSide then o.waitHs else o.waitLs) with | some b => o.on != b | none => false
  if waits || o.test.isSome || !s.started || out == 6 && !o.on then s
  else { s with lastTestAt := some now, outs := upd s.outs out fun o =>
           { o with test := some { highSide := highSide, res := res },
                    waitHs := if highSide then none else o.waitHs, waitLs := if highSide then o.waitLs else none,
                    testedHs := if highSide then some now else o.testedHs,
                    testedLs := if highSide then o.testedLs else some now } }

/-- The instant at which a switch test is due: once per second, 10 ms from a test of another output (R372). -/
def Si.testDue (s : Si) (out : Nat) (highSide : Bool) : Nat :=
  let o := at_ s.outs out {}
  let own := match (if highSide then o.testedHs else o.testedLs) with | some t => t + phS 1 | none => 0
  let any := match s.lastTestAt with | some t => t + phMs 10 | none => 0
  Nat.max own any

/-- A group of the function set is off and a condition of R374 other than the reset is missing. -/
def Si.conditionMissing (s : Si) : Bool :=
  (List.range 2).any fun g => groupExists (swFunc s.img) g && !(at_ s.groups g {}).on && !s.groupReady g
/-- A reset on SI7 (R374): it takes effect as both channels read open; one taken while a condition is missing is ignored and counted. -/
def Si.manualReset (s : Si) (now : Nat) : Si :=
  let valid := s.rstDone || s.resetValid now
  let s0 := { s with rstA := none, rstB := none, rstDone := false,
                     pairs := upd s.pairs 7 fun p => { p with a := false, b := false } }
  if !valid || swAuto s.img || !s.started then s0
  else
    let ready := (List.range 2).filter fun g => s0.groupReady g && !(at_ s0.groups g {}).on
    let s1 := if s0.conditionMissing then { s0 with rstIgnored := s0.rstIgnored + 1 } else s0
    ready.foldl (fun s g => s.energise g now) s1

/-- SI7 has stayed closed for longer than 5 s (R374). -/
def Si.holdReset (s : Si) (now : Nat) : Si :=
  match s.rstA, s.rstB with
  | some x, some y => if Nat.max x y + phS 5 ≤ now ∧ !swAuto s.img then { s with resetHeld := true } else s
  | _, _ => s

/-- The EDM inputs of SO`n` have not followed within 300 ms (R376). -/
def Si.edmTimeout (s : Si) (n now : Nat) : Si :=
  match (at_ s.outs n {}).edmAt with
  | some t => if t ≤ now then
      { s with outs := upd s.outs n fun o => { o with edmFault := true, edmAt := none, edmClosedFrom := none } }.settle now
    else s
  | none => s

/-- The island loses its supply: the safe state (R359, R386), the powered time of the brakes' intervals kept (R380). -/
def Si.unpower (s : Si) (now : Nat) : Si :=
  let live := s.powered && s.started
  { s with powered := false, started := false, cycled := true,
           brakes := s.brakes.map fun b => { b with spent := b.spent + (if live then now - b.runFrom else 0), runFrom := now, st := .idle },
           groups := s.groups.map fun _ => {}, outs := s.outs.map fun o => { o with on := false, test := none, edmAt := none } }

/-- The supply monitor trips (R358, R384): the safe state; the island starts again once the monitor has cycled (R357). -/
def Si.trip (s : Si) (now : Nat) : Si := { s with supplyTrip := true, monLow := true, cycled := true }.settle now
/-- The island's input from the ORed logic supply has been measured: the monitor trips below 5.0 V, falling, with 0.3 V hysteresis (R358). -/
def Si.supply (s : Si) (mv now : Nat) : Si :=
  if !s.powered then s
  else if mv < 5000 then (if s.monLow then s else s.trip now)
  else if 5300 ≤ mv then { s with monLow := false } else s

/-- The interval of R380 in phases. -/
def intervalPh (img : Nat) : Option Nat := (swInterval img).map fun h => phS (h * 3600)

/-- Powered time of brake `n` since its last pass. -/
def Si.spentAt (s : Si) (n now : Nat) : Nat := (at_ s.brakes n {}).spent + (if s.powered then now - (at_ s.brakes n {}).runFrom else 0)

/-- The island starts (R365, R385): image verified, switches and expected image read; the safe state holds. Only
`FAILED_LATCH` and the intervals are kept (R380). -/
def Si.start (s : Si) (img : Nat) (imageOk : Bool) (expected : Option Nat) (now : Nat) : Si :=
  let n : Si := {}
  let kept := s.brakes.map fun b =>
    { ({} : Brake) with failedLatch := b.failedLatch, due := b.due, overdue := b.overdue,
                        spent := b.spent + (if s.powered && s.started then now - b.runFrom else 0), runFrom := now }
  let mism := expected ≠ some img
  { n with
    started := imageOk, powered := true, cycled := false, startAt := now, img := if imageOk then img else 0, swRead := img,
    expected := expected, imageBad := !imageOk,
    swInvalid := imageOk && swInvalidImg img, swMismatch := imageOk && mism, mismatchAtStart := imageOk && mism,
    pairs := List.replicate 9 { openA := now, openB := now },
    brakes := kept, lastRead := now, faults := s.faults, eventCount := s.eventCount, events := s.events,
    rep := s.rep, repAt := s.repAt, statusValid := s.statusValid, reportDue := s.reportDue }.settle now

/-- A read of the expected image (R364, R365): a mismatch bars new energising, equality clears it. -/
def Si.reread (s : Si) (expected : Option Nat) (now : Nat) : Si :=
  if !s.started then s
  else
    let mism := expected ≠ some s.img
    { s with expected := expected, swMismatch := mism, mismatchAtStart := s.mismatchAtStart && mism,
             lastRead := now }.settle now

/-- The state code of the island (R388). -/
def Si.stateCode (s : Si) : Nat :=
  if s.faultC then 3 else if !s.started then 0 else if s.faultS then 4 else if s.groups.any (·.on) then 2 else 1

/-- `RESTART_WAIT` (R388): with manual restart. -/
def Si.restartWait (s : Si) : Bool :=
  !swAuto s.img && (List.range 2).any fun g => s.groupReady g && !(at_ s.groups g {}).on

/-- `BT_STAT` of brake `n` (R390). -/
def Si.btStat (s : Si) (n now : Nat) : Nat :=
  let b := at_ s.brakes n {}
  let st := match b.st with
    | .idle => 0 | .checking => 1 | .granted => 2 | .running => 3 | .pass => 4 | .fail => 5 | .aborted => 6
  let hours := match intervalPh s.img with
    | none => 0xFFFF
    | some i => if b.due then 0 else ceilDiv (i - s.spentAt n now) (phS 3600)
  st + 8 * b.cause + 128 * b2n b.due + 256 * b2n b.overdue + 512 * b2n b.failedLatch + 65536 * hours

/-- The report of R360 with the objects of R387 to R390. -/
def Si.report (s : Si) (now : Nat) : SiReport :=
  let f := swFilterUs s.img
  { state := s.stateCode + 16 * b2n s.swMismatch + 32 * b2n s.swInvalid + 64 * b2n s.swChanged
      + 128 * b2n (s.started && s.expected.isNone) + 256 * b2n s.restartWait + 512 * b2n s.resetHeld
      + 1024 * b2n s.ufsLow + 2048 * b2n s.ubLow + 4096 * b2n (at_ s.pairs 8 {}).demand
      + 8192 * b2n (at_ s.outs 6 {}).on + 65536 * swFunc s.img + 2 ^ 20 * bitsOf s.img 4 2
      + 2 ^ 22 * b2n (swAuto s.img) + 2 ^ 23 * b2n (swEdm s.img)
    swActual := s.swRead, swExpected := s.expected.getD 0, reactSo := f + 1000, reactSbc := f + 1400
    faultCode := (s.faults.headD (0, 0)).1, demands := s.demands % 2 ^ 32, up := (now - s.startAt) / phS 1
    inStat := (enumFrom 0 s.pairs).map fun (i, p) => packBits [p.a, p.b, p.demand, p.disc, p.tpFail,
      decide (i < 8) && p.demand && p.a && p.b && !(p.passA && p.passB)]
    outStat := (enumFrom 0 s.outs).map fun (i, o) =>
      packBits [o.on, o.hsFault, o.lsFault, o.shortExt, o.cross, o.edmFault, o.vmonFault,
                (i == 4 || i == 5) && s.locked (i - 4)] + 256 * o.abandoned.toNat
    edm := s.edm % 256, btStat := [s.btStat 0 now, s.btStat 1 now], senc := unsigned 32 s.senc, lastSlip := s.lastSlip
    faultCS := s.faultC || s.faultS }

end Sys2Proof.Machine
end

