-- ==== Sys2Proof/Machine/Blocks.lean ====
section
/-! DEFINITION. One execution of a task's block net: reading and writing signals, and the types of R105 that meet the rest of
the module (03_block_programs.md). -/

namespace Sys2Proof.Machine

/-! Timed outputs armed by blocks and messages. -/

/-- An edge of a unit reaches the channel or the `SYNC` output that its route names (R298, R299); a `SYNC` output is low without ACT (R28). -/
def Mod.touEdge (m : Mod) (u : Nat) (c : TouCfg) : Mod :=
  let level := (at_ m.tous u {}).level
  if c.route < 32 then m.updDio c.route fun h => h.command level ((at_ m.tous u {}).edgeAt.getD m.mono)
  else if c.route = 0x20 ∨ c.route = 0x21 then
    { m with tb := { m.tb with sync := upd m.tb.sync (c.route - 0x20) fun _ => m.act && level } }
  else m
/-- A unit is armed at a DTIME target (R290, R292). -/
def Mod.armTou (m : Mod) (u : Nat) (t : BitVec 96) (p late lock : Nat) (byBlock : Bool) : Mod × CmpCode :=
  match m.touCfg u with
  | none => (m, .noUnit)
  | some c =>
    let go (s : Option (BitVec 64)) : Mod × CmpCode :=
      let r := (at_ m.tous u {}).arm c s p late lock m.ptp.quality (m.touNow c) m.mono byBlock
      let m1 := m.updTou u fun _ => r.1
      (if r.2.2 then m1.touEdge u c else m1, r.2.1)
    match checkTarget t m.dt with
    | .horizon => (m, .horizon)
    | .past => go none
    | .short s => go (some s)

/-! The run of a net. -/

/-- A net being executed for one cycle of a task: the module, the task, the net with its cells and data, the release instant,
the output image so far, and the tasks that `TASK_TRIG` blocks release. `sent` is the release from which `ACT_AT` takes its targets: in a
cycle that may repeat a lost one, that of the lost cycle (R123). -/
structure Run where
  m : Mod
  t : Nat
  net : Net
  st : NetSt
  rel : BitVec 96
  sent : BitVec 96 := rel
  out : List OutItem := []
  trig : List Nat := []
  deriving DecidableEq, Repr

/-- The cell of a signal as the task reads it (R91). -/
def Run.cell (r : Run) (s : Nat) : Cell :=
  let w := (at_ r.net.sigs s { stype := 3 }).writer
  if w = r.t ∨ w = 16 then at_ r.st.cells s {} else at_ r.st.pub s {}
/-- An input port (R91, R95). -/
def Run.input (r : Run) (b : Bind) : In :=
  let c := match b.sig with | some s => r.cell s | none => { v := 0, q := qGood }
  { v := if b.neg then ofBool (!vBool c.v) else c.v, q := c.q, conn := b.sig.isSome }
/-- The inputs with the rule of (P) ports (R87): the last usable value or the parameter block's while the input is `BAD`;
`k` counts the (P) ports, `last` are their last usable values; the mark tells that a last usable value is in use (R100). -/
def paramPorts (ps : List (BitVec 32)) : Nat → List (PortT × Bool) → List In → List (Option (BitVec 32)) →
    List In × List (Option (BitVec 32)) × Bool
  | k, (_, true) :: pt, i :: it, last =>
    let word := at_ ps k 0
    let held := at_ last k none
    let bad := i.conn && qIsBad i.q
    let use : In := if !i.conn then { v := word.setWidth 96, q := qGood, conn := false }
      else if bad then { v := (held.getD word).setWidth 96, q := qUnc 1, conn := true, held := true } else i
    let now := if i.conn && !bad then some (i.v.setWidth 32) else held
    let rest := paramPorts ps (k + 1) pt it last
    (use :: rest.1, now :: rest.2.1, (bad && held.isSome) || rest.2.2)
  | k, (_, false) :: pt, i :: it, last =>
    let rest := paramPorts ps k pt it last
    (i :: rest.1, rest.2.1, rest.2.2)
  | _, _, is, _ => (is, [], false)
/-- An output is written to its signal (R83, R89, R95): without a value the cell keeps the value it held. -/
def Run.output (r : Run) (b : Bind) (o : Outp) : Run :=
  match b.sig with
  | none => r
  | some s =>
    let ty := (at_ r.net.sigs s { stype := 3 }).stype
    { r with st := { r.st with cells := upd r.st.cells s fun c =>
        { v := match o.v with | some v => cutTo ty v | none => c.v, q := o.q } } }
/-- The outputs of an instance in binding order. -/
def Run.outputs (r : Run) : List Bind → List Outp → Run
  | b :: bs, o :: os => Run.outputs (r.output b o) bs os
  | _, _ => r
/-- Δ of an instance in phases (R107). -/
def Run.delta (r : Run) (d : InstData) : Nat :=
  let c := r.m.taskCfg r.t
  if !d.ran then 0
  else if c.kind = 1 ∧ !d.moved then (((r.m.task r.t).releases.toNat + 2 ^ 32 - d.relAt) % 2 ^ 32) * c.period * phUs 125
  else r.m.mono - d.monoAt

/-! Types that meet the module. -/

/-- Parameter `i` of an instance. -/
def InstCfg.par (x : InstCfg) (i : Nat) : Nat := (pw x.params i).toNat
/-- The outputs all carry one quality and keep their values. -/
def keepAll (n : Nat) (q : BitVec 8) : List Outp := List.replicate n ⟨none, q⟩

/-- `LOOPTERM` (R209 to R213). -/
def Run.loopterm (r : Run) (x : InstCfg) (ins : List In) (d : InstData) : Run × List Outp × InstData :=
  let n := x.par 0
  let en0 := match r.m.ce.loopCfg n with | some c => c.enInit | none => false
  let last (k : Nat) (dflt : BitVec 32) : BitVec 32 := if d.st = [] then dflt else at_ d.st k dflt
  let take (k : Nat) (dflt : BitVec 32) : BitVec 32 :=
    let i := inAt ins k
    if i.conn && qIsBad i.q then last k dflt else i.v.setWidth 32
  let bad (k : Nat) : Bool := (inAt ins k).conn && qIsBad (inAt ins k).q
  let sp := take 0 0
  let ff := take 1 0
  let mode := take 2 0
  let en := take 3 (if en0 then 1 else 0)
  let tq : BitVec 2 := BitVec.ofNat 2 (b2n (bad 0) + 2 * b2n (bad 1))
  let item := OutItem.term n (sp.setWidth 16) (ff.setWidth 16) (mode.setWidth 16) (vBool (en.setWidth 96)) tq
  let d1 := { d with st := [sp, ff, mode, en] }
  let r1 := { r with out := r.out ++ [item] }
  let ls := r.m.ce.loopSt n
  match ls.up with
  | none => (r1, keepAll 4 (qBad 2), d1)
  | some u =>
    if !r.m.act then (r1, keepAll 4 (qBad 2), d1)
    else
      let f := ls.delivered u
      let fl (i : Nat) : Bool := f.getLsbD i
      let qv := if fl 3 then qBad 4 else qGood
      let qo := if fl 3 then qBad 4 else if fl 0 || fl 2 then qWithLimit qGood (if u.out.toInt < 0 then 1 else 2) else qGood
      ({ r1 with m := { r1.m with ce := r1.m.ce.latchUp n } },
       [outV (ofInt 5 u.pv.toInt) qv, outV (ofInt 5 u.out.toInt) qo, outV (ofInt 2 u.modeAct) qGood,
        outV (ofInt 2 f.toInt) qGood], d1)

/-- `DI_IN` (R457, R458). -/
def Run.diIn (r : Run) (ch : Nat) : List Outp :=
  let h := r.m.dioCh ch
  let q := match h.inQuality (r.m.dio.supplied ch) with | 0 => qBad 2 | 1 => qUnc 1 | 2 => qUnc 0 | _ => qGood
  [outB h.level q, outV h.ts qGood]
/-- `DO_OUT`: readback and diagnosis (R462). -/
def Run.doOut (r : Run) (ch : Nat) : List Outp :=
  let h := r.m.dioCh ch
  let g := h.diag (r.m.dioCfg ch) (r.m.dio.supplied ch) r.m.act
  let q := if g = 7 then qBad 2 else if g = 3 ∨ g = 2 ∨ g = 6 ∨ g = 5 then qBad 3 else if g = 1 ∨ g = 4 then qUnc 0
    else if g = 10 ∨ g = 11 then qUnc 2 else qGood
  [outB h.level q, outV (ofInt 2 g) qGood]
/-- The quality byte of a conversion's code and `LIMIT` (R480); before the first conversion the channel counts as not connected. -/
def AiCh.quality (h : AiCh) : BitVec 8 :=
  if !h.done then qBad 2
  else qWithLimit (match h.qual with | 0 => qGood | 1 => qBad 2 | 2 => qBad 3 | 3 => qBad 4 | _ => qUnc 4) h.limit
/-- `AI_IN` (R480). -/
def Run.aiIn (r : Run) (ch : Nat) : List Outp := [outR (r.m.aiCh ch).mA (r.m.aiCh ch).quality]
/-- `AO_OUT`: readback (R485). -/
def Run.aoOut (r : Run) (ch : Nat) : List Outp :=
  let h := r.m.aoCh ch
  [outR h.rb (match h.rbQuality r.m.an.shed with | 1 => qBad 2 | 2 => qBad 3 | 3 => qBad 7 | 4 => qUnc 2 | _ => qGood)]
/-- `CNT_IN` (R133, R467, R470 to R472): count less the offset, and rate, as the last 10 µs sample found them. -/
def Run.cntIn (r : Run) (x : InstCfg) (ins : List In) (d : InstData) : List Outp × InstData :=
  let ch := x.par 1
  let e := at_ r.m.dio.enc ch {}
  let p := (at_ r.m.dio.pi ch {}).settle (r.m.piCfg ch) r.m.mono
  let enc := x.par 0 = 1
  let cnt : Int := if enc then (e.countAt r.m.mono).toNat else (p.countAt r.m.mono).toNat
  let q := if enc then (match e.quality r.m.dio.encSupFault with | 0 => qBad 4 | 1 => qUnc 1 | _ => qGood) else qGood
  let qr := if enc then q else if p.overRange then qUnc 4 else qGood
  let off := if inB ins 0 then cnt else d.off
  ([outV (ofInt 3 (cnt - off)) (qDerive (qualsOf ins ++ [q])),
    outR (if enc then e.vel (r.m.encCfg ch) r.m.mono else p.f) qr], { d with off := off })

/-- Bytes of a type in a remote point. -/
def tyBytes (ty : Nat) : Nat := tyWidth ty / 8
/-- `RIO_IN` (R134, R410, R411): a value as the locking task's release latched it. -/
def Run.rioIn (r : Run) (x : InstCfg) : List Outp :=
  let n := r.m.eth.node (x.par 0)
  if n.refuse ≠ 0 then keepAll 1 (qBad 1)
  else if !n.latOk then keepAll 1 (qBad 2)
  else
    let v : SigVal := cutTo (x.par 2) (BitVec.ofNat 96 (field n.latIn (x.par 1) (tyBytes (x.par 2))))
    [outV v (if n.latStat.getLsbD 4 || n.latStat.getLsbD 5 then qBad 3 else qGood)]
/-- `CAN_RX` (R433, R436): the object as latched; the marks of the next latch clear. -/
def Run.canRx (r : Run) (x : InstCfg) : Run × List Outp :=
  let c := x.par 0
  let o := x.par 1
  let cfg := r.m.canCfg c
  let rx := at_ (r.m.can c).rx o {}
  let fs := match cfg.rx[o]? with | some e => e.fields | none => []
  let vs := tabulate 8 fun k => match fs[k]? with
    | none => outV 0 (if rx.stored && !rx.timeout then qGood else qBad 2)
    | some f =>
      if !rx.stored || rx.timeout then ⟨none, qBad 2⟩
      else if f.within rx.data.length then outV (ofInt 3 (f.get rx.data).toInt) qGood else ⟨none, qBad 1⟩
  ({ r with m := r.m.updCan c fun k => { k with rx := upd k.rx o fun w => { w with fresh := false, lost := false } } },
   vs ++ [outB rx.fresh qGood, outB rx.lost qGood])
/-- `CAN_TX` (R437, R440): a rising edge puts a request into the output image; an outcome is reported once. The data hold the
request that shows no outcome, with its values and the release of its cycle in ticks (R446). -/
def Run.canTx (r : Run) (x : InstCfg) (ins : List In) (d : InstData) : Run × List Outp × InstData :=
  let c := x.par 0
  let o := x.par 1
  let e := riseEdge (inAt ins 0) d
  let w := at_ (r.m.can c).tx o {}
  let res := w.outcome
  let vals := tabulate 8 fun k => (inAt ins (k + 1)).v.setWidth 32
  let r1 := { r with m := r.m.updCan c fun k => { k with tx := upd k.tx o fun w => { w with outcome := none } },
                     out := if e.1 then r.out ++ [.can c o vals] else r.out }
  let st : BitVec 16 := match res with | some k => BitVec.ofNat 16 k | none => d.status
  (r1, [outB (res == some 0) (qOf (ins.take 1)), outV (ofInt 2 st.toInt) (qOf (ins.take 1))], 
   { e.2 with status := st, timing := e.1 || (if res.isSome then decide (w.st ≠ 0) else d.timing),
              st := if e.1 then vals else d.st, off := if e.1 then (dtTicks r.rel : Int) else d.off })
/-- `BRAKE_TEST` (R378, R390): from the island's last report. -/
def Run.brakeTest (r : Run) (x : InstCfg) (ins : List In) : Run × List Outp :=
  let n := x.par 0
  let w := at_ r.m.si.rep.btStat n 0
  let st := w % 8
  let q := if r.m.si.statusValid then qGood else qBad 2
  let qi := qDerive (qualsOf ins ++ [q])
  ({ r with out := r.out ++ [.btReq n (inB ins 0)] },
   [outB (st == 2 || st == 3) qi, outB (st == 4 && inB ins 0) qi, outB (st == 5 && inB ins 0) qi,
    outV (ofInt 2 ((w % 65536 : Nat) : Int)) qi])
/-- `ALM_STAT` of a point, or of a first-out group where bit 16 of its parameter is set (R270; log entry 8). -/
def Run.almStat (r : Run) (x : InstCfg) : List Outp :=
  let n := x.par 0 % 65536
  let four (s : Nat) (a u f : Bool) : List Outp := [outV (ofInt 2 s) qGood, outB a qGood, outB u qGood, outB f qGood]
  if x.par 0 / 65536 % 2 = 1 then
    match indexOf? (fun g : FoCfg => g.gnum == n) r.m.ae.cfg.fgrps with
    | some i =>
      let g := at_ r.m.ae.fos i {}
      four g.state (g.state == 2) false (g.state == 2 && (match g.winner with
        | some w => w.node == r.m.cfg.ident.node && (r.m.ae.cfg.points.any fun p => p.pid == w.pid) | none => false))
    | none => four 0 false false false
  else
    match indexOf? (fun p : PtCfg => p.pnum == n) r.m.ae.cfg.points with
    | some i =>
      let p := at_ r.m.ae.pts i {}
      let s := p.state
      four s p.a (s == 1 || s == 3) p.first
    | none => four 0 false false false
/-- `ACT_AT` (R121 to R123); a T that is no DTIME sends nothing and shows as bad quality (R125, R275), with substatus 0, the last STATUS and
its edge consumed (DESIGN CHOICE, log entry 147). -/
def Run.actAt (r : Run) (x : InstCfg) (ins : List In) (d : InstData) : Run × List Outp × InstData :=
  let e := riseEdge (inAt ins 0) d
  let tIn := inAt ins 1
  let target : BitVec 96 := if tIn.conn then tIn.v
    else dtOfTicks (((dtTicks r.sent : Int) + vInt 6 (inAt ins 2).v * (1000000 * 65536)).toNat)
  let wrong := tIn.conn && !dtValid tIn.v
  let code : Nat := if !r.m.act then 1
    else if r.m.actAtBusy x.iid.toNat then 2
    else if checkTarget target r.m.dt = .horizon then 3
    else if x.par 2 ≠ 0 ∧ r.m.ptp.quality ≠ .locked then 4
    else 0
  let q := if wrong then qBad 0 else qOf ins
  if !e.1 ∨ wrong then (r, [outB false q, outV (ofInt 2 d.status.toInt) q], e.2)
  else
    let d1 := { e.2 with status := BitVec.ofNat 16 code }
    if code = 0 then
      let msg := actMsgBytes r.m.cfg.cred.actkey
        { ver := 1, senderLocked := r.m.ptp.quality == .locked, src := r.m.cfg.ident.node, dest := x.par 0 % 65536,
          action := x.par 1 % 65536, iid := x.iid.toNat, seq := d.seq.toNat, t := target }
      ({ r with m := r.m.stationMsg 1 msg }, [outB true q, outV 0 q], { d1 with seq := d.seq + 1 })
    else (r, [outB false q, outV (ofInt 2 code) q], d1)
/-- `TOU_ARM` (R124), whose STATUS keeps the code of the last arming; a T that is no DTIME arms nothing and shows as bad quality (R125, R275),
with substatus 0, the last STATUS and its edge consumed (DESIGN CHOICE, log entry 147). -/
def Run.touArm (r : Run) (x : InstCfg) (ins : List In) (d : InstData) : Run × List Outp × InstData :=
  let e := riseEdge (inAt ins 0) d
  if (inAt ins 1).conn && !dtValid (inAt ins 1).v then
    (r, [outV (ofInt 2 d.status.toInt) (qBad 0)], e.2)
  else if e.1 then
    let a := r.m.armTou (x.par 0) (inAt ins 1).v (x.par 1) (x.par 2) (x.par 3) true
    ({ r with m := a.1 }, [outV (ofInt 2 a.2.code) (qOf ins)], { e.2 with status := BitVec.ofNat 16 a.2.code })
  else (r, [outV (ofInt 2 d.status.toInt) (qOf ins)], e.2)

/-- The period of a task in ms, rounded to the nearest, at least 1 (R118). -/
def periodMs (ticks : Nat) : Nat := Nat.max 1 ((2 * ticks + 8) / 16)
/-- The load in % of the core pair that executes task `t`: the execution times of the cycles that have finished on it within the last
second (R118; log entry 110). -/
def Mod.coreLoad (m : Mod) (t : Nat) : Real32 :=
  let core (k : Nat) : Nat := match m.plan.plan with | some p => at_ p.core k 255 | none => 255
  let ns (k : Nat) : Nat := (((m.task k).spans.filter fun e => decide (m.mono < e.1 + phS 1)).map (·.2)).sum
  fOfRat (((List.range 16).filter fun k => core k == core t).map ns).sum 10000000
/-- `SYSVAR` (R118). -/
def Run.sysvar (r : Run) (sel : Nat) : Run × List Outp :=
  let m := r.m
  let c := m.taskCfg r.t
  let t := m.task r.t
  let int (ty : Nat) (i : Int) : Run × List Outp := (r, [outV (ofInt ty i) qGood])
  match sel with
  | 0 => if c.kind = 1 then (r, [outV (ofInt 6 (periodMs c.period)) (if c.period % 8 = 0 then qGood else qUnc 0)])
         else (r, [outV 0 qGood])
  | 1 => (r, [outV r.rel qGood])
  | 2 => if c.kind = 3 then (r, [outV 0 (qBad 0)]) else (r, [outV (dtOfTicks (dtTicks r.rel + c.oofs * 1000 * 65536)) qGood])
  | 3 => int 3 t.releases.toInt
  | 4 => (r, [outB t.firstScan qGood])
  | 5 => int 2 (b2n m.boot.warm)
  | 6 => (r, [outB t.onlineChanged qGood])
  | 7 => (r, [outB m.act qGood])
  | 8 => int 2 m.tan.role.code
  | 9 => int 2 m.tq
  | 10 => (r, [outV (ofInt 2 m.ptp.utc) (if m.ptp.utcValid then qGood else qUnc 0)])
  | 11 => int 3 t.overruns.toInt
  | 12 => int 3 m.cfg.version
  | 13 => int 2 m.cfg.ident.node
  | 14 => int 2 (b2n m.tan.slotB)
  | 15 => int 2 m.tan.hl.score
  | 16 => match m.tan.bell with
    | some b => if m.tan.partnerPresent m.mono then int 2 b.score else (r, [⟨none, qBad 2⟩])
    | none => (r, [⟨none, qBad 2⟩])
  | _ => (r, [outR (m.coreLoad r.t) qGood])
/-- `PMC_READ` (R120): from the most recent snapshot. -/
def Run.pmcRead (r : Run) (x : InstCfg) : List Outp :=
  let n := x.par 0
  let p := r.m.pmc
  let sel := at_ p.sel n 0
  let q := if selEvent sel = 0 ∧ !selChain sel then qUnc 0 else qGood
  let val (k : Nat) : SigVal := (at_ p.snap k 0).setWidth 96
  [outV (val n) q, outV (if x.par 1 ≠ 0 then val (n + 1) else 0) q]
/-- `EVENT_LOG` (R105). -/
def Run.eventLog (r : Run) (x : InstCfg) (ins : List In) (d : InstData) : Run × List Outp × InstData :=
  let e := riseEdge (inAt ins 0) d
  let payload := ((tabulate 6 fun k => natLe 4 (inAt ins (k + 1)).v.toNat)).flatten
  (if e.1 then { r with m := r.m.log 2 (x.par 1 % 8) (x.par 0 % 65536) x.iid.toNat payload } else r,
   [outB e.1 (qOf (ins.take 1))], e.2)
/-- An `EVENT` task can be released now: running tasks have their release skipped, `MININT` must have passed (R136). -/
def Mod.eventReady (m : Mod) (t : Nat) : Bool :=
  let c := m.taskCfg t
  let k := m.task t
  c.kind == 2 && !k.halted && (match k.lastMono with | some a => decide (a + phUs c.minint ≤ m.mono) | none => true)
/-- `TASK_TRIG` (R105, R136): an edge that releases nothing, for a release that is pending or for `MININT`, adds to MISSED. The row gives
the type's second parameter, `EVENT` kind, no effect: it is read and ignored (log entry 139). -/
def Run.taskTrig (r : Run) (x : InstCfg) (ins : List In) (d : InstData) : Run × List Outp × InstData :=
  let e := riseEdge (inAt ins 0) d
  let t := x.par 0
  let ok := r.m.eventReady t && !(r.m.task t).asked
  let miss := e.1 && !ok
  let d1 := { e.2 with off := if miss then d.off + 1 else d.off }
  ({ r with trig := if e.1 && ok then r.trig ++ [t] else r.trig,
            m := if miss then r.m.updTask t fun k => { k with missed := k.missed + 1 }
              else if e.1 then r.m.updTask t fun k => { k with asked := true } else r.m },
   [outV (ofInt 3 d1.off) (qOf ins)], d1)

/-- The types that meet the module (R105). -/
def Run.ioEval (r : Run) (x : InstCfg) (ins : List In) (d : InstData) : Run × List Outp × InstData :=
  let put (i : OutItem) : Run := { r with out := r.out ++ [i] }
  match x.type with
  | 0x0071 => r.loopterm x ins d
  | 0x0080 => (r, r.diIn (x.par 0), d)
  | 0x0081 => (put (.dio (x.par 0) (inB ins 0)), r.doOut (x.par 0), d)
  | 0x0082 => (r, r.aiIn (x.par 0), d)
  | 0x0083 => (put (.ao (x.par 0) (inR ins 0)), r.aoOut (x.par 0), d)
  | 0x0084 => let p := r.cntIn x ins d; (r, p.1, p.2)
  | 0x0086 => (r, r.rioIn x, d)
  | 0x0087 => (put (.rio (x.par 0) (x.par 1) (natLe (tyBytes (x.par 2)) (inAt ins 0).v.toNat)), [], d)
  | 0x0088 => let p := r.canRx x; (p.1, p.2, d)
  | 0x0089 => r.canTx x ins d
  | 0x008B => let p := r.brakeTest x ins; (p.1, p.2, d)
  | 0x0090 => (r, [], { d with
      st := [(inAt ins 0).v.setWidth 32], status := (inAt ins 0).q.setWidth 16, et := r.delta d,
      off := (dtTicks r.rel : Int) })
  | 0x0091 => (r, r.almStat x, d)
  | 0x00A0 => (r, [outV r.rel (if r.m.ptp.quality = .locked then qGood else qUnc 5)], d)
  | 0x00A2 => r.actAt x ins d
  | 0x00A3 => r.touArm x ins d
  | 0x00B0 => let p := r.sysvar (x.par 0); (p.1, p.2, d)
  | 0x00B1 => (r, r.pmcRead x, d)
  | 0x00B2 => r.eventLog x ins d
  | 0x00B3 => r.taskTrig x ins d
  | _ => (r, [], d)

/-- One instance executes (R87, R95, R105, R107). -/
def Run.inst (r : Run) (i : Nat) : Run :=
  match r.net.insts[i]?, libRow (at_ r.net.insts i { iid := 0, type := 0 }).type with
  | some x, some row =>
    let d := at_ r.st.data i {}
    let n := x.binds.length - row.outs.length
    let raw := (x.binds.take n).map r.input
    let pp := paramPorts x.params 0 (row.inPorts n) raw d.lastP
    let d0 := { d with lastP := pp.2.1, paramLast := pp.2.2 }
    let dt := r.delta d
    let done (k : Run) (os : List Outp) (e : InstData) : Run :=
      let e1 := { e with ran := true, moved := false, relAt := (k.m.task k.t).releases.toNat, monoAt := k.m.mono, initDone := true }
      ({ k with st := { k.st with data := put k.st.data i e1 } }).outputs (x.binds.drop n) os
    match libEval x.type x.tver x.poly r.net.fcode x.params dt (!d.initDone) pp.1 d0 with
    | some p => done r p.1 p.2
    | none =>
      let p := r.ioEval x pp.1 d0
      done p.1 p.2.1 p.2.2
  | _, _ => r

/-- A cycle of task `t` executes the invocation list of a net (R97): the module after it, the cells and data, the output image
and the tasks to release. -/
def Mod.runNet (m : Mod) (net : Net) (st : NetSt) (t : Nat) (rel : BitVec 96) : Run :=
  (at_ net.lists t []).foldl Run.inst { m := m, t := t, net := net, st := st, rel := rel, sent := (m.task t).repeatOf.getD rel }

end Sys2Proof.Machine
end

