-- ==== Sys2Proof/Machine/AlarmGlue.lean ====
section
/-! DEFINITION. The alarm engine against the rest of the module: sources, evaluation, first-out groups and their messages
(08_alarm_engine.md R249 to R269). -/

namespace Sys2Proof.Machine

/-- A signal as a reader released now sees it (R91, R250). -/
def Mod.sigCell (m : Mod) (s : Nat) : Cell :=
  if (at_ m.cfg.net.sigs s { stype := 3 }).writer = 16 then at_ m.net.cells s {} else at_ m.net.pub s {}
/-- A cell as a source: its value as BOOL, and as REAL32 as `CONV` converts (R249). -/
def cellSrc (ty : Nat) (c : Cell) : ASrc :=
  { b := vBool c.v, r := match (convValue ty 4 c.v c.q).v with | some v => vReal v | none => vReal c.v, q := c.q }
/-- The data of the `ALM_IN` instance of a point, with its task. -/
def Mod.almIn (m : Mod) (pnum : Nat) : Option (InstData × InstCfg) :=
  (indexOf? (fun x : InstCfg => x.type == 0x0090 && x.par 0 == pnum) m.cfg.net.insts).map fun i =>
    (at_ m.net.data i {}, at_ m.cfg.net.insts i { iid := 0, type := 0 })
/-- The source of a point as latched at its evaluation (R249, R250). -/
def Mod.aeSource (m : Mod) (d : PtCfg) : ASrc :=
  match d.srckind with
  | 0 => match m.almIn d.pnum with
    | some (i, x) =>
      let v : SigVal := (at_ i.st 0 0).setWidth 96
      let ty := match x.binds.head? with | some b => (match b.sig with | some s => (at_ m.cfg.net.sigs s { stype := 4 }).stype | none => 1) | none => 1
      { cellSrc ty { v := v, q := i.status.setWidth 8 } with ts := some (dtOfTicks i.off.toNat) }
    | none => {}
  | 1 => cellSrc (at_ m.cfg.net.sigs d.src { stype := 3 }).stype (m.sigCell d.src)
  | 2 =>
    let h := m.dioCh d.src
    let q := match h.inQuality (m.dio.supplied d.src) with | 0 => qBad 2 | 1 => qUnc 1 | 2 => qUnc 0 | _ => qGood
    { b := h.level, r := if h.level then fOne else 0, q := q, ts := some h.ts }
  | _ => let h := m.aiCh d.src; { b := false, r := h.mA, q := h.quality }
/-- The setpoint signal of a deviation point (R252). -/
def Mod.aeSetpoint (m : Mod) (d : PtCfg) : ASrc :=
  if d.ptype = 2 then cellSrc (at_ m.cfg.net.sigs d.aux { stype := 3 }).stype (m.sigCell d.aux) else {}

/-! First-out groups. -/

/-- The position of a group number. -/
def Mod.foIndex (m : Mod) (gnum : Nat) : Option Nat := indexOf? (fun g : FoCfg => g.gnum == gnum) m.ae.cfg.fgrps
/-- This module's node is the arbiter of a group (R266). -/
def Mod.foArbiter (m : Mod) (i : Nat) : Bool := ((at_ m.ae.cfg.fgrps i { gnum := 0 }).part.head?) == some m.cfg.ident.node
/-- A group changed. -/
def Mod.updFo (m : Mod) (i : Nat) (f : Fo → Fo) : Mod := { m with ae := { m.ae with fos := upd m.ae.fos i f } }
/-- The stamp granularity of a point in ns (R253). -/
def Mod.stampNs (m : Mod) (d : PtCfg) : Nat :=
  if d.srckind = 2 then 10000
  else if d.srckind = 0 then (match m.almIn d.pnum with
    | some (_, x) => let c := m.taskCfg x.task; if c.kind = 1 then c.period * 125000 else c.minint * 1000
    | none => 0)
  else 1000000
/-- The alignment of the module's device time in ns; none unbounded (R268). -/
def Mod.alignNs (m : Mod) : Option Nat :=
  m.ptp.estError (match m.cfg.netc.ptp with | some c => c.holdDrift | none => 50) m.mono
/-- The time at an evaluation now. -/
def Mod.atTime (m : Mod) : AtTime := { now := m.dt, tq := m.tq, al := m.alignNs }
/-- A raise of a member competes in its group (R267), with the alignment at its onset (R268). -/
def Mod.foOffer (m : Mod) (d : PtCfg) (p : Pt) : Mod :=
  match m.foIndex d.fgroup with
  | none => m
  | some i =>
    let g := at_ m.ae.fos i {}
    let k : Cand := { node := m.cfg.ident.node, pid := d.pid, pnum := d.pnum, tc := dtTicks p.onset, sgran := m.stampNs d,
                      align := p.cAl }
    let r := g.offerOwn k (m.foArbiter i) (at_ m.ae.cfg.fgrps i { gnum := 0 }).settle m.mono
    let m1 := m.updFo i fun _ => r.1
    if r.2 then m1.stationMsg 2 (foCandidateBytes d.fgroup g.epoch k) else m1
/-- A reset of a group at this module (R267): the arbiter raises the epoch, sends `FO_RESET` and arms; a participant sends the
reset to the arbiter under the epoch it knows. -/
def Mod.foReset (m : Mod) (i : Nat) : Mod :=
  let g := at_ m.ae.fos i {}
  let gnum := (at_ m.ae.cfg.fgrps i { gnum := 0 }).gnum
  if m.foArbiter i then (m.updFo i fun g => g.arm (g.epoch + 1)).stationMsg 2 (foResetBytes gnum (g.epoch + 1))
  else m.stationMsg 2 (foResetBytes gnum g.epoch)
/-- The points of a group take a decision's marks, and the winner its record (R267, R272); no record comes before `RESYNC` (R260). -/
def Mod.foMarks (m : Mod) (gnum : Nat) (winner : Nat × BitVec 32) (sim : List (Nat × BitVec 32)) : Mod :=
  let node := m.cfg.ident.node
  let mark (d : PtCfg) (p : Pt) : Pt :=
    if d.fgroup = gnum then
      { p with first := winner == (node, d.pid), simul := sim.contains (node, d.pid) || (!sim.isEmpty && winner == (node, d.pid)) }
    else p
  let pts := (m.ae.cfg.points.zip m.ae.pts).map fun e => mark e.1 e.2
  let items := (m.ae.cfg.points.zip pts).filterMap fun e =>
    if e.1.fgroup = gnum ∧ winner = (node, e.1.pid) then
      some ({ prio := e.1.prio, cause := 11, tev := m.dt, d := e.1, p := e.2, tq := some m.tq } : PubItem)
    else none
  let moved := ((m.ae.cfg.points.filter fun d => d.fgroup == gnum && d.srckind == 0)).map (·.pnum)
  let ae := { m.ae with pts := pts, late := m.ae.late ++ moved }
  m.setAe (if !m.act then ae else if ae.resync then { ae with due := ae.due ++ items } else ae.publish items m.tq)
/-- The arbiter's, or a participant's own, decision of a group (R267, R268); the mark tells that one was made. -/
def Mod.foDecide (m : Mod) (i : Nat) (partial_ : Bool) : Mod × Bool :=
  let g := at_ m.ae.fos i {}
  let gnum := (at_ m.ae.cfg.fgrps i { gnum := 0 }).gnum
  match decideFo (if partial_ then g.own else g.cands) with
  | none => (m, false)
  | some d =>
    let m1 := (m.updFo i fun g => g.decide d partial_).foMarks gnum (d.winner.node, d.winner.pid)
      (d.sim.map fun k => (k.node, k.pid))
    (if partial_ then m1 else m1.stationMsg 2 (foDecidedBytes gnum g.epoch d false), true)

/-! Evaluation. -/

/-- The outcome of an acknowledgement (R254, R257). -/
def Pt.ackCode (p : Pt) (occ : BitVec 16) : Nat :=
  if p.hidden then stHidden else if p.vis ≠ 1 ∧ p.vis ≠ 3 then stNotPending else if p.occ ≠ occ then stStale else stOk
/-- What a command makes of a point (R254, R255, R257, R579): its outcome, the point after it and the cause of the record. -/
def AlmCmd.outcome (c : AlmCmd) (occ : BitVec 16) (d : PtCfg) (p : Pt) (optime : Nat) : Nat × Pt × Nat :=
  match c.op with
  | 2 => (if !d.shelvable then stNotShelvable else if c.mins = 0 ∨ d.shlvmax < c.mins then stRange else stOk,
      { p with shelved := some (optime + c.mins * 60000) }, 4)
  | 3 => (if p.shelved.isSome then stOk else stCondition, ({ p with shelved := none }).unhide, 5)
  | 4 => (stOk, { p with oos := true }, 8)
  | 5 => (if p.oos then stOk else stCondition, ({ p with oos := false }).unhide, 9)
  | _ => (p.ackCode occ, p.ack, 3)
/-- A point and the commands that it has taken: their records, and the place, outcome and state of each. -/
structure PtCmds where
  p : Pt
  items : List PubItem := []
  res : List (Nat × Nat × Nat) := []
  deriving DecidableEq, Repr
/-- The command in place `k` is applied to a point; a record is due where its state has changed (R262, R579). -/
def PtCmds.take (r : PtCmds) (k : Nat) (c : AlmCmd) (occ : BitVec 16) (d : PtCfg) (optime : Nat) : PtCmds :=
  let o := c.outcome occ d r.p optime
  if o.1 ≠ stOk then { r with res := r.res ++ [(k, o.1, r.p.state)] }
  else
    { p := o.2.1, res := r.res ++ [(k, stOk, o.2.1.state)],
      items := if o.2.1.state = r.p.state then r.items
        else r.items ++ [{ prio := d.prio, cause := o.2.2, tev := c.accepted, d := d, p := o.2.1, tq := some c.tq, tag := some k }] }
/-- Step 1 of R251: the commands accepted for a point since its previous evaluation, in the order of acceptance. -/
def applyCmds (cmds : List AlmCmd) (d : PtCfg) (p : Pt) (optime : Nat) : PtCmds :=
  (enumFrom 0 cmds).foldl (fun r e => match e.2.left.find? fun x => x.1 == d.pid with
    | some x => r.take e.1 e.2 x.2 d optime
    | none => r) { p := p }
/-- A command after an evaluation: `res` what came of it at each point, `seq` its last record (R579). Acknowledging a group or all points
succeeds whatever its points answer. -/
def AlmCmd.took (c : AlmCmd) (res : List (BitVec 32 × Nat × Nat)) (seq : Option Nat) : AlmCmd :=
  { c with
    left := c.left.filter fun e => !res.any fun r => r.1 == e.1
    seq := seq.getD c.seq
    status := if 5 < c.op then c.status else (res.getLast?.map fun r => r.2.1).getD c.status
    state := if 5 < c.op then c.state else (res.getLast?.map fun r => r.2.2).getD c.state }

/-- What an evaluation has come to: module, records, visible raises, points whose condition has risen, and by command place and point what
came of commands. -/
structure AeRun where
  m : Mod
  items : List PubItem := []
  raises : Nat := 0
  risen : List Nat := []
  n : Nat := 0
  res : List (Nat × BitVec 32 × Nat × Nat) := []
  deriving DecidableEq, Repr

/-- What has become of the point in place `i`: its records, its raise, its candidacy. -/
def AeRun.came (r : AeRun) (i : Nat) (d : PtCfg) (o : PtOut) : AeRun :=
  let was := (at_ r.m.ae.pts i {}).a
  let m1 := { r.m with ae := { r.m.ae with pts := put r.m.ae.pts i o.p } }
  { r with m := if o.competes then m1.foOffer d o.p else m1, items := r.items ++ o.items, raises := r.raises + b2n o.raised,
           risen := if o.p.a && !was then r.risen ++ [d.pnum] else r.risen, n := r.n + 1 }
/-- The steps of R251 for one point, `cond` being the fourth. -/
def AeRun.pointBy (r : AeRun) (i : Nat) (d : PtCfg) (cond : Pt → Pt) : AeRun :=
  let c := applyCmds r.m.ae.cmds d (at_ r.m.ae.pts i {}) r.m.optime
  let sup := decide (d.sgroup ≠ 0xFF) && (at_ r.m.ae.sgs d.sgroup {}).active
  ({ r with res := r.res ++ c.res.map fun e => (e.1, d.pid, e.2) } : AeRun).came i d (c.p.steps c.items d sup r.m.dt r.m.optime cond)
/-- One point is evaluated after `dt` phases (R251). -/
def AeRun.point (r : AeRun) (i : Nat) (d : PtCfg) (dt : Nat) : AeRun :=
  r.pointBy i d fun p => p.evalCond d (r.m.aeSource d) (r.m.aeSetpoint d) dt r.m.atTime
/-- Shelving and removal from service are retained (R258), unless the supply forbids the write (R77). -/
def Mod.keepAlarms (m : Mod) : Mod :=
  if !m.sup.mayWrite then m
  else { m with ret := { m.ret with alms := (m.ae.cfg.points.zip m.ae.pts).filterMap fun e =>
      if e.2.oos || e.2.shelved.isSome then some (e.1.pid, e.2.shelved, e.2.oos) else none } }
/-- The records and counts of an evaluation enter the engine (R262 to R265, R538); commands that it completes are answered (R579). -/
def AeRun.close (r : AeRun) : Mod × List Nat :=
  let m := r.m
  let items := m.ae.due ++ r.items
  let cmds := mapFrom (fun k c => c.took ((r.res.filter fun e => e.1 == k).map (·.2)) (m.ae.tagSeq items k)) 0 m.ae.cmds
  let ae := { (m.ae.publish items m.tq).countRaises r.raises with due := [], cmds := cmds.filter fun c => !c.left.isEmpty }
  let m1 := ((m.setAe ae).count 0x50 0 r.n).count 0x51 0 r.raises
  ((cmds.filter fun c => c.left.isEmpty).foldl Mod.answerAlarm m1.keepAlarms, r.risen)
/-- The evaluation of the points that satisfy `which`; each with its time since the last evaluation. -/
def Mod.aePoints (m : Mod) (which : PtCfg → Option Nat) : Mod × List Nat :=
  ((enumFrom 0 m.ae.cfg.points).foldl (fun (r : AeRun) (e : Nat × PtCfg) =>
    match which e.2 with | some dt => r.point e.1 e.2 dt | none => r) { m := m }).close
/-- The suppression groups that satisfy `which` after `ms` milliseconds (R251 step 2, R256). -/
def Mod.aeGroups (m : Mod) (which : Nat → Bool) (ms : Nat) : Mod :=
  { m with ae := { m.ae with sgs := mapFrom (fun i g =>
      let c := at_ m.ae.cfg.sgrps i {}
      if c.sig = 0xFFFFFF ∨ !which i then g else let s := m.sigCell c.sig; g.step c (vBool s.v) s.q ms) 0 m.ae.sgs } }
/-- The reset signals of the first-out groups (R266). -/
def Mod.aeResets (m : Mod) : Mod :=
  (enumFrom 0 m.ae.cfg.fgrps).foldl (fun (k : Mod) (e : Nat × FoCfg) =>
    match e.2.rstsig with
    | none => k
    | some s =>
      let c := k.sigCell s
      if qIsBad c.q then k
      else
        let b := vBool c.v
        let rise := b && !(at_ k.ae.fos e.1 {}).lastRst
        let k1 := k.updFo e.1 fun g => { g with lastRst := b }
        if rise then k1.foReset e.1 else k1) m
/-- The record `RESYNC` of a module that takes over, with a sequence number 2²⁰ on, which starts the ring; a subscriber that expected
an earlier record finds a gap (R260, R261). -/
def Mod.aeResync (m : Mod) : Mod :=
  if m.ae.resync then
    let late (k : Sub) : Bool := match k.req, k.next with
      | .alarms _, some n => decide (0 < (m.ae.seq + 0x100000 - n).toInt)
      | _, _ => false
    let a := { m.ae with resync := false, seq := m.ae.seq + 0xFFFFF, ring := [], pubGap := m.ae.pubGap || m.eap.subs.any late }
    let m : Mod := { m with ae := { m.ae with seq := a.seq },
                            eap := { m.eap with subs := m.eap.subs.map fun k => if late k then { k with dropped := k.dropped + 1 } else k } }
    let rec_ (s : BitVec 32) : PubRec :=
      { seq := s, pid := 0, pnum := 0, state := 0, cause := 12, tev := m.dt, value := 0, tq := m.tq, pflags := b2n a.flood, occ := 0 }
    m.setAe (a.push rec_)
  else m
/-- The evaluation of each millisecond (R250, R251, R260); the points whose condition has risen. The time that it takes is
free, and `EVAL_LATE` follows it (R270, R271; log entry 1). -/
def Mod.aeTick (m : Mod) : Mod × List Nat :=
  if !m.executing then ({ m with ae := { m.ae with running := false } }, [])
  else
    let d := m.draw
    let m1 := { d.2 with ae := { d.2.ae with running := true, lastEval := m.dt, evals := d.2.ae.evals + 1,
                                             evalMax := Nat.max d.2.ae.evalMax (d.1.toNat % 1000001),
                                             evalLate := d.2.ae.evalLate || decide (250000 < d.1.toNat % 1000001) } }
    let r : Mod × List Nat := (m1.aeResync.aeGroups (fun _ => true) 1).aeResets.aePoints fun p => if p.srckind = 0 then none else some (phMs 1)
    (if 1000 ≤ r.1.ae.evals then { r.1 with ae := r.1.ae.floodSecond } else r.1, r.2)
/-- The time since the last evaluation of a point that is read through an `ALM_IN` instance of task `t`; none of another point (R250). -/
def Mod.aeReads (m : Mod) (t : Nat) (p : PtCfg) : Option Nat :=
  if p.srckind = 0 then (m.almIn p.pnum).bind fun e => if e.2.task = t then some e.1.et else none else none
/-- A cycle of task `t` evaluates points. -/
def Mod.aeHas (m : Mod) (t : Nat) : Bool := m.executing && m.ae.cfg.points.any fun p => (m.aeReads t p).isSome
/-- The points read through `ALM_IN` instances of a task, at the end of one of its cycles, with their suppression groups (R250, R251). -/
def Mod.aeTask (m : Mod) (t : Nat) : Mod × List Nat :=
  if !m.aeHas t then (m, [])
  else
    let mine (g : Nat) : Bool := m.ae.cfg.points.any fun p => p.sgroup == g && (m.aeReads t p).isSome
    (({ m with ae := { m.ae with lastEval := m.dt } } : Mod).aeResync.aeGroups mine 0).aePoints (m.aeReads t)

end Sys2Proof.Machine
end

