-- ==== Sys2Proof/Machine/Planner.lean ====
section
/-! DEFINITION. The planner: its procedure, its checks, the plan file and the plan hash (05_placement.md R165 to R188). The
figures that the spec leaves open (entries of the images, granules, the direction of a flow's minimum) are in log entry 6. -/

namespace Sys2Proof.Machine

/-- What a plan is made from (R165, R179). `old` is the execution SRAM use of the running plan at an online change (R170). -/
structure PlanIn where
  cfg : Cfg
  imgLen : Nat
  fwMain : Nat
  excl : Nat
  measured : List (Nat × Nat)
  tandem : Bool
  old : Option Nat
  deriving DecidableEq, Repr

/-- A fraction of naturals. -/
abbrev Frac := Nat × Nat
/-- The sum of two fractions. -/
def fracAdd (a b : Frac) : Frac := (a.1 * b.2 + b.1 * a.2, a.2 * b.2)
/-- `a < b`. -/
def fracLt (a b : Frac) : Bool := decide (a.1 * b.2 < b.1 * a.2)
/-- The rate of a task per second (R166). -/
def TaskCfg.rate (t : TaskCfg) : Frac :=
  if t.kind = 1 then (8000, t.period) else if t.kind = 2 then (1000000, t.minint) else if t.kind = 3 then (1, 1) else (0, 1)
/-- The time between releases in ns: the period, or `MININT` (R168). -/
def TaskCfg.tNs (t : TaskCfg) : Nat := if t.kind = 1 then t.period * 125000 else t.minint * 1000
/-- `n` per second at a rate, rounded up. -/
def perSec (n : Nat) (r : Frac) : Nat := ceilDiv (n * r.1) r.2

/-- The instances of a task. -/
def taskInsts (n : Net) (t : Nat) : List InstCfg := (at_ n.lists t []).filterMap fun i => n.insts[i]?
/-- Tier factors in tenths (R166). -/
def tierFactor (tier : Nat) : Nat := at_ [10, 13, 25] tier 25
/-- The execution time of an instance at a tier, in ns (R166). -/
def instCost (fw : Nat) (x : InstCfg) (tier : Nat) : Nat :=
  let e := Config.costEntry (BitVec.ofNat 32 fw) x.type x.tver
  ceilDiv ((e.1 + (x.binds.filter fun b => b.sig.isSome).length * e.2) * tierFactor tier) 10
/-- Entries of the input and output images that an instance accounts for (log entry 6). -/
def ioEntries (type : Nat) : Nat :=
  if [0x0080, 0x0082, 0x0084, 0x0086, 0x0088, 0x0081, 0x0083, 0x0087, 0x0089, 0x008B].contains type then 1
  else if type = 0x0071 then 2 else 0
/-- Bytes of the output image that an instance accounts for (log entry 6). -/
def outBytes (x : InstCfg) : Nat :=
  match x.type with
  | 0x0081 => 1
  | 0x0083 => 4
  | 0x0087 => tyWidth ((pw x.params 2).toNat % 256) / 8
  | 0x0089 => 36
  | 0x008B => 1
  | 0x0071 => 8
  | _ => 0
/-- The cost C of a task with a tier for each instance; a measured cost replaces it (R166, R182). -/
def taskCost (p : PlanIn) (t : Nat) (tierOf : BitVec 32 → Nat) : Nat :=
  match p.measured.find? fun m => m.1 == t with
  | some m => m.2
  | none =>
    let xs := taskInsts p.cfg.net t
    4000 + 20 * (xs.map fun x => ioEntries x.type).sum + (xs.map fun x => instCost p.fwMain x (tierOf x.iid)).sum

/-- G of a task in ns (R132). -/
def taskG (p : PlanIn) (t : Nat) : Nat :=
  let lead (sp : Nat) : Nat := if p.cfg.tasks.lockOf (sp + 3) = some t ∧ !(spokeNodes p.cfg.netc sp).isEmpty then
    spokeLout p.cfg.netc sp p.tandem * 1000 else 0
  Nat.max 5000 (Nat.max (lead 0) (lead 1))

/-- Core pairs, or lanes, in the resource model (R165, R183). -/
def pairsIn (excl : Nat) : List Nat := (List.range 4).filter fun c => !bitOf excl c
/-- See `pairsIn`. -/
def lanesIn (excl : Nat) : List Nat := (List.range 4).filter fun l => !bitOf excl (4 + l)

/-! Pins (R176 to R178). -/

/-- A pin names an excluded pair or lane, so a degraded plan ignores it (R178). -/
def pinExcluded (excl : Nat) (q : Pin) : Bool := (q.kind == 1 && bitOf excl q.a) || (q.kind == 3 && bitOf excl (4 + q.a))
/-- A pin that cannot be honoured for what it names, or with a value out of range (R176, R177). -/
def pinBad (c : Cfg) (q : Pin) : Bool :=
  (decide (q.kind < 3) && q.b != 0) || (q.kind != 4 && q.value != 0) || (q.kind == 4 && q.target != 0) ||
  match q.kind with
  | 1 => decide (3 < q.a) || decide (15 < q.target) || (c.tasks.task q.target).kind == 0
  | 2 => decide (2 < q.a) || !(c.net.insts.any fun x => x.iid.toNat == q.target)
  | 3 => decide (3 < q.a) || (q.b != 0xFFFF && decide (127 < q.b)) || !(c.loops.any fun d => d.lnum == q.target)
  | 4 => outside 1 5 q.a || decide (7 < q.b)
  | _ => true
/-- Two pins for one target and kind (R177). -/
def pinSame (a b : Pin) : Bool :=
  a.kind == b.kind && (if a.kind = 4 then a.a == b.a && a.b == b.b
    else a.target == b.target)
/-- The slots that `LOOP_LANE` pins take, in table order: (loop, lane, slot); one that names no slot takes the lowest free one (R167,
R177). -/
def pinSlots (pins : List Pin) : List (Nat × Nat × Nat) :=
  (pins.filter fun q => q.kind == 3).foldl (fun l q =>
    let free := ((List.range 128).find? fun s => !(l.any fun e => e.2.1 == q.a && e.2.2 == s)).getD 128
    l ++ [(q.target, q.a, if q.b = 0xFFFF then free else q.b)]) []
/-- The first pin in conflict; of the pins of loops only those in force take slots (R177, R178). -/
def pinConflict (c : Cfg) (excl : Nat) : Option Nat :=
  (enumFrom 0 c.tasks.pins).findSome? fun ((i, q) : Nat × Pin) =>
    let before := c.tasks.pins.take i
    let taken := pinSlots (before.filter fun o => !pinExcluded excl o)
    if pinBad c q || before.any (pinSame q) ||
        (q.kind == 3 && !pinExcluded excl q && taken.any fun e => e.2.1 == q.a && e.2.2 == q.b) then some i else none
/-- The first flow pin in conflict (R176, R400). -/
def flowPinConflict (c : Cfg) : Option Nat :=
  (enumFrom 0 c.netc.fpins).findSome? fun ((i, q) : Nat × PinCfg) =>
    if q.kind != 5 || outside 1 5 q.a || decide (7 < q.b) || !(c.netc.flows.any fun f => f.fnum == q.target && f.port + 1 == q.a) ||
      (c.netc.fpins.take i).any (fun o => o.target == q.target) then some i else none
/-- The pins in force. -/
def pinsOf (p : PlanIn) : List Pin := p.cfg.tasks.pins.filter fun q => !pinExcluded p.excl q
/-- A rejection with the pin mark, where pins of the kinds that bear on the check are in force (R177; log entry 6). -/
def rejAt (p : PlanIn) (kinds : List Nat) (code where_ excess : Nat) : Reject :=
  let pinned := (pinsOf p).any (fun q => kinds.contains q.kind) || (kinds.contains 5 && !p.cfg.netc.fpins.isEmpty)
  { code := code, where_ := where_ + (if pinned then 2 ^ 31 else 0), excess := excess }

/-! Tasks to core pairs (R167). -/

/-- The pair with the least utilisation, the lower on a tie. -/
def leastPair (cands : List Nat) (util : List Frac) : Nat :=
  match cands with
  | [] => 0
  | c :: t => t.foldl (fun b x => if fracLt (at_ util x (0, 1)) (at_ util b (0, 1)) then x else b) c
/-- The utilisation that a task adds to its pair (R165, R168). -/
def taskUtil (t : TaskCfg) (cost : Nat) : Frac := if t.kind = 1 ∨ t.kind = 2 then (cost, t.tNs) else (0, 1)
/-- The core pair of each task, 255 for an unused one. -/
def placeTasks (p : PlanIn) : List Nat :=
  let ts := p.cfg.tasks
  let cost (t : Nat) := taskCost p t fun _ => 1
  let used := (List.range 16).filter fun t => (ts.task t).kind != 0
  let pin (t : Nat) : Option Nat := ((pinsOf p).find? fun q => q.kind == 1 && q.target == t).map (·.a)
  let key (t : Nat) : Frac := let r := (ts.task t).rate; (r.1 * cost t, r.2)
  let order := (used.filter fun t => (pin t).isSome) ++
    (used.filter fun t => (pin t).isNone).mergeSort fun a b => !fracLt (key a) (key b)
  let step (st : List Nat × List Frac) (t : Nat) : List Nat × List Frac :=
    let c := match pin t with | some c => c | none => leastPair (pairsIn p.excl) st.2
    (put st.1 t c, upd st.2 c fun u => fracAdd u (taskUtil (ts.task t) (cost t)))
  (order.foldl step (List.replicate 16 255, List.replicate 4 (0, 1))).1

/-! Instances to tiers (R169, R170). -/

/-- Bytes of a signal's cell (R170). -/
def cellBytes (s : SigCfg) : Nat := if s.stype = 7 then 16 else 8
/-- The use of execution SRAM apart from instance data (R170). -/
def sramBase (p : PlanIn) : Nat := p.imgLen + (p.cfg.net.sigs.map cellBytes).sum + 327680 + 1048576
/-- Placement of the instances: (IID, tier), TCM left per pair, SRAM used. -/
structure TierSt where
  tiers : List (BitVec 32 × Nat) := []
  tcm : List Nat
  sram : Nat
  bad : Option Reject := none
  deriving DecidableEq, Repr
/-- TCM of a pair for instance data: what the reserve and the stacks leave (R165). -/
def tcmFor (cores : List Nat) (c : Nat) : Nat := 262144 - 32768 - 8192 * (cores.filter (· == c)).length
/-- One instance placed (R169). -/
def placeInst (p : PlanIn) (core : Nat) (fast : Bool) (pin : Option Nat) (st : TierSt) (x : InstCfg) : TierSt :=
  let size := ceilDiv (instSize x) 8 * 8
  let into (tier : Nat) : TierSt :=
    { st with tiers := st.tiers ++ [(x.iid, tier)], tcm := if tier = 0 then upd st.tcm core fun n => n - size else st.tcm,
              sram := if tier = 1 then st.sram + size else st.sram }
  let fitsT := decide (size ≤ at_ st.tcm core 0)
  let fitsS := decide (st.sram + size ≤ 16777216)
  let fail : TierSt := { st with bad := st.bad <|> some (rejAt p [1, 2] 0x0020 0xFF (st.sram + size - 16777216)) }
  match pin with
  | some 0 => if fitsT then into 0 else { st with bad := st.bad <|> some (rejAt p [1, 2] 0x0012 core (size - at_ st.tcm core 0)) }
  | some 1 => into 1
  | some _ => if fast then fail else into 2
  | none => if fitsT then into 0 else if fitsS then into 1 else if fast then fail else into 2
/-- All instances placed, the pinned ones first in table order, then pair by pair in descending access rate, lower identities first on a tie. -/
def placeInsts (p : PlanIn) (cores : List Nat) : TierSt :=
  let ts := p.cfg.tasks
  let pin (x : InstCfg) : Option Nat := ((pinsOf p).find? fun q => q.kind == 2 && q.target == x.iid.toNat).map (·.a)
  let fast (x : InstCfg) : Bool := fracLt (1000, 1) (ts.task x.task).rate
  let on (c : Nat) := p.cfg.net.insts.filter fun x => at_ cores x.task 255 == c
  let st0 : TierSt := { tcm := tabulate 4 fun c => tcmFor cores c, sram := sramBase p }
  let before (a b : InstCfg) : Bool :=
    let ra := (ts.task a.task).rate
    let rb := (ts.task b.task).rate
    if fracLt rb ra then true else if fracLt ra rb then false else decide (a.iid.toNat ≤ b.iid.toNat)
  let pinned := ((pinsOf p).filterMap fun q => if q.kind = 2 then p.cfg.net.insts.find? fun x => x.iid.toNat == q.target else none).foldl (fun st x => placeInst p (at_ cores x.task 0) (fast x) (pin x) st x) st0
  (pairsIn p.excl).foldl (fun st c =>
    (((on c).filter fun x => (pin x).isNone).mergeSort before).foldl (fun st x => placeInst p c (fast x) none st x) st) pinned
/-- The tier of an instance. -/
def TierSt.tierOf (st : TierSt) (i : BitVec 32) : Nat := ((st.tiers.find? fun e => e.1 == i).map (·.2)).getD 1

/-! Time on a core pair (R168). -/

/-- The tasks of a pair that are checked for time. -/
def timedOn (ts : TasksCfg) (cores : List Nat) (c : Nat) : List Nat :=
  (List.range 16).filter fun t => at_ cores t 255 == c && ((ts.task t).kind == 1 || (ts.task t).kind == 2)
/-- The iteration of R168: a feasible response time, or the excess over the bound. -/
def response (own : Nat) (others : List (Nat × Nat)) (bound : Int) : Nat → Nat → Nat ⊕ Nat
  | 0, r => .inl r
  | fuel + 1, r =>
    let nx := own + (others.map fun o => ceilDiv r o.2 * o.1).sum
    if bound < nx then .inr (nx - bound).toNat else if nx = r then .inl r else response own others bound fuel nx
/-- The response time of task `t` (R168). -/
def taskResponse (p : PlanIn) (cores : List Nat) (cost : Nat → Nat) (t : Nat) : Nat ⊕ Nat :=
  let ts := p.cfg.tasks
  let me := ts.task t
  let js := (timedOn ts cores (at_ cores t 255)).filter fun j => j != t && decide ((ts.task j).prio ≤ me.prio)
  let bound : Int := ((me.oofs * 1000 : Nat) : Int) - taskG p t
  let own := cost t + 2000
  response own (js.map fun j => (cost j, (ts.task j).tNs)) bound (bound.toNat + 2) own
/-- The planner limit of a pair in 0.01 % (R165, R184). -/
def utilLimit (excl c : Nat) : Nat := if (pairsIn excl).head? = some c then 7000 else 8000
/-- The check of a core pair (R168). -/
def checkPair (p : PlanIn) (cores : List Nat) (cost : Nat → Nat) (c : Nat) : Viol :=
  let ts := timedOn p.cfg.tasks cores c
  let u := ts.foldl (fun u t => fracAdd u (cost t, (p.cfg.tasks.task t).tNs)) (0, 1)
  let lim := utilLimit p.excl c
  firstViol [
    if 229376 < 8192 * (cores.filter (· == c)).length then some (rejAt p [1] 0x0012 c (8192 * (cores.filter (· == c)).length - 229376)) else none,
    if fracLt (lim, 10000) u then some (rejAt p [1, 2] 0x0010 c (ceilDiv (u.1 * 10000) u.2 - lim)) else none,
    ts.findSome? fun t => match taskResponse p cores cost t with
      | .inl _ => none
      | .inr e => some (rejAt p [1, 2] 0x0011 t e)]

/-! Loops to lanes (R171). -/

/-- A loop as placed: (LNUM, lane, slot, cycles, period, phase). -/
structure LoopPlace where
  lnum : Nat
  lane : Nat
  slot : Nat
  cycles : Nat
  period : Nat
  phase : Nat
  deriving DecidableEq, Repr
/-- The hyperperiod of loops. -/
def hyper (l : List LoopPlace) : Nat := (l.map (·.period)).foldl Nat.lcm 1
/-- The worst frame load of a lane: over the hyperperiod, or the sum where that exceeds 20,000 frames (R171). -/
def peakLoad (l : List LoopPlace) : Nat :=
  if 20000 < hyper l then (l.map (·.cycles)).sum
  else (List.range (hyper l)).foldl (fun m f => Nat.max m ((l.filter fun x => f % x.period == x.phase).map (·.cycles)).sum) 0
/-- The lowest free slot of a lane. -/
def freeLoopSlot (l : List LoopPlace) : Nat := ((List.range 128).find? fun s => !(l.any fun x => x.slot == s)).getD 128
/-- All loops placed: pinned ones first, in table order, then by cycles per period, lower numbers first on a tie. -/
def placeLoops (p : PlanIn) : List LoopPlace × Viol :=
  let slots := pinSlots (pinsOf p)
  let pin (d : LoopCfg) : Option (Nat × Nat) := (slots.find? fun e => e.1 == d.lnum).map (·.2)
  let cyc (d : LoopCfg) : Nat := d.worst.getD 0
  let before (a b : LoopCfg) : Bool :=
    let x := cyc a * b.period
    let y := cyc b * a.period
    if y < x then true else if x < y then false else decide (a.lnum ≤ b.lnum)
  let order := (slots.filterMap fun e => p.cfg.loops.find? fun d => d.lnum == e.1) ++ (p.cfg.loops.filter fun d => (pin d).isNone).mergeSort before
  let step (st : List LoopPlace × Viol) (d : LoopCfg) : List LoopPlace × Viol :=
    let mk (l s : Nat) : LoopPlace := { lnum := d.lnum, lane := l, slot := s, cycles := cyc d, period := d.period, phase := d.phase }
    let lane (l : Nat) := st.1.filter fun x => x.lane == l
    let l := match pin d with
      | some q => q.1
      | none => match lanesIn p.excl with
        | [] => 0
        | a :: t => t.foldl (fun b x => if peakLoad (mk x 0 :: lane x) < peakLoad (mk b 0 :: lane b) then x else b) a
    let s := match pin d with | some q => q.2 | none => freeLoopSlot (lane l)
    let st1 := st.1 ++ [mk l s]
    let pk := peakLoad (st1.filter fun x => x.lane == l)
    (st1, st.2 <|> (if 127 < s then some (rejAt p [3] 0x0031 l 1)
      else if 16000 < pk then some (rejAt p [3] 0x0030 l (pk - 16000)) else none))
  order.foldl step ([], none)

/-! The pannier pool (R172, R418). -/

/-- Buffers that a burst takes. -/
def flowBufs (f : FlowCfg) : Nat := f.burst * ceilDiv f.maxlen 2048
/-- The queue of a flow (R172, R396). -/
def flowQueue (c : NetCfg) (f : FlowCfg) : Nat :=
  match c.fpins.find? fun q => q.kind == 5 && q.target == f.fnum with | some q => q.b | none => f.tc
/-- The ports that a flow occupies: both P1 and P2 under PRP and HSR (R172). -/
def flowPorts (c : NetCfg) (f : FlowCfg) : List Nat := if c.prmode ≠ 0 ∧ f.port < 2 then [0, 1] else [f.port]
/-- Bytes of the largest `OUT` load of a Spoke cycle, and its frames (R406). -/
def spokeOuts (c : NetCfg) (sp : Nat) : List Nat := packSegs ((spokeNodes c sp).reverse.map fun n => 4 + n.olen) 0
/-- The guaranteed minimums in buffers: P1 to P5, then the twin link, 16 queues each (R172, R188, R418). -/
def poolMins (p : PlanIn) : List Nat :=
  let c := p.cfg.netc
  let add (l : List Nat) (k n : Nat) := upd l k fun x => x + n
  let m0 := put (put (List.replicate 96 0) 80 128) 88 128
  let m1 := c.flows.foldl (fun l f => (flowPorts c f).foldl (fun l q =>
    add (add l (queueNo q (flowQueue c f)) (flowBufs f)) (queueNo q (8 + flowQueue c f)) (flowBufs f)) l) m0
  let m2 := [0, 1].foldl (fun l sp =>
    let n := (spokeNodes c sp).length
    if n = 0 then l else
      add (add (add (add l (queueNo (sp + 2) 7) 2) (queueNo (sp + 2) 6) (2 * (spokeOuts c sp).length)) (queueNo (sp + 2) 5) 2)
        (queueNo (sp + 2) 15) (2 * (n + 1))) m1
  (pinsOf p).foldl (fun l q => if q.kind = 4 then upd l (queueNo (q.a - 1) q.b) fun x => Nat.max x (ceilDiv q.value 2048) else l) m2
/-- The check of the pool and of the flows (R172). -/
def checkPool (p : PlanIn) : Viol :=
  let s := (poolMins p).sum
  let off (port : Nat) := (p.cfg.netc.flows.filter fun f => f.port == port && !(at_ p.cfg.netc.ports port {}).pen).length
  firstViol [(List.range 5).findSome? fun port => if off port = 0 then none else some (rejAt p [5] 0x0041 (port + 1) (off port)),
    if 3072 < s then some (rejAt p [4, 5] 0x0040 0xFF ((s - 3072) * 2048)) else none]

/-! Shadow, fabric and retained writes (R173 to R175). -/

/-- The task that bears a loop without a terminal: the `CYCLIC` task of the shortest period (R173). -/
def shortest (ts : TasksCfg) : Option Nat :=
  (List.range 16).foldl (fun b t => if (ts.task t).kind ≠ 1 then b else match b with
    | some o => if (ts.task t).period < (ts.task o).period then some t else b
    | none => some t) none
/-- The task of a loop's terminal. -/
def loopTask (c : Cfg) (lnum : Nat) : Option Nat :=
  ((c.net.insts.find? fun x => x.type == 0x0071 && (pw x.params 0).toNat % 65536 == lnum).map (·.task)) <|> shortest c.tasks
/-- The signal cells that a task writes. -/
def taskCells (n : Net) (t : Nat) : List SigCfg := n.sigs.filter fun s => s.writer == t && !s.const
/-- The granules of instances laid one behind the other from byte `at_` on that lie wholly within parameters (R100, R173). -/
def paramGranules : Nat → List InstCfg → Nat
  | _, [] => 0
  | a, x :: t => ((a + 8 + 4 * x.params.length) / 64 - ceilDiv (a + 8) 64) + paramGranules (a + ceilDiv (instSize x) 8 * 8) t
/-- G_t of R173: the instances of a task in the order of its list, then its cells, each from a granule on (log entry 6). -/
def granules (c : Cfg) (t : Nat) : Nat :=
  let xs := taskInsts c.net t
  ceilDiv (xs.map fun x => ceilDiv (instSize x) 8 * 8).sum 64 - paramGranules 0 xs + ceilDiv ((taskCells c.net t).map cellBytes).sum 64
/-- V_t of R173. -/
def shadowBytes (c : Cfg) (t : Nat) : Nat :=
  let xs := taskInsts c.net t
  let g := granules c t
  let o := (xs.map outBytes).sum
  let l := (c.loops.filter fun d => loopTask c d.lnum == some t).length
  let a := (xs.filter fun x => x.type == 0x0090).length
  64 * g + o + 1024 * l + 16 * a + 256
/-- The shadow rate (R173). -/
def shadowRate (c : Cfg) : Nat :=
  let ts := (List.range 16).filter fun t => (c.tasks.task t).kind != 0
  (ts.map fun t => perSec (shadowBytes c t) (c.tasks.task t).rate).sum +
    1000 * (16 * (c.alarms.points.filter fun p => p.srckind != 0).length + 256)
/-- The fabric reservation in bytes per second (R174), with the `SYNC` frames that R407 adds every 1 ms to longer periods. -/
def fabricRate (c : Cfg) : Nat :=
  let spoke (sp : Nat) : Nat := match c.tasks.lockOf (sp + 3) with
    | some t => if (spokeNodes c.netc sp).isEmpty then 0 else
        perSec (60 + ((spokeOuts c.netc sp).map fun s => Nat.max 60 (30 + s)).sum + 290) (c.tasks.task t).rate +
          (if 8 < (c.tasks.task t).period then 60000 else 0)
    | none => 0
  2 * (spoke 0 + spoke 1) + (c.loops.map fun d => ceilDiv (64 * 20000) d.period).sum + shadowRate c +
    16000 * (c.alarms.points.filter fun p => p.srckind != 0).length +
    ((c.net.insts.filter fun x => x.type == 0x0090).map fun x => perSec 16 (c.tasks.task x.task).rate).sum
/-- Retained bytes that a cycle of a task writes (R175). -/
def retainBytes (n : Net) (t : Nat) : Nat :=
  (((taskInsts n t).filter (·.retain)).map instSize).sum + (((taskCells n t).filter (·.retain)).map cellBytes).sum
/-- The rate of retained writes (R175). -/
def retainRate (c : Cfg) : Nat := ((List.range 16).map fun t => perSec (retainBytes c.net t) (c.tasks.task t).rate).sum
/-- The last checks of the procedure (R173 to R175). -/
def checkRates (p : PlanIn) : Viol :=
  let c := p.cfg
  firstViol [
    if 890625000 < shadowRate c then some (rejAt p [] 0x0050 0xFF (shadowRate c - 890625000)) else none,
    if 6400000000 < fabricRate c then some (rejAt p [] 0x0051 0xFF (fabricRate c - 6400000000)) else none,
    (List.range 16).findSome? fun t => if 524288 < retainBytes c.net t then some (rejAt p [] 0x0052 t (retainBytes c.net t - 524288)) else none,
    if 33554432 < retainRate c then some (rejAt p [] 0x0052 0xFF (retainRate c - 33554432)) else none]

/-! The plan. -/

/-- The procedure of R167 after the checks of the tables. -/
def makePlan (p : PlanIn) : Plan ⊕ Reject :=
  let c := p.cfg
  let cores := placeTasks p
  let st := placeInsts p cores
  let cost (t : Nat) := taskCost p t st.tierOf
  let lp := placeLoops p
  let pins := pinsOf p
  let ignored := pins.length != c.tasks.pins.length
  let data (tier : Nat) := ((c.net.insts.filter fun x => st.tierOf x.iid == tier).map fun x => ceilDiv (instSize x) 8 * 8).sum
  let change := match p.old with | some o => o + (p.imgLen + (c.net.sigs.map cellBytes).sum + data 1 + data 0) | none => 0
  let v := firstViol [
    if 2 ≤ (pairsIn p.excl).length ∧ (lanesIn p.excl) ≠ [] then none else some { code := 0x0061, where_ := 0xFF },
    (pinConflict c p.excl).bind fun i => some { code := 0x0060, where_ := i },
    (flowPinConflict c).bind fun i => some { code := 0x0060, where_ := i },
    st.bad,
    (pairsIn p.excl).findSome? (checkPair p cores cost),
    if 8388608 < data 2 then some (rejAt p [1, 2] 0x0020 0xFF (data 2 - 8388608)) else none,
    if 16777216 < st.sram then some (rejAt p [1, 2] 0x0020 0xFF (st.sram - 16777216)) else none,
    if 16777216 < change then some (rejAt p [1, 2] 0x0021 0xFF (change - 16777216)) else none,
    lp.2, checkPool p, checkRates p]
  match v with
  | some r => .inr r
  | none =>
    let util (t : Nat) : Nat := let k := c.tasks.task t; if k.kind = 1 ∨ k.kind = 2 then cost t * 10000 / k.tNs
      else if k.kind = 3 then cost t / 100000 else 0
    .inl
      { icrc := c.icrc, fwMain := p.fwMain, excl := p.excl, degraded := p.excl != 0, measured := !p.measured.isEmpty,
        pinsIgnored := ignored, core := cores, kind := c.tasks.tasks.map (·.kind), util := tabulate 16 util,
        resp := tabulate 16 fun t => if (c.tasks.task t).kind = 1 ∨ (c.tasks.task t).kind = 2 then
          (match taskResponse p cores cost t with | .inl r => r | .inr _ => 0) else 0,
        queues := poolMins p,
        loops := (lp.1.mergeSort fun a b => decide (a.lnum ≤ b.lnum)).map fun x => (x.lnum, x.lane, x.slot),
        flows := (c.netc.flows.mergeSort fun a b => decide (a.fnum ≤ b.fnum)).map fun f => (f.fnum, f.port + 1, flowQueue c.netc f),
        insts := (c.net.insts.mergeSort fun a b => decide (a.iid.toNat ≤ b.iid.toNat)).map fun x =>
          (x.iid.toNat, st.tierOf x.iid, at_ cores x.task 255),
        shadow := shadowRate c, sram := st.sram, fabric := ceilDiv (fabricRate c) 1000000, retain := retainRate c,
        tcm := tabulate 4 fun k => 262144 - 32768 - 8192 * (cores.filter (· == k)).length - at_ st.tcm k 0,
        utilCore := tabulate 4 fun k =>
          (let u := (timedOn c.tasks cores k).foldl (fun u t => fracAdd u (cost t, (c.tasks.task t).tNs)) (0, 1); u.1 * 10000 / u.2),
        lanePeak := tabulate 4 fun l => peakLoad (lp.1.filter fun x => x.lane == l),
        laneSlots := tabulate 4 fun l => (lp.1.filter fun x => x.lane == l).length }

/-- The encoding of `LOOP_PLACE` (R186). -/
def loopPlaceWord (lane slot : Nat) : Nat := lane + 4 * slot + 32768
/-- The `PLAN` file after its hash (R188). -/
def Plan.body (p : Plan) : Bytes :=
  natLe 4 p.icrc ++ natLe 4 p.fwMain ++ natLe 1 p.excl ++
    natLe 1 (b2n p.degraded + 2 * b2n p.measured + 4 * b2n p.pinsIgnored) ++ natLe 2 p.loops.length ++ natLe 4 p.insts.length ++
    natLe 2 p.flows.length ++ [0, 0] ++ natLe 4 p.shadow ++ natLe 4 p.sram ++ natLe 4 p.fabric ++
    ((List.range 16).map fun t => natLe 1 (at_ p.core t 255) ++ natLe 1 (at_ p.kind t 0) ++ natLe 2 (at_ p.util t 0) ++
      natLe 4 (at_ p.resp t 0)).flatten ++
    ((p.queues.map fun n => natLe 4 n).flatten) ++
    ((p.loops.map fun e => natLe 2 e.1 ++ natLe 2 (loopPlaceWord e.2.1 e.2.2)).flatten) ++
    ((p.flows.map fun e => natLe 2 e.1 ++ natLe 1 e.2.1 ++ natLe 1 e.2.2).flatten) ++
    ((p.insts.map fun e => natLe 4 e.1 ++ natLe 1 e.2.1 ++ natLe 1 e.2.2 ++ [0, 0]).flatten)
/-- The plan hash (R179). -/
def Plan.hash (p : Plan) : Bytes := sha256 (List.replicate 32 0 ++ p.body)
/-- The `PLAN` file (R188). -/
def Plan.file (p : Plan) : Bytes := p.hash ++ p.body

/-- The whole of step 8 of R54. -/
def planImage (img : Bytes) (c : Cfg) (fwMain excl : Nat) (measured : List (Nat × Nat)) (tandem : Bool) (sel : List (BitVec 16))
    (old : Option Nat) : Plan ⊕ Reject :=
  match checkTables img c fwMain tandem sel with
  | some r => .inr r
  | none => makePlan { cfg := c, imgLen := img.length, fwMain := fwMain, excl := excl, measured := measured, tandem := tandem, old := old }

/-- `PLAN_STATE` (R187). -/
def PlanSt.stateWord (s : PlanSt) : Nat :=
  s.state + 8 * b2n ((s.plan.map (·.degraded)).getD false) + 16 * b2n s.cached + 32 * b2n (!s.measured.isEmpty) +
    64 * b2n s.pinsIgnored + 128 * b2n s.hashMismatch + 256 * Nat.min 255 s.replans
/-- Instances of the plan in a tier. -/
def Plan.inTier (p : Plan) (tier : Nat) : Nat := (p.insts.filter fun e => e.2.1 == tier).length

end Sys2Proof.Machine
end

