-- ==== Sys2Proof/Machine/Apply.lean ====
section
/-! DEFINITION. Output images at their apply instants, and the shadow batches that the holder of ACT sends
(04_task_cycle_and_online_change.md R135 to R138, 10_tandem_redundancy.md R331 to R333). -/

namespace Sys2Proof.Machine

/-! Applying an image. -/

/-- The task to which the Spoke port of a node is locked (R134). -/
def Mod.lockOfNode (m : Mod) (node : Nat) : Option Nat :=
  match nodePort m.cfg.netc node with
  | 0 => none
  | p => m.cfg.tasks.lockOf p
/-- A remote output takes its bytes. -/
def Mod.setRio (m : Mod) (node offs : Nat) (b : Bytes) : Mod :=
  { m with rioOut := m.rioOut.filter (fun e => !(e.1 == node && e.2.1 == offs)) ++ [(node, offs, b)] }
/-- A transmit request is queued (R437). -/
def Mod.canRequest (m : Mod) (c obj : Nat) (vals : List (BitVec 32)) : Mod :=
  let cfg := m.canCfg c
  match cfg.tx[obj]? with
  | none => m
  | some t => m.updCan c fun k => ((k.request cfg obj (t.pack vals) m.act (m.testing (9 + c)) m.mono).startLongs cfg m.mono).offer cfg
/-- One entry of an image of task `t` is applied (R135, R138, R209, R378). -/
def Mod.applyItem (m : Mod) (t : Nat) : OutItem → Mod
  | .dio ch v => m.updDio ch fun h => h.command v m.mono
  | .ao ch v => m.updAo ch fun h => h.command v (m.trim 1 ch) m.mono
  | .rio node offs b => if m.lockOfNode node = some t then m.setRio node offs b else m
  | .term loop sp ff mode en tq => { m with ce := m.ce.updLoop loop fun s => { s with down := ⟨sp, ff, mode, en, tq⟩ } }
  | .can c obj vals => m.canRequest c obj vals
  | .btReq n v => { m with btReq := put m.btReq n v }
/-- An image is applied. -/
def Mod.applyImage (m : Mod) (t : Nat) (img : List OutItem) : Mod := img.foldl (fun k i => k.applyItem t i) m
/-- The output stages of a task take a refresh (R135). -/
def Mod.refresh (m : Mod) (t : Nat) : Mod :=
  (m.cfg.net.insts.foldl (fun (k : Mod) (x : InstCfg) =>
    if x.task = t ∧ x.type = 0x0081 then
      k.updDio (x.par 0) fun h => { h with out := { h.out with refresh := some k.mono } }
    else if x.task = t ∧ x.type = 0x0083 then
      k.updAo (x.par 0) fun h => { h with out := { h.out with refresh := some k.mono } }
    else k) m).restage
/-- The transmit requests of a cycle that is not applied are discarded (R440). -/
def Mod.discardCan (m : Mod) (img : List OutItem) : Mod :=
  img.foldl (fun k i => match i with
    | .can c obj _ => k.updCan c fun b => { b with tx := upd b.tx obj fun o => { o with lastErr := 8, outcome := some 8 } }
    | _ => k) m
/-- Remote outputs of task `t` to ports locked to another task wait for that task's next apply instant (R138). -/
def Mod.crossRio (m : Mod) (t : Nat) (img : List OutItem) : Mod :=
  img.foldl (fun k i => match i with
    | .rio node offs b => match k.lockOfNode node with
      | some l => if l = t then k else k.setRio node offs b
      | none => k
    | _ => k) m

/-! Shadow batches. -/

/-- A twin-link lane is up. -/
def Mod.linkUp (m : Mod) : Bool := m.tan.lane0 || m.tan.lane1
/-- A frame of `LTYPE` `ltype` goes out on the twin link, where a lane is up (R329). -/
def Mod.sendTl (m : Mod) (ltype : Nat) (out : Bytes → Out) (p : Bytes) : Mod :=
  if m.linkUp then
    let n := at_ m.tan.lseq (ltype - 1) 0 + 1
    (m.updTan fun t => { t with lseq := put t.lseq (ltype - 1) n }).send (out (tlFrame ltype n p))
  else m
/-- The holder of ACT sends shadows: its partner is `STANDBY`, or catching up (R332, R344). -/
def Mod.shadowing (m : Mod) : Bool := decide (m.tan.role = .active) || m.tan.sh.serving
/-- A batch is sent in shadow segments, where a lane is up (R329, R331 to R333, R538). -/
def Mod.sendBatch (m : Mod) (btype task : Nat) (overrun : Bool) (relnum : BitVec 32) (apply : BitVec 64) (recs : List ShRec) : Mod :=
  if !m.linkUp then m
  else
    let b := m.tan.sh.bseq + 1
    let h : BatchHdr := { btype := btype, task := task, overrun := overrun, bseq := b, relnum := relnum, apply := apply,
                          nrec := recs.length + 1, blen := batchLen recs }
    let all := recs ++ [batchCommit h recs]
    let frames := shadowFrames (at_ m.tan.lseq 1 0) (batchBody h all)
    let m1 := m.updTan fun t => { t with
      lseq := put t.lseq 1 (at_ t.lseq 1 0 + BitVec.ofNat 32 frames.length)
      sh := { t.sh with bseq := b, flying := t.sh.flying ++ [(b, m.mono)],
                        sent := (t.sh.sent.filter fun e => decide (m.mono < e.1 + phS 1)) ++ [(m.mono, h.blen)] } }
    (m1.send (.batch h all frames)).count 0x40 0 (granulesOf recs)
/-- The record of a loop: its words as they stood at the loop boundary before (R217, R332). -/
def Mod.loopRec (m : Mod) (n : Nat) : ShRec :=
  let c := if m.ce.running then m.ce.shot else ⟨m.ce.words, m.ce.st, m.ce.staged⟩
  let s := loopStOf c.st n
  let port := match m.ce.loopCfg n with | some d => d.oport | none => 0
  .loop n (SMap.get 0 c.staged port) (BitVec.ofInt 16 s.y0) s.k (match s.phase with | .none => 0 | .clamp => 1 | .method => 2)
    s.mode (SMap.getList 0 c.words 256 (n * 256))
/-- The record of a point (R332). -/
def ptRec (optime : Nat) (d : PtCfg) (p : Pt) : ShRec :=
  .alarm { pnum := d.pnum, vis := BitVec.ofNat 2 p.vis, oos := p.oos, suppressed := p.suppressed, cond := p.a, c := p.c, badq := p.badq,
           occ := p.occ, first := p.first, simul := p.simul, shelf := p.shelved.map fun t => t - optime, held := p.held, cAt := p.cAt,
           onset := p.onset, cTq := p.cTq, onTq := p.onTq, cAl := p.cAl, samples := p.samples, since := p.since, value := p.value }
/-- The points that satisfy `f`. -/
def Mod.ptRecs (m : Mod) (f : PtCfg → Bool) : List ShRec :=
  ((m.ae.cfg.points.zip m.ae.pts).filter fun e => f e.1).map fun e => ptRec m.optime e.1 e.2
/-- A candidate in the shadow image. -/
def candShadow (k : Cand) : FoShadow := { node := k.node, pid := k.pid, pnum := k.pnum, tc := k.tc, sgran := k.sgran, align := k.align }
/-- The record of a first-out group. -/
def foRec (mono : Nat) (c : FoCfg) (g : Fo) : ShRec :=
  .foGroup { gnum := c.gnum, state := BitVec.ofNat 2 g.state, epoch := g.epoch, own := g.own.map candShadow, cands := g.cands.map candShadow,
             winner := g.winner.map candShadow, simul := g.simul, partial_ := g.partial_, uncertain := g.uncertain, nsim := g.nsim,
             lastRst := g.lastRst, settleLeft := g.settleAt.map (· - mono), partialLeft := g.partialAt.map (· - mono) }
/-- The records of the first-out groups and of the suppression groups (R331). -/
def Mod.groupRecs (m : Mod) : List ShRec :=
  ((m.ae.cfg.fgrps.zip m.ae.fos).map fun e => foRec m.mono e.1 e.2) ++
    (enumFrom 0 m.ae.sgs).map fun e => .sgroup e.1 e.2.active e.2.left e.2.badq
/-- The record of a unit armed by a block (R301). -/
def Mod.touRec (m : Mod) (u : Nat) : ShRec :=
  let k := at_ m.tous u {}
  .tou u k.target k.period k.lockReq k.armed
/-- Table banks as a mask. -/
def Ce.banks (c : Ce) : BitVec 16 := BitVec.ofNat 16 (packBits (c.tabSt.map (·.bank1)))
/-- The part below 1 ms, in phases, of the time that Δ of a task counts (R107): whole periods in a `CYCLIC` task, ROOT cycles in another. -/
def Mod.remainder (m : Mod) (t : Nat) : Nat :=
  let c := m.taskCfg t
  (if c.kind = 1 then phUs ((m.task t).releases.toNat * c.period * 125) else m.mono) % phMs 1
/-- The time-base record of a task (R332). -/
def Mod.timeBaseRec (m : Mod) (t : Nat) : ShRec :=
  let k := m.task t
  .timeBase t k.releases.toNat (m.remainder t) k.lastTrig.isSome m.tb.root m.ce.banks (dtTicks k.lastRelease)
/-- The applied and back output images (R331): task, apply instant, whether it overran, contents. -/
def Mod.ownImages (m : Mod) : List (Nat × BitVec 64 × Bool × List OutItem) :=
  (List.range 16).flatMap fun t =>
    let k := m.task t
    (match k.applied with | some a => [(t, shortOf (dtimeOf a.1), false, a.2)] | none => []) ++
      k.pend.filterMap fun p => p.img.map fun i => (t, shortOf (dtimeOf p.at_), !p.inTime, i)
/-- The tasks that have been released: what the timer bases tell of (R331). -/
def Mod.released (m : Mod) : List Nat := (List.range 16).filter fun t => (m.taskCfg t).kind != 0 && (m.task t).releases != 0
/-- What the batch of a cycle of task `t` over a net holds (R331, R332). -/
def Mod.taskRecs (m : Mod) (net : Net) (st : NetSt) (t : Nat) (img : List OutItem) : List ShRec :=
  let mine := (enumFrom 0 net.insts).filter fun e => e.2.task == t
  ((enumFrom 0 net.sigs).filter fun e => e.2.writer == t).map (fun e => .cell e.1 (at_ st.cells e.1 {}))
  ++ mine.map (fun e => .block e.1 (at_ st.data e.1 {})) ++ [.output img]
  ++ (m.ce.cfg.filter fun d => loopTask m.cfg d.lnum == some t).map (fun d => m.loopRec d.lnum)
  ++ m.ptRecs (fun p => p.srckind == 0 && (match m.almIn p.pnum with | some e => e.2.task == t | none => false))
  ++ [m.timeBaseRec t]
  ++ (mine.filter fun e => e.2.type == 0x00A3).map (fun e => m.touRec (e.2.par 0))
  ++ [.pubSeq m.ae.seq]
/-- What the alarm stream of a millisecond holds (R331, R332): what its `SEQ` covers (R264). -/
def Mod.alarmRecs (m : Mod) : List ShRec :=
  m.ptRecs (fun p => p.srckind != 0 || m.ae.late.contains p.pnum) ++ m.groupRecs ++ [.pubSeq m.ae.seq]
/-- The whole shadow image (R331, R344). -/
def Mod.bulkRecs (m : Mod) : List ShRec :=
  (enumFrom 0 m.net.cells).map (fun e => .cell e.1 e.2) ++ (enumFrom 0 m.net.data).map (fun e => .block e.1 e.2)
  ++ m.ce.cfg.map (fun d => m.loopRec d.lnum) ++ m.ptRecs (fun _ => true) ++ m.groupRecs
  ++ ((enumFrom 0 m.tous).filter fun e => e.2.byBlock).map (fun e => m.touRec e.1)
  ++ m.ownImages.map (fun e => .image e.1 e.2.1 e.2.2.1 e.2.2.2) ++ m.released.map m.timeBaseRec ++ [.pubSeq m.ae.seq]

end Sys2Proof.Machine
end

