-- ==== Sys2Proof/Machine/TandemGlue.lean ====
section
/-! DEFINITION. Tandem redundancy against the rest of the module: the health word, roles, handover requests, detaching, the
shadow image as a standby commits it (10_tandem_redundancy.md). -/

namespace Sys2Proof.Machine

/-! Readings. -/

/-- The bank that runs. -/
def Mod.bank (m : Mod) : FwBank := if m.onB then m.bankB else m.bankA
/-- The running main firmware version. -/
def Mod.fwMain (m : Mod) : Nat := m.bank.main.version
/-- `ICRC` of the running image; 0 without one. -/
def Mod.icrc (m : Mod) : Nat := if m.cas.running then m.cfg.icrc else 0
/-- The plan hash as the twin link carries it. -/
def Mod.planHash (m : Mod) : BitVec 256 := BitVec.ofNat 256 (beNat m.plan.hash)
/-- The own `HELLO` (R330). -/
def Mod.hello (m : Mod) : Hello :=
  { fwMain := BitVec.ofNat 32 m.fwMain, shadowLo := BitVec.ofNat 32 m.bank.main.shadowLo,
    shadowHi := BitVec.ofNat 32 m.bank.main.shadowHi, icrc := BitVec.ofNat 32 m.icrc, planHash := m.planHash,
    excl := BitVec.ofNat 8 m.boot.excl, slotB := m.tan.slotB }
/-- An online change is in phases 1 to 5 (R149). -/
def Mod.changing (m : Mod) : Bool := decide (1 ≤ m.change.phase) && decide (m.change.phase ≤ 5)
/-- The ports of P1 to P4 in use (R346). -/
def Mod.portInUse (m : Mod) (p : Nat) : Bool :=
  (at_ m.cfg.netc.ports p {}).pen && (decide (p < 2) || (m.cfg.netc.nodes.any fun n => n.port == p + 1))
/-- A partner is present (R346). -/
def Mod.present (m : Mod) : Bool := m.tan.partnerPresent m.mono

/-- The corrected errors of the last hour of operating time (R346). -/
def Mod.eccRecent (m : Mod) : Nat := (m.tan.hl.ecc.filter fun t => decide (m.optime < t + 3600000)).length
/-- The health word (R346). -/
def Mod.healthWord (m : Mod) : BitVec 64 :=
  let t := m.tan
  let tested (i : Nat) : Bool := t.hl.tested.getLsbD i
  let down (p : Nat) : Bool := m.portInUse p && !(at_ m.eth.ports p {}).link && !m.testing (p + 1)
  let heard := t.tl.heard m.mono t.trec.loss || t.hb.heard m.mono t.trec.loss
  let bits := (List.range 8).map tested ++
    [decide (0 < m.eccRecent), tested 9, tested 10, tested 11, tested 12,
     m.present && (!t.lane0 && !m.testing 6 || tested 13), m.present && (!t.lane1 && !m.testing 7 || tested 14),
     m.present && t.tl.silent, m.present && t.hb.silent,
     decide (t.ilk.peer = .open_) && heard, !t.hl.ownPinOk, m.sup.vin1Ok != m.sup.vin2Ok, decide (105 < t.hl.tempC),
     m.cfg.netc.ptp.isSome && decide (m.ptp.quality ≠ .locked), down 0, down 1, down 2, down 3,
     tested 26, m.si.rep.faultCS, m.cas.degraded || !m.cas.present, decide (m.boot.excl ≠ 0)]
  BitVec.ofNat 64 (packBits bits + 2 ^ 32 * Nat.min 255 m.eccRecent + 2 ^ 40 * unsigned 8 (t.hl.tempC + 64))
/-- The module is fit (R347): by its score as last recomputed, its health word and its role as they stand. -/
def Mod.fit (m : Mod) : Bool := isFit m.healthWord m.tan.hl.score m.tan.trec.unfitScore (decide (m.tan.role = .standby) || m.act)
/-- The rate of the plan's shadows (R173). -/
def Mod.shadowRate (m : Mod) : Nat := match m.plan.plan with | some p => p.shadow | none => 0

/-! Control messages and orders. -/

/-- A control message goes out on the twin link, where a lane is up (R329, R330). -/
def Mod.control (m : Mod) (ctype : Nat) (rest : Bytes) : Mod := m.sendTl 3 .control (ctrlMsg ctype rest)
/-- `HELLO` goes out (R330). -/
def Mod.sendHello (m : Mod) : Mod := m.sendTl 3 .control (helloMsg m.hello)
/-- The image that the module is about to run goes out in its `HELLO`, with the plan made for it (R65, R149, R181; log entry 102). -/
def Mod.announce (m : Mod) (icrc : Nat) (hash : BitVec 256) : Mod :=
  m.sendTl 3 .control (helloMsg { m.hello with icrc := BitVec.ofNat 32 icrc, planHash := hash })
/-- A start is ordered (R70): the internal reset follows. -/
def Mod.orderStart (m : Mod) (o : ResetOrder) : Mod := { m with boot := { m.boot with order := some o } }

/-! Roles. -/

/-- What the partner has confirmed of the table banks no longer holds (R229). -/
def Mod.unconfirmTabs (m : Mod) : Mod :=
  { m with ce := { m.ce with tabSt := m.ce.tabSt.map fun t => { t with partnerOk := false } },
           eap := { m.eap with acks := m.eap.acks.filter fun a => match a.1 with | .ctab _ => false | .slot _ => true } }
/-- A module without its partner in `STANDBY` runs as `SOLO`; a pending handover is cancelled (R318, R340). The partner's table banks
are no longer known (R229). -/
def Mod.partnerLeft (m : Mod) : Mod :=
  let m := m.unconfirmTabs
  match m.tan.ho.pend with
  | some p =>
    let m1 := m.updTan fun t => { t with role := if t.role = .active then .solo else t.role,
                                         ho := { t.ho with pend := none, lastCause := if p.giving then 8 else t.ho.lastCause } }
    if p.giving then (m1.control 7 [8]).cmdDone 3 0 0 8 else m1.cmdDone 3 0 0 8
  | none => m.updTan fun t => { t with role := if t.role = .active then .solo else t.role }
/-- The partner has entered `STANDBY` (R318, R344). -/
def Mod.partnerJoined (m : Mod) : Mod :=
  m.updTan fun t => { t with role := if t.role = .solo then .active else t.role, sh := { t.sh with serving := false } }
/-- The module becomes `DETACHED` with a reason (R318, R320): its claim is released, a pending handover ends; with reason
`BOUNDARY` it restarts at once. -/
def Mod.detach (m : Mod) (reason : Nat) : Mod :=
  let m1 := if m.tan.ilk.ownClaim then m.releaseClaim else m
  let p := m1.tan.ho.pend.isSome
  let m2 := (m1.setRole .detached).updTan fun t => { t with
    detach := reason, ho := { t.ho with pend := none }, sh := { t.sh with attempt := 0, hdr := none, recs := [] },
    ilk := { t.ilk with openWaitAt := none } }
  let m3 := if p then ((m2.updTan fun t => { t with ho := { t.ho with lastCause := 8 } }).control 7 [8]).cmdDone 3 0 0 8 else m2
  if reason = 9 then m3.orderStart { cause := 4, cold := some true } else m3
/-- A resynchronisation starts (R344). -/
def Mod.startResync (m : Mod) (attempt : Nat) : Mod :=
  let m1 := (m.setRole .catchingUp).updTan fun t => { t with
    sh := { t.sh with attempt := attempt, startedAt := if attempt = 1 then m.mono else t.sh.startedAt, attemptAt := m.mono,
                      bulkDone := false, seenTasks := [], seenAlarm := false, rxSeq := none, hdr := none, recs := [],
                      images := [], bases := [], gapSeen := false } }
  m1.control 8 (natLe 4 m.tan.sh.cseq.toNat)
/-- The module enters `CATCHING_UP` (R318). -/
def Mod.catchUp (m : Mod) : Mod :=
  (m.updTan fun t => { t with detach := 0, ho := { t.ho with pend := none } }).startResync 1

/-- With one lane down a standby goes on only where the plan's shadow rate allows it, with none it cannot (R335, R320). While it waits on
`OPEN` under R324 the loss of both lanes leaves it. -/
def Mod.judgeLink (m : Mod) : Mod :=
  let t := m.tan
  if t.role ≠ .standby then m
  else if !m.linkUp then (if t.ilk.openWaitAt.isSome then m else m.detach 5)
  else if t.shadowPermitted m.shadowRate then m else m.detach 6

/-- The cell with which a signal starts (R90). -/
def startCell (s : SigCfg) : Cell :=
  { v := cutTo s.stype (BitVec.ofNat 96 s.init), q := if s.const then qMk 2 1 3 else qUnc 3 }
/-- A net as a cold start initialises it (R90, R100). -/
def startNet (n : Net) : NetSt :=
  { cells := n.sigs.map startCell, pub := n.sigs.map startCell, data := n.insts.map fun _ => {} }
/-- The checks of R344 step 1 against the partner's `HELLO`; what they decide of a module that is not to run. One that
joins from its start discards the data it has restored (R148). -/
def Mod.judgeHello (m : Mod) (h : Hello) : Mod :=
  match helloCheck m.hello h with
  | 0 => match m.tan.role with
    | .offline => ({ m with net := startNet m.cfg.net } : Mod).catchUp
    | .detached => if m.tan.detach = 2 ∨ m.tan.detach = 3 ∨ m.tan.detach = 0 then m.catchUp else m
    | _ => m
  | r => match m.tan.role with
    | .offline => m.detach r
    | .catchingUp => m.detach r
    | .standby => m.detach r
    | .detached => m
    | _ => m

/-! Planned handover. -/

/-- Device time of a cadence tick in units. -/
def tickUnits : Nat := 125000 * 2 ^ 30
/-- Milliseconds in units of device time. -/
def unitsMs (n : Nat) : Nat := n * 1000000 * 2 ^ 30
/-- The first cadence tick at or after a device time. -/
def tickFrom (u : Nat) : Nat := ceilDiv u tickUnits * tickUnits
/-- T_h (R340): the first cadence tick at least 20 ms ahead that lies at least 1 ms from a pending B. -/
def handoverTick (now : Nat) (b : Option Nat) : Nat :=
  let t := tickFrom (now + unitsMs 20)
  match b with
  | some b => if t < b + unitsMs 1 ∧ b < t + unitsMs 1 then tickFrom (b + unitsMs 1) else t
  | none => t
/-- The boundary of a change that is pending. -/
def Mod.pendingB (m : Mod) : Option Nat := if m.change.phase = 4 then m.change.b else none
/-- Why the holder of ACT refuses a handover: a cause of R603, in the order of R340. -/
def Mod.hoRefusal (m : Mod) : Option Nat :=
  if !m.tan.partnerStandby m.mono then some 4
  else if !m.tan.partnerFit then some 5
  else if m.changing then some 1
  else if m.tan.sh.serving then some 2
  else if (match m.tan.ho.lastAt with | some a => decide (m.mono < a + phS 10) | none => false) then some 3
  else if m.tan.ho.pend.isSome then some 9
  else none
/-- The holder of ACT judges a request (R340). -/
def Mod.judgeHo (m : Mod) (reason : Nat) : Mod :=
  match m.hoRefusal with
  | some c => ((m.updTan fun t => { t with ho := { t.ho with lastCause := c } }).control 7 [BitVec.ofNat 8 c]).cmdDone 3 0 0 c
  | none =>
    let th := dtimeOf (handoverTick m.tb.now m.pendingB)
    (m.updTan fun t => { t with ho := { t.ho with pend := some { th := th, reason := reason, giving := true }, lastCause := 0 } }).control
      5 (natLe 12 th.toNat)
/-- A planned handover is requested with a reason of R330: the holder of ACT judges its own request. -/
def Mod.requestHo (m : Mod) (reason : Nat) : Mod :=
  let m1 := (m.control 4 [BitVec.ofNat 8 reason]).updTan fun t => { t with ho := { t.ho with asked := some reason } }
  if m.act then m1.judgeHo reason else m1
/-- Handovers with reasons 2 and 3 of the last hour of operating time (R350). -/
def Mod.hoRecent (m : Mod) : List Nat := m.tan.ho.counted.filter fun t => decide (m.optime < t + 3600000)
/-- A handover with reason 2 or 3 may be requested: otherwise the acknowledgement is awaited (R350). -/
def Mod.requestCounted (m : Mod) (reason : Nat) : Mod :=
  if m.hoRecent.length < 3 then m.requestHo reason
  else if m.tan.ho.permit then (m.updTan fun t => { t with ho := { t.ho with permit := false, waitAck := false } }).requestHo reason
  else m.updTan fun t => { t with ho := { t.ho with waitAck := true } }
/-- A handover has taken place (R350, R577). -/
def Mod.noteHo (m : Mod) (reason : Nat) : Mod :=
  (m.updTan fun t => { t with
    ho := { t.ho with pend := none, asked := none, lastAt := some m.mono, swapFrom := none, revertFrom := none,
                      counted := if reason = 2 ∨ reason = 3 then m.hoRecent ++ [m.optime] else m.hoRecent } }).cmdDone 3 0 0 0

/-! What a standby commits. -/

/-- The cycle image of a committed batch joins those held for its task: images that a later one at or before `now` replaces go (R336). -/
def keepImages (l : List (Nat × BitVec 64 × Bool × List OutItem)) (e : Nat × BitVec 64 × Bool × List OutItem) (now : BitVec 64) :
    List (Nat × BitVec 64 × Bool × List OutItem) :=
  let all := l ++ [e]
  all.filter fun x => x.1 != e.1 || decide (0 < shortDiff x.2.1 now) ||
    !(all.any fun y => y.1 == x.1 && !y.2.2.1 && decide (shortDiff y.2.1 now ≤ 0) && decide (0 < shortDiff y.2.1 x.2.1))
/-- A candidate of the shadow image. -/
def shadowCand (k : FoShadow) : Cand := { node := k.node, pid := k.pid, pnum := k.pnum, tc := k.tc, sgran := k.sgran, align := k.align }
/-- A first-out group as the shadow image gives it. -/
def shadowFo (g : FoGroupShadow) (mono : Nat) : Fo :=
  { state := g.state.toNat, epoch := g.epoch, own := g.own.map shadowCand, cands := g.cands.map shadowCand, winner := g.winner.map shadowCand,
    simul := g.simul, partial_ := g.partial_, uncertain := g.uncertain, nsim := g.nsim, lastRst := g.lastRst,
    settleAt := g.settleLeft.map (mono + ·), partialAt := g.partialLeft.map (mono + ·) }
/-- One record of a batch is applied (R331 to R334). -/
def Mod.applyRec (m : Mod) (h : BatchHdr) : ShRec → Mod
  | .cell s c => { m with net := { m.net with cells := put m.net.cells s c, pub := put m.net.pub s c } }
  | .block i d => { m with net := { m.net with data := put m.net.data i d } }
  | .output items => m.updTan fun t => { t with sh := { t.sh with images := keepImages t.sh.images (h.task, h.apply, h.overrun, items) m.short } }
  | .image task apply overrun items => m.updTan fun t =>
    { t with sh := { t.sh with images := keepImages t.sh.images (task, apply, overrun, items) m.short } }
  | .loop n yPrev y0 k phase mode words =>
    let c1 : Ce := { m.ce with words := SMap.setList 0 (SMap.erase m.ce.words (n * 256) (n * 256 + 256)) (n * 256) (words.take 256) }
    let c2 := c1.updLoop n fun s => { s with k := k, y0 := y0.toInt, mode := mode, firstPending := false,
                                             phase := if phase = 1 then .clamp else if phase = 2 then .method else .none }
    let port := match c2.loopCfg n with | some d => d.oport | none => 0
    { m with ce := if port = 0 then c2 else
        { c2 with staged := SMap.set 0 c2.staged port yPrev, held := if c2.held.contains port then c2.held else port :: c2.held } }
  | .alarm p => match indexOf? (fun d : PtCfg => d.pnum == p.pnum) m.ae.cfg.points with
    | some i => { m with ae := { m.ae with pts := upd m.ae.pts i fun q =>
        { q with vis := p.vis.toNat, oos := p.oos, suppressed := p.suppressed, badq := p.badq, value := p.value,
                 shelved := p.shelf.map fun n => m.optime + n, held := p.held, cAt := p.cAt, onset := p.onset, cTq := p.cTq,
                 onTq := p.onTq, cAl := p.cAl, samples := p.samples, since := p.since,
                 a := p.cond, c := p.c, occ := p.occ, first := p.first, simul := p.simul } } }
    | none => m
  | .foGroup g => match m.foIndex g.gnum with
    | some i => m.updFo i fun _ => shadowFo g m.mono
    | none => m
  | .sgroup i active left badq => { m with ae := { m.ae with sgs := upd m.ae.sgs i fun _ => { active := active, left := left, badq := badq } } }
  | .timeBase task n r trig _ banks last =>
    let m1 := m.updTask task fun t =>
      { t with releases := BitVec.ofNat 32 n, lastRelease := dtOfTicks last, firstScan := t.firstScan && decide (n = 0),
               onlineChanged := t.onlineChanged && decide (last < dtTicks m.change.switchAt) }
    let m2 := { m1 with ce := { m1.ce with
      tabSt := mapFrom (fun i t => if t.bank1 = banks.getLsbD i then t else t.flip t.fresh) 0 m1.ce.tabSt } }
    m2.updTan fun t => { t with sh := { t.sh with bases := (task, n, r, trig, last) :: t.sh.bases.filter fun b => b.1 != task } }
  | .tou u target period lockReq armed =>
    m.updTou u fun k => { k with target := target, period := period, lockReq := lockReq, armed := armed, byBlock := true }
  | .pubSeq s => { m with ae := { m.ae with seq := s } }
  | .commit _ => m
/-- A record that a module holding ACT takes of a cycle that drains on its partner (R341): cells, blocks, the output image and units
armed; its own engines and time bases go on. -/
def drainRec : ShRec → Bool
  | .cell _ _ => true
  | .block _ _ => true
  | .output _ => true
  | .tou _ _ _ _ _ => true
  | _ => false
/-- See `Mod.applyRec`. -/
def Mod.commitRec (m : Mod) (h : BatchHdr) (r : ShRec) : Mod := if m.act && !drainRec r then m else m.applyRec h r
/-- The retained instances and cells of a task over a net (R144, R145). -/
def retainOf (net : Net) (st : NetSt) (t : Nat) : List RetInst × List RetCell :=
  let is := (enumFrom 0 net.insts).filterMap fun e =>
    if e.2.task = t ∧ e.2.retain then some (RetInst.mk e.2.iid e.2.type e.2.tver (at_ st.data e.1 {})) else none
  let cs := (enumFrom 0 net.sigs).filterMap fun e =>
    if e.2.writer = t ∧ e.2.retain then
      e.2.driver.map fun d => RetCell.mk (at_ net.insts d.1 { iid := 0, type := 0 }).iid d.2 e.2.stype (at_ st.cells e.1 {}).v
    else none
  (is, cs)
/-- The retained data of a task's cycle is written to MRAM with its commit mark, unless the supply forbids it (R77, R145). -/
def Mod.writeRetained (m : Mod) (net : Net) (st : NetSt) (t : Nat) : Mod :=
  if !m.sup.mayWrite then m
  else
    let r := retainOf net st t
    if r.1 = [] ∧ r.2 = [] then m
    else { m with ret := { m.ret with insts := m.ret.insts.filter (fun x => !r.1.any fun y => y.iid == x.iid) ++ r.1,
                                      cells := m.ret.cells.filter (fun x => !r.2.any fun y => y.iid == x.iid && y.port == x.port) ++ r.2,
                                      written := true, fw := m.fwMain } }
/-- The alarm states that a shadow gives are retained (R258); they follow the evaluation of its millisecond (R264). -/
def Mod.shadowedAlarms (m : Mod) (stream : Bool) : Mod :=
  (if stream then { m with ae := { m.ae with lastEval := dtimeOf (m.tb.now / unitsMs 1 * unitsMs 1) } } else m).keepAlarms
/-- A batch is committed in one step (R333, R334): retained data with it, and the mark of what a resynchronisation has seen since its
last bulk block (R344 step 4). -/
def Mod.commitBatch (m : Mod) (h : BatchHdr) (recs : List ShRec) : Mod :=
  let m0 := recs.foldl (fun k r => k.commitRec h r) m
  let m1 := if m0.act then m0 else m0.shadowedAlarms (h.btype == 2)
  let m2 := if h.btype = 1 then m1.writeRetained m1.cfg.net m1.net h.task
    else if h.btype = 3 then (List.range 16).foldl (fun k t => k.writeRetained k.cfg.net k.net t) m1 else m1
  (m2.updTan fun t => { t with
    sh := { t.sh with cseq := h.bseq, rxSeq := some h.bseq, hdr := none, recs := [],
                      bulkDone := t.sh.bulkDone || h.btype == 3,
                      seenTasks := if h.btype = 3 then [] else if h.btype = 1 ∧ t.sh.bulkDone ∧ !t.sh.seenTasks.contains h.task then h.task :: t.sh.seenTasks else t.sh.seenTasks,
                      seenAlarm := h.btype ≠ 3 && (t.sh.seenAlarm || (h.btype == 2 && t.sh.bulkDone)) } }).count 0x41 0 1
/-- A resynchronisation is complete (R344 step 4): a batch of every task, and of the alarm stream, has come after the bulk blocks. -/
def Mod.resyncDone (m : Mod) : Bool :=
  m.tan.sh.bulkDone && m.tan.sh.seenAlarm &&
    ((List.range 16).all fun t => (m.taskCfg t).kind == 0 || m.tan.sh.seenTasks.contains t)

/-! Handing over. -/

/-- The planned handover in which this module gives up ACT is due at device time `u` (R341). -/
def Mod.hoReleaseDue (m : Mod) (u : Nat) : Bool :=
  m.act && (match m.tan.ho.pend with | some p => p.giving && p.acked && decide (dtTicks p.th * 2 ^ 14 ≤ u) | none => false)
/-- What a module that has executed holds as if committed: its own last cycles (R336). -/
def Mod.ownBases (m : Mod) : List (Nat × Nat × Nat × Bool × Nat) :=
  m.released.map fun t => (t, (m.task t).releases.toNat, m.remainder t, false, dtTicks (m.task t).lastRelease)
/-- T_h on the module that gives up ACT (R341): its claim is released, it is `STANDBY` at once and receives the partner's shadows, until
which it holds its own last cycles. The batches of the cycles that drain go on in their own sequence. -/
def Mod.hoRelease (m : Mod) : Mod :=
  match m.tan.ho.pend with
  | none => m
  | some p =>
    (m.releaseClaim.noteHo p.reason).updTan fun t => { t with
      role := .standby
      sh := { t.sh with rxSeq := none, hdr := none, recs := [], images := m.ownImages, bases := m.ownBases, cseq := t.sh.bseq, flying := [],
                        gapSeen := false } }

end Sys2Proof.Machine
end

