-- ==== Sys2Proof/Machine/TaskGlue.lean ====
section
/-! DEFINITION. Tasks against the rest of the module: starting a net, releases and triggers, overruns, the commit window, and the
switch of an online change or of a re-plan (04_task_cycle_and_online_change.md, 05_placement.md R182, 02 R60 to R63). -/

namespace Sys2Proof.Machine

/-! Nets. -/

/-- What becomes of an instance whose identity a former net, or the retained area, knows as a type and version (R155). -/
inductive Carry where
  | carried
  | migrated
  | downgraded
  | typeChanged
  | fresh
  deriving DecidableEq, Repr
/-- The outcome of R155. -/
def carryKind (x : InstCfg) : Option (Nat × Nat) → Carry
  | none => .fresh
  | some (ty, v) => if ty ≠ x.type then .typeChanged else if v = x.tver then .carried else if v < x.tver then .migrated else .downgraded
/-- The state is kept. -/
def Carry.keeps : Carry → Bool
  | .carried => true
  | .migrated => true
  | _ => false
/-- The data of an instance after the outcome (R156): the library's one migration, of `PID` to version 2, maps the state and TF = 0. -/
def Carry.data (k : Carry) (d : InstData) : InstData :=
  match k with
  | .carried => { d with mapTf := false }
  | .migrated => { d with migrated := true, mapTf := true }
  | _ => {}
/-- The signal that output `port` of an instance drives. -/
def outSig (x : InstCfg) (port : Nat) : Option Nat :=
  let n := match libRow x.type with | some r => r.outs.length | none => 0
  (at_ (x.binds.drop (x.binds.length - n)) port {}).sig
/-- The old signal from which a signal of the new net takes value and quality (R158). -/
def sigFrom (old new : Net) (s : SigCfg) : Option Nat :=
  match s.driver with
  | none => none
  | some (i, port) =>
    let x := at_ new.insts i { iid := 0, type := 0 }
    match indexOf? (fun o : InstCfg => o.iid == x.iid) old.insts with
    | none => none
    | some j =>
      let o := at_ old.insts j { iid := 0, type := 0 }
      if (carryKind x (some (o.type, o.tver))).keeps then
        (outSig o port).bind fun k => if (at_ old.sigs k { stype := 0 }).stype = s.stype then some k else none
      else none
/-- The outcome for each instance of the new net, with its old index. -/
def carries (old new : Net) : List (Carry × Nat) :=
  new.insts.map fun x =>
    match indexOf? (fun o : InstCfg => o.iid == x.iid) old.insts with
    | some j => let o := at_ old.insts j { iid := 0, type := 0 }; (carryKind x (some (o.type, o.tver)), j)
    | none => (.fresh, 0)
/-- The state of the new net at the switch (R155 to R158). -/
def switchNet (old new : Net) (st : NetSt) : NetSt :=
  let cell (f : NetSt → List Cell) (s : SigCfg) : Cell :=
    if s.const then startCell s else match sigFrom old new s with | some k => at_ (f st) k {} | none => startCell s
  { cells := new.sigs.map (cell (·.cells)), pub := new.sigs.map (cell (·.pub)),
    data := (new.insts.zip (carries old new)).map fun ((x, k) : InstCfg × Carry × Nat) =>
      let d := k.1.data (at_ st.data k.2 {})
      if k.1.keeps then { d with moved := d.moved || (at_ old.insts k.2 { iid := 0, type := 0 }).task != x.task } else d }
/-- The cells of task `t` as it leaves them at the end of a cycle (R91). -/
def publishCells (n : Net) (st : NetSt) (t : Nat) : NetSt :=
  { st with pub := mapFrom (fun s p => if (at_ n.sigs s { stype := 0 }).writer = t then at_ st.cells s {} else p) 0 st.pub }
/-- The retained data restored into a started net, and the number of entries without a match (R143, R144); the last usable values of
(P) ports count from the start (R87). -/
def restoreNet (n : Net) (st : NetSt) (r : RetArea) : NetSt × Nat :=
  let inst (x : InstCfg) : Option RetInst := r.insts.find? fun e => e.iid == x.iid
  let data := (n.insts.zip st.data).map fun ((x, d) : InstCfg × InstData) =>
    match inst x with
    | some e => let k := carryKind x (some (e.type, e.tver))
                if x.retain ∧ k.keeps then { k.data e.data with ran := false, moved := false, lastP := [] } else d
    | none => d
  let cell (s : SigCfg) (c : Cell) : Cell :=
    match s.retain, s.driver with
    | true, some (i, port) =>
      let x := at_ n.insts i { iid := 0, type := 0 }
      let kept := match inst x with | some e => (carryKind x (some (e.type, e.tver))).keeps | none => true
      match r.cells.find? fun e => e.iid == x.iid && e.port == port && e.stype == s.stype with
      | some e => if kept then { v := e.v, q := qUnc 1 } else c
      | none => c
    | _, _ => c
  let cells := (n.sigs.zip st.cells).map fun ((s, c) : SigCfg × Cell) => cell s c
  let lost := (r.insts.filter fun e => !(n.insts.any fun x => x.iid == e.iid && x.retain)).length +
    (r.cells.filter fun e => !(n.sigs.any fun s => s.retain && (match s.driver with
      | some d => (at_ n.insts d.1 { iid := 0, type := 0 }).iid == e.iid && d.2 == e.port | none => false))).length
  ({ st with data := data, cells := cells, pub := cells }, lost)

/-- The entries of the retained area that a net matches: the others are dropped (R144). -/
def RetArea.matching (r : RetArea) (n : Net) : RetArea :=
  { r with insts := r.insts.filter fun e => n.insts.any fun x => x.iid == e.iid && x.retain
           cells := r.cells.filter fun e => n.sigs.any fun s => s.retain && (match s.driver with
             | some d => (at_ n.insts d.1 { iid := 0, type := 0 }).iid == e.iid && d.2 == e.port | none => false) }

/-! Plans and boundaries. -/

/-- The inputs of the planner for a configuration (R165, R179). -/
def Mod.planIn (m : Mod) (c : Cfg) (measured : List (Nat × Nat)) (old : Option Nat) : PlanIn :=
  { cfg := c, imgLen := (m.cas.hdr.slot m.cas.hdr.active).len, fwMain := m.fwMain, excl := m.boot.excl, measured := measured,
    tandem := m.otp.tandem, old := old }
/-- G of a task in ns (R132). -/
def Mod.taskGap (m : Mod) (t : Nat) : Nat := taskG (m.planIn m.cfg [] none) t
/-- The first tick number at or after `n` that satisfies N mod PERIOD = PHASE (R130). -/
def nextRelease (c : TaskCfg) (n : Nat) : Nat := n + (c.phase + c.period - n % c.period) % c.period
/-- The task with the longest period (R153). -/
def longest (ts : TasksCfg) : Option Nat :=
  (List.range 16).foldl (fun b t => if (ts.task t).kind ≠ 1 then b else match b with
    | some o => if (ts.task o).period < (ts.task t).period then some t else b
    | none => some t) none
/-- The common boundary at or after a device time in units (R153). -/
def boundaryFrom (ts : TasksCfg) (u : Nat) : Nat :=
  let n := ceilDiv u tickUnits
  match longest ts with
  | some t => nextRelease (ts.task t) n * tickUnits
  | none => n * tickUnits
/-- A plan takes effect: the loops' places with it. It was made, not taken from the journal (R187). -/
def Mod.usePlan (m : Mod) (p : Plan) : Mod :=
  { m with plan := { m.plan with plan := some p, hash := p.hash, state := 2, cached := false, pinsIgnored := m.plan.pinsIgnored || p.pinsIgnored } }
/-- The planner has rejected (R185, R186). -/
def Mod.planRejected (m : Mod) (r : Reject) : Mod := { m with plan := { m.plan with rej := some r, state := 3 } }
/-- A plan without measured costs enters the journal (R180), as soon as the supply allows it (R77). -/
def Mod.keepPlan (m : Mod) (p : Plan) : Mod :=
  if p.measured then m else m.setJrn fun j => { j with plan := some p }

/-! The commit window (R60 to R63). -/

/-- The length of the window in ms (R60). -/
def windowMs (c : Cfg) : Nat :=
  let p := match longest c.tasks with | some t => (c.tasks.task t).period | none => 0
  Nat.max (ceilDiv (c.ident.cwin * p) 8) (c.ident.swin * 1000)
/-- The window counts from now, where it is open, does not yet run, and the module runs the image (R60). -/
def Mod.windowRuns (m : Mod) : Mod :=
  if m.windowOpen && m.cas.winFrom.isNone && m.runsImage then
    { m with cas := { m.cas with winFrom := some m.mono, winMs := windowMs m.cfg, lastStore := m.mono } }
  else m
/-- The image in a slot. -/
def Mod.slotImage (m : Mod) (n : Nat) : Bytes := m.cas.read (slotBase n) (Nat.min 6291456 (m.cas.hdr.slot n).len)
/-- An online change to the image of slot `n` begins (R149); `how` names the header of phase 3. -/
def Mod.beginChange (m : Mod) (n how : Nat) : Mod :=
  { m with change := { m.change with phase := 1, slot := n, how := how, peer := 0, inWindow := m.change.phase == 6, cfg := some (parseCfg (m.slotImage n)), plan := none,
                                     partnerAck := false, proposals := 0, b := none },
           ce := { m.ce with tabSt := m.ce.tabSt.map fun t => { t with prep := false } },
           plan := { m.plan with state := 1 } }
/-- The rollback header is written (R63). -/
def Mod.rolledBack (m : Mod) : Mod :=
  let k := m.changeRecorded m.cas.hdr.rollback fun j => { j with servedMs := 0, trials := 0 }
  { k with cas := { k.cas with winFrom := none } }.log 3 5 0x16 0 []
/-- The journal keeps the rollback of `slot` until the switch that it leads to, or a start, whose cause it gives (R63). -/
def Mod.recordRollbackOf (m : Mod) (slot : Nat) : Mod :=
  if m.sup.mayWrite then m.setJrn fun j => { j with pend := 2, failedSlot := slot } else m
/-- The way back from a failed trial by a restart (R63), of which the partner hears in the `HELLO` (R65). -/
def Mod.rollbackByRestart (m : Mod) : Mod :=
  (if m.tan.role = .active ∧ m.cas.hdr.active < 8 then m.announce (m.cas.hdr.slot m.cas.hdr.active).icrc m.planHash else m).orderStart
    { cause := 5, cold := some true }
/-- The trial version fails its window while the module runs on (R61, R63): the rollback is recorded, the header written, and the
module switches back, online where R53 allows it, else by a restart. -/
def Mod.failWindow (m : Mod) : Mod :=
  if !m.windowOpen then m
  else
    let prev := m.cas.hdr.previous
    let m1 := m.recordRollback.rolledBack.recordRollbackOf m.cas.hdr.active
    if prev < 8 ∧ isOnline m.cfg.secs (parseCfg (m.slotImage prev)).secs ∧ !m.changing then m1.beginChange prev 2
    else m1.rollbackByRestart

/-! Releases. -/

/-- The core pair that the plan gives a task. -/
def Mod.coreOf (m : Mod) (t : Nat) : Nat := match m.plan.plan with | some p => at_ p.core t 255 | none => 255
/-- The task that runs on a core pair: the one of the highest priority whose cycle is in progress there, the first released among equals
(R129). -/
def Mod.onCore (m : Mod) (c : Nat) : Option Nat :=
  let key (t : Nat) : Nat × Nat :=
    (if (m.taskCfg t).kind = 3 then 1000 else (m.taskCfg t).prio, match (m.task t).running with | some k => k.from_ | none => 0)
  (List.range 16).foldl (fun b t =>
    if (match (m.task t).running with | some k => !k.away && k.core == c | none => false) then
      match b with
      | some o => if (key t).1 < (key o).1 ∨ (key t).1 = (key o).1 ∧ (key t).2 < (key o).2 then some t else b
      | none => some t
    else b) none
/-- A cycle takes the core pair, or leaves it with what it has executed. -/
def Cycle.occupy (k : Cycle) (on : Bool) (mono : Nat) : Cycle :=
  match on, k.onAt with
  | true, none => { k with onAt := some mono }
  | false, some a => { k with ran := k.ran + (mono - a), onAt := none }
  | _, _ => k
/-- Core pair `c` goes to the cycle that R129 names; every other cycle in progress there waits. -/
def Mod.schedule (m : Mod) (c : Nat) : Mod :=
  let o := m.onCore c
  let next (t : Nat) (y : Cycle) : Cycle := if y.core = c ∧ !y.away then y.occupy (decide (o = some t)) m.mono else y
  { m with tasks := mapFrom (fun t k => { k with running := k.running.map (next t) }) 0 m.tasks }
/-- A released task preempts a running task of lower priority on its core pair: counted for the task preempted (R129, R538). -/
def Mod.preempt (m : Mod) (t : Nat) : Mod :=
  let c := m.taskCfg t
  if c.kind = 3 then m
  else match m.onCore (m.coreOf t) with
    | some o => if (m.taskCfg o).kind = 3 ∨ c.prio < (m.taskCfg o).prio then m.count 0x22 o 1 else m
    | none => m
/-- A node's frame as a release latches it (R133, R134): that of the release's cycle, or none; misses of a node in cycle count (R411, R423). -/
def SpokeNode.latch (k : SpokeNode) (rel : BitVec 32) : SpokeNode :=
  let ok := k.inCycle == some rel && k.st == 3
  { k with latOk := ok, latStat := k.nstat, latIn := k.inputs,
           missRun := if ok ∨ k.st ≠ 3 then 0 else k.missRun + 1, miss := if ok ∨ k.st ≠ 3 then k.miss else k.miss + 1 }
/-- A break of the line of Spoke port `sp` is detected (R413): the port runs split from the next cycle on; a solo master has no split. -/
def Mod.lineBreak (m : Mod) (sp : Nat) : Mod :=
  if m.tan.role = .active ∧ m.act then
    { m with eth := { m.eth with spoke := upd m.eth.spoke sp fun p => { p with split := true, breakSeen := true } } }
  else m
/-- The inputs of the Spoke nodes on ports locked to a task are latched at its release, for that task and for every other (R133, R134);
every node beyond some position missing while those before it are present is a break (R413). -/
def Mod.latchSpoke (m : Mod) (t : Nat) (rel : BitVec 32) : Mod :=
  let locked (n : NodeCfg) : Bool := m.cfg.tasks.lockOf n.port == some t
  let m1 : Mod := { m with eth := m.cfg.netc.nodes.foldl (fun e n => if locked n then e.updNode n.node fun k => k.latch rel else e) m.eth }
  [0, 1].foldl (fun k sp =>
    let ns := spokeNodes k.cfg.netc sp
    let up := (if k.tan.slotB then ns.reverse else ns).filterMap fun n =>
      let s := k.eth.node n.node
      if s.st = 3 then some s.latOk else none
    if k.cfg.tasks.lockOf (sp + 3) = some t ∧ breakPattern up then k.lineBreak sp else k) m1
/-- The state of an instance that task `t` takes over from another task is not complete: that task's last old cycle is in progress (R154,
R157). -/
def Mod.transferOpen (m : Mod) (t : Nat) : Bool :=
  match m.change.old with
  | none => false
  | some o => m.cfg.net.insts.any fun x => x.task == t && (o.1.insts.any fun y => y.iid == x.iid && y.task != t &&
      (match (m.task y.task).running with | some c => c.old | none => false))
/-- Task `t` is released at device time `u` (R130 to R139): its net is executed on the inputs as they stand; the tasks that its
`TASK_TRIG` blocks release. A release while a cycle runs, or while a transfer of state is not complete, is skipped. -/
def Mod.releaseTask (m : Mod) (t u : Nat) : Mod × List Nat :=
  let c := m.taskCfg t
  let rel := dtimeOf u
  let num := (m.task t).releases + 1
  let applyAt := u + c.oofs * 1000 * unitsPerNs
  let dl := applyAt - m.taskGap t * unitsPerNs
  let m1 := ((m.count 0x20 t 1).windowRuns).updTask t fun k =>
    { k with releases := num, lastRelease := rel, lastTick := u / tickUnits, lastMono := some m.mono }
  if (m.task t).running.isSome || m.transferOpen t then
    (m1.updTask t fun k =>
      { k with skipped := k.skipped + 1, pend := k.pend ++ [{ rel := num, at_ := applyAt, dl := dl, skipped := true }] }, [])
  else
    let m2 := m1.preempt t
    let r := m2.runNet m2.cfg.net m2.net t rel
    let m3 : Mod := { r.m with net := r.st }
    ((m3.updTask t fun k =>
      { k with running := some { rel := num, relAt := rel, from_ := m.mono, out := r.out, dl := if c.kind = 3 then none else some dl,
                                 core := m.coreOf t },
               pend := if c.kind = 3 then k.pend else k.pend ++ [{ rel := num, at_ := applyAt, dl := dl }],
               firstScan := false, onlineChanged := false, repeatOf := none }).schedule (m.coreOf t), r.trig)
/-- Triggered `EVENT` tasks are released, and those that they release in turn (R136); a trigger that may release nothing is missed. -/
def Mod.releaseEvents : Nat → List Nat → Mod → Mod
  | 0, _, m => m
  | _ + 1, [], m => m
  | fuel + 1, t :: ts, m0 =>
    let m := m0.updTask t fun k => { k with asked := false }
    if (m.task t).halted then Mod.releaseEvents fuel ts m
    else if m.eventReady t then
      let r := m.releaseTask t m.tb.now
      Mod.releaseEvents fuel (ts ++ r.2) r.1
    else Mod.releaseEvents fuel ts (m.updTask t fun k => { k with missed := k.missed + 1 })
/-- Rounds of `TASK_TRIG` releases that one instant can hold. -/
def trigFuel : Nat := 256
/-- An event of a trigger class has happened (R136): tasks that name it are released, or, in a module that does not execute, the
trigger is noted for a takeover (R337). `q` judges the qualifier. -/
def Mod.trigger (m : Mod) (cls num : Nat) (q : Nat → Bool) : Mod :=
  let hit (t : Nat) : Bool :=
    let c := m.taskCfg t
    c.kind == 2 && c.trig / 2 ^ 24 == cls && c.trig % 2 ^ 16 == num && q (c.trig / 2 ^ 16 % 256)
  let ts := (List.range 16).filter hit
  if m.executing then Mod.releaseEvents trigFuel ts m
  else ts.foldl (fun k t => k.updTask t fun w => { w with lastTrig := some k.dt }) m
/-- The triggers of alarm points that have become active. -/
def Mod.alarmTriggers (m : Mod) (risen : List Nat) : Mod := risen.foldl (fun k p => k.trigger 3 p fun _ => true) m
/-- The `CYCLIC` tasks that a tick releases, in ascending number (R130, R131). -/
def Mod.cyclicDue (m : Mod) (n : Nat) : List Nat :=
  (List.range 16).filter fun t =>
    let c := m.taskCfg t
    c.kind == 1 && n % c.period == c.phase && decide ((m.task t).lastTick < n) && !(m.task t).halted
/-- A halted task is not released; its release number still advances, so that Δ counts from its last execution (R141; DEDUCED, log
entry 16). -/
def Task.passBy (c : TaskCfg) (n : Nat) (k : Task) : Task :=
  if c.kind = 1 ∧ k.halted ∧ n % c.period = c.phase ∧ k.lastTick < n then { k with releases := k.releases + 1, lastTick := n } else k
/-- The Spoke cycles that tick `n` completes: those of the locking tasks whose releases fall on it, made, skipped or passed by (R133,
R134). -/
def Mod.latchPorts (m : Mod) (n : Nat) : Mod :=
  (List.range 16).foldl (fun (k : Mod) t =>
    let c := m.taskCfg t
    if c.kind = 1 ∧ n % c.period = c.phase ∧ (m.task t).lastTick < n ∧ (m.cfg.tasks.lockP3 = some t ∨ m.cfg.tasks.lockP4 = some t) then
      k.latchSpoke t ((m.task t).releases + 1)
    else k) m
/-- The releases of tick `n`. -/
def Mod.releaseCyclic (m : Mod) (n : Nat) : Mod :=
  let ml := m.latchPorts n
  let m0 : Mod := { ml with tasks := mapFrom (fun t k => Task.passBy (m.taskCfg t) n k) 0 ml.tasks }
  let r := (m0.cyclicDue n).foldl (fun (r : Mod × List Nat) t =>
    let q := r.1.releaseTask t (n * tickUnits)
    (q.1, r.2 ++ q.2)) (m0, [])
  Mod.releaseEvents trigFuel r.2 r.1
/-- A `BACKGROUND` task may start a cycle. -/
def Mod.bgWaits (m : Mod) (t : Nat) : Bool :=
  (m.taskCfg t).kind == 3 && (m.task t).running.isNone && !(m.task t).halted && !m.transferOpen t
/-- The `BACKGROUND` task whose turn it is on core pair `c`, which no cycle occupies (R129): round robin, the one whose last cycle
started first. -/
def Mod.bgNext (m : Mod) (c : Nat) : Option Nat :=
  let last (t : Nat) : Nat := match (m.task t).lastMono with | some a => a + 1 | none => 0
  if (m.onCore c).isSome then none
  else ((List.range 16).filter fun t => m.coreOf t == c && m.bgWaits t).foldl (fun (b : Option Nat) t => match b with
    | some o => if last t < last o then some t else b
    | none => some t) none
/-- The next `BACKGROUND` cycle of a core pair starts (R137). -/
def Mod.startBackground (m : Mod) (c : Nat) : Mod :=
  match m.bgNext c with
  | some t => let r := m.releaseTask t m.tb.now; Mod.releaseEvents trigFuel r.2 r.1
  | none => m
/-- `BACKGROUND` cycles start on the core pairs that are free, in a module that executes (R317). -/
def Mod.startBackgrounds (m : Mod) : Mod := if m.executing then (List.range 4).foldl Mod.startBackground m else m

/-! Overruns. -/

/-- The task is halted (R140): a terminal action, so a trial version fails its window (R61). -/
def Mod.haltTask (m : Mod) (t : Nat) : Mod :=
  (m.updTask t fun k => { k with halted := true, haltPolicy := true }).failWindow
/-- The action of `REPLAN` in a solo module (R140, R182): the plan with the measured cost takes effect at the next common
boundary at least 10 ms ahead; a second run, or an infeasible plan, halts the task. A cycle of the run that still executes
counts with the time that it has executed so far (DEDUCED, log entry 9). -/
def Mod.replanTask (m : Mod) (t : Nat) : Mod :=
  if m.plan.measured.any (fun e => e.1 == t) then m.haltTask t
  else
    let alive := match (m.task t).running with
      | some c => (c.occupy false m.mono).ran * 5 / 8
      | none => 0
    let ms := m.plan.measured ++ [(t, Nat.max (m.task t).runMax alive + 4000)]
    match makePlan (m.planIn m.cfg ms none) with
    | .inr r => (m.planRejected r).haltTask t
    | .inl p =>
      let m1 := m.updTask t fun k => { k with replanned := true, consec := 0, runMax := 0 }
      { m1 with plan := { m1.plan with measured := ms, replans := Nat.min 255 (m1.plan.replans + 1),
                                       next := some (p, boundaryFrom m1.cfg.tasks (m1.tb.now + unitsMs 10)) } }
/-- The action of `HANDOVER` (R140). -/
def Mod.overrunHandover (m : Mod) (t : Nat) : Mod :=
  let clean := match m.tan.bell with | some b => b.health.toNat % 2 ^ 30 == 0 | none => false
  if m.tan.partnerStandby m.mono && clean then (m.requestHo 4).failWindow else m.haltTask t
/-- The third consecutive overrun (R140). -/
def Mod.overrunLimit (m : Mod) (t : Nat) : Mod :=
  let m1 := m.log 4 5 0x20 t []
  match (m.taskCfg t).ovpol with
  | 0 => m1.updTask t fun k => { k with consec := 0, runMax := 0 }
  | 1 => if m1.tan.role = .solo then m1.replanTask t else m1.overrunHandover t
  | 2 => m1.haltTask t
  | _ => m1.overrunHandover t
/-- An apply instant at which no finished cycle is applied (R135, R139, R140). -/
def Mod.overrun (m : Mod) (t : Nat) : Mod :=
  let m1 := (m.updTask t fun k => { k with overruns := k.overruns + 1, consec := Nat.min 15 (k.consec + 1), margin := some 0 }).count 0x21 t 1
  if (m1.task t).consec = 3 then m1.overrunLimit t else m1

/-! The switch of an online change. -/

/-- The ER records of the outcomes (R155): one for each instance migrated, downgraded, of another type or removed; after 256
removals one record with the number of the others. -/
def Mod.logCarries (m : Mod) (old new : Net) : Mod :=
  let ks := (new.insts.zip (carries old new))
  let m1 := ks.foldl (fun (k : Mod) (e : InstCfg × Carry × Nat) => match e.2.1 with
    | .migrated => k.log 3 2 0x11 e.1.iid.toNat []
    | .downgraded => k.log 3 4 0x12 e.1.iid.toNat []
    | .typeChanged => k.log 3 4 0x13 e.1.iid.toNat []
    | _ => k) m
  let gone := old.insts.filter fun o => !(new.insts.any fun x => x.iid == o.iid)
  let m2 := (gone.take 256).foldl (fun k o => k.log 3 2 0x14 o.iid.toNat []) m1
  let m3 := if 256 < gone.length then m2.log 3 2 0x14 0 (natLe 4 (gone.length - 256)) else m2
  let n (p : Carry → Bool) : Nat := (ks.filter fun e => p e.2.1).length
  { m3 with change := { m3.change with carried := n (· == .carried), migrated := n (· == .migrated),
                                       initialised := n (fun k => !k.keeps), removed := gone.length } }
/-- A task of the new net: released again where it was halted (R141), `ONLINE_CHANGED` in its first new cycle, a cycle in
progress goes on under the old net (R154). -/
def Task.onSwitch (k : Task) : Task :=
  { k with halted := false, onlineChanged := true, running := k.running.map fun c => { c with old := true } }
/-- Cycles under the old net are in progress. -/
def Mod.oldRunning (m : Mod) : Bool := m.tasks.any fun k => match k.running with | some c => c.old | none => false
/-- Phase 5 ends with the last old cycle: the window of a trial version follows (R149). -/
def Mod.changeSettle (m : Mod) : Mod :=
  if m.change.phase = 5 ∧ !m.oldRunning then
    { m with change := { m.change with phase := if m.cas.hdr.commit = 1 then 6 else 0, old := none, cfg := none, plan := none } }
  else m
/-- Some trim entry of a channel is ignored for its serial (R488). -/
def Mod.trimStale (m : Mod) : Bool :=
  m.cfg.trims.any fun t => t.serial != 0 && t.serial != m.otp.serial.toNat && (t.pos == 0 || t.pos == (if m.tan.slotB then 2 else 1))
/-- The configuration switches at B (R153 to R160). The control and alarm engines follow at their own instants. -/
def Mod.switchCfg (m : Mod) (c : Cfg) (p : Option Plan) : Mod :=
  let old := m.cfg
  let differ := secsDiffer old.secs c.secs
  let m1 := m.logCarries old.net c.net
  let m2 : Mod := { m1 with
    cfg := c
    net := switchNet old.net c.net m.net
    ret := m1.ret.matching c.net
    tasks := m1.tasks.map Task.onSwitch
    change := { m1.change with phase := 5, old := some (old.net, m.net), cePend := differ.contains 6 || differ.contains 7 || (match p with | some p => p.loops != m1.ce.place | none => false),
                               ceLoops := differ.contains 6, ceTabs := differ.contains 7,
                               aePend := differ.contains 8 } }
  let m2n : Mod := { m2 with plan := { m2.plan with next := none } }
  let m3 := match p with | some p => m2n.usePlan p | none => m2n
  let m4 : Mod := { m3 with an := { m3.an with trimStale := m3.an.trimStale || m3.trimStale } }
  let m5 := ((({ m4 with cas := { m4.cas with rolledBack := decide (2 ≤ m4.change.how) } } : Mod).setJrn fun j =>
    { j with pend := if j.pend = 2 ∧ 2 ≤ m4.change.how ∧ j.failedSlot ≠ m4.cas.hdr.active ∧ !m4.cas.pendW.contains .header ∧
      !m4.cas.hdrFailed then 0 else j.pend }).cmdDone
    1 0 0 0).cmdDone 2 0 0 0
  (if m5.plan.hash = m.plan.hash then m5 else m5.sendHello).judgeLink.windowRuns.changeSettle
/-- B of an online change is reached (R154). -/
def Mod.switchDue (m : Mod) (u : Nat) : Bool :=
  m.change.phase == 4 && (match m.change.b with | some b => decide (b ≤ u) | none => false)
/-- The batch of a task that no cycle of its own brings to a newcomer in time: as its last cycle left it (R344 step 4; log entry 144). -/
def Mod.standingBatch (m : Mod) (t : Nat) : Mod :=
  let a := (m.task t).applied.getD (m.tb.now, [])
  m.sendBatch 1 t false (m.task t).releases (shortOf (dtimeOf a.1)) (m.taskRecs m.cfg.net m.net t a.2)
/-- The holder of ACT serves a resynchronisation (R344): it sends the whole shadow image as a bulk batch, and after it a batch of each task
that is not `CYCLIC`. -/
def Mod.serveResync (m : Mod) : Mod :=
  let m1 := (m.updTan fun t => { t with sh := { t.sh with serving := true, waiting := false } }).sendBatch 3 0xFF false 0 0 m.bulkRecs
  ((List.range 16).filter fun t => 2 ≤ (m.taskCfg t).kind).foldl Mod.standingBatch m1
/-- The switch of an online change at B. The plan of the new image supersedes a re-plan of the old one, for which a resynchronisation may
wait (R182). -/
def Mod.switchAtB (m : Mod) : Mod :=
  match m.change.cfg with
  | some c => let k := m.switchCfg c m.change.plan; if k.tan.sh.waiting then k.serveResync else k
  | none => m
/-- A re-plan takes effect (R182): an instance that moves to another core pair or tier counts Δ in elapsed time (R157). -/
def Mod.replan (m : Mod) (p : Plan) : Mod :=
  let old := match m.plan.plan with | some o => o.insts | none => []
  let shifted (x : InstCfg) : Bool := (old.find? fun e => e.1 == x.iid.toNat) != (p.insts.find? fun e => e.1 == x.iid.toNat)
  let m1 := (m.usePlan p).judgeLink
  { m1 with plan := { m1.plan with next := none },
            change := { m1.change with cePend := m1.change.cePend || (match m.plan.plan with | some o => o.loops != p.loops | none => true) },
            net := { m1.net with data := (m1.cfg.net.insts.zip m1.net.data).map fun ((x, d) : InstCfg × InstData) =>
              if (shifted x) = true then { d with moved := true } else d } }

/-! The switch of the control engine and of the alarm engine. -/

/-- The bytes that R216 counts for a loop. -/
def loopMoveBytes (c : Ce) (place : List (Nat × Nat × Nat)) (d : LoopCfg) : Nat :=
  match c.cfg.find? fun o => o.lid == d.lid && o.slayout == d.slayout with
  | none => 1600
  | some o =>
    let was := (c.place.find? fun p => p.1 == o.lnum).map (·.2)
    let nxt := (place.find? fun p => p.1 == d.lnum).map (·.2)
    if was != nxt || o.prog != d.prog then 1600 else if o.raw = d.raw then 0 else 64
/-- The hold that moving to the loops `loops` at `place` takes (R216). -/
def Ce.holdFor (c : Ce) (loops : List LoopCfg) (place : List (Nat × Nat × Nat)) : Nat :=
  1 + (loops.map (loopMoveBytes c place)).sum / 163840
/-- The loops take other places, as they are (R182, R216). -/
def Ce.moveLoops (c : Ce) (place : List (Nat × Nat × Nat)) : Ce :=
  { c with place := place, hold := c.holdFor c.cfg place, holdLast := c.holdFor c.cfg place }
/-- The loops of the new section (R215): carried by `LID` and `SLAYOUT`, or initialised. The outputs that a loop of the same `LID` has staged stay
refreshed in the hold (R216). -/
def Ce.switchLoops (c : Ce) (loops : List LoopCfg) (place : List (Nat × Nat × Nat)) : Ce :=
  let stays (p : Nat) : Bool := c.cfg.any fun o => o.oport == p && loops.any fun d => d.lid == o.lid
  let base : Ce := { c with cfg := loops, place := place, words := [], st := [], held := c.held.filter stays }
  let one (k : Ce) (d : LoopCfg) : Ce :=
    let k1 := k.initLoop d
    match c.cfg.find? fun o => o.lid == d.lid && o.slayout == d.slayout with
    | none => k1
    | some o =>
      let kept := SMap.getList 0 c.words (256 - d.pwords) (o.lnum * 256 + d.pwords)
      { k1 with words := SMap.setList 0 k1.words (d.lnum * 256 + d.pwords) kept, st := setLoopSt k1.st d.lnum { c.loopSt o.lnum with carried := true, firstPending := false } }
  { loops.foldl one base with hold := c.holdFor loops place, holdLast := c.holdFor loops place }
/-- The data of a table's bank (R221). -/
def Ce.bank (c : Ce) (n : Nat) (bank1 : Bool) : List Q15 := SMap.getList 0 c.tabData 1024 ((n * 2 + b2n bank1) * 1024)
/-- A bank of a table is written. -/
def Ce.setBank (c : Ce) (n : Nat) (bank1 : Bool) (data : List Q15) : Ce :=
  let key := (n * 2 + b2n bank1) * 1024
  { c with tabData := SMap.setList 0 (SMap.erase c.tabData key (key + 1024)) key data }
/-- Every table of `TABLES` is loaded into bank 0 at a start (R227). -/
def Ce.loadTabs (c : Ce) (tabs : List TabCfg) : Ce :=
  tabs.foldl (fun (k : Ce) d => { k.setBank d.tnum false d.data with tabSt := upd k.tabSt d.tnum fun s => { s with present := true } })
    { c with tabs := tabs }
/-- A table that an online change to a differing `TABLES` loads: its data differs from the active bank, or one of its banks was loaded by
service (R227, R228). -/
def Ce.reloads (c : Ce) (d : TabCfg) : Bool :=
  let s := at_ c.tabSt d.tnum {}
  !s.present || s.service || s.fresh || s.prep || c.bank d.tnum s.bank1 != d.data
/-- Such a table's data goes into its inactive bank. -/
def Ce.prepTab (c : Ce) (d : TabCfg) : Ce :=
  let s := at_ c.tabSt d.tnum {}
  if c.reloads d && !s.prep then
    { c.setBank d.tnum (!s.bank1) d.data with tabSt := upd c.tabSt d.tnum fun s => { s with prep := true, fresh := false, partnerOk := false } }
  else c
/-- Phase 2 of an online change writes the tables of the new section (R149, R227). -/
def Mod.prepTabs (m : Mod) : Mod :=
  match m.change.cfg with
  | some c => if (secsDiffer m.cfg.secs c.secs).contains 7 then
      { m with ce := c.tabs.foldl Ce.prepTab m.ce } else m
  | none => m
/-- The tables of a new section (R227): the banks that it loads become active. -/
def Ce.switchTabs (c : Ce) (tabs : List TabCfg) : Ce :=
  tabs.foldl (fun (k : Ce) (d : TabCfg) =>
    if k.reloads d then { k.prepTab d with tabSt := upd (k.prepTab d).tabSt d.tnum fun s => { s.flip false with present := true } } else k)
    { c with tabs := tabs ++ c.tabs.filter fun o => !tabs.any fun d => d.tnum == o.tnum }
/-- The loops of a differing `LOOPS` section (R215); a trace of a loop that goes or is initialised aborts (R242). -/
def Mod.newLoops (m : Mod) (place : List (Nat × Nat × Nat)) : Mod :=
  let gone := m.ce.cfg.filter fun o => !(m.cfg.loops.any fun d => d.lid == o.lid)
  let m1 := gone.foldl (fun k o => k.log 3 2 0x14 o.lid.toNat []) m
  let kept (n : Nat) : Bool := match m.ce.cfg.find? fun o => o.lnum == n with
    | some o => m.cfg.loops.any fun d => d.lid == o.lid && d.slayout == o.slayout
    | none => true
  let c := m1.ce.switchLoops m1.cfg.loops place
  { m1 with ce := if m1.ce.trc.chs.any fun h => h.src != 0 && !kept h.lnum then { c with trc := c.trc.abort 2 } else c }
/-- The control engine switches at the first frame boundary at or after B (R215, R216, R227): its loops where `LOOPS` differs, else only
the places that a plan changes; its tables where `TABLES` differs. -/
def Mod.switchCe (m : Mod) : Mod :=
  if !m.change.cePend then m
  else
    let place := match m.plan.plan with | some p => p.loops | none => m.ce.place
    let m1 := if m.change.ceLoops then m.newLoops place else { m with ce := m.ce.moveLoops place }
    let m2 : Mod := if m.change.ceTabs then { m1 with ce := m1.ce.switchTabs m1.cfg.tabs } else m1
    { m2 with change := { m2.change with cePend := false, ceLoops := false, ceTabs := false } }
/-- A point as an alarm section starts it. -/
def ptAt (a : Ae) (d : PtCfg) : Pt :=
  match indexOf? (fun o : PtCfg => o.pid == d.pid && o.ptype == d.ptype) a.cfg.points with
  | some i => at_ a.pts i {}
  | none => {}
/-- The alarm engine switches at the first evaluation instant at or after B (R259). The records of points that go belong to that evaluation
(R263); a module that does not execute publishes none (R260). -/
def Mod.switchAe (m : Mod) : Mod :=
  if !m.change.aePend then m
  else
    let a := m.ae
    let new := m.cfg.alarms
    let gone := a.cfg.points.filter fun o => !(new.points.any fun d => d.pid == o.pid && d.ptype == o.ptype)
    let items := gone.map fun o => ({ prio := o.prio, cause := 10, tev := m.dt, d := o, p := {} } : PubItem)
    let fo (g : FoCfg) : Fo :=
      match indexOf? (fun o : FoCfg => o == g) a.cfg.fgrps with
      | some i => at_ a.fos i {}
      | none => match indexOf? (fun o : FoCfg => o.gnum == g.gnum) a.cfg.fgrps with
        | some i => (at_ a.fos i {}).arm (at_ a.fos i {}).epoch
        | none => {}
    let stays (c : AlmCmd) : AlmCmd := { c with left := c.left.filter fun e => new.points.any fun d => d.pid == e.1 }
    { m with ae := { a with cfg := new, pts := new.points.map (ptAt a), fos := new.fgrps.map fo,
                            sgs := mapFrom (fun i _ => at_ a.sgs i {}) 0 (new.sgrps.map fun _ => ({} : Sg)),
                            cmds := a.cmds.map stays, due := if m.executing then a.due ++ items else a.due },
             change := { m.change with aePend := false } }

end Sys2Proof.Machine
end

