-- ==== Sys2Proof/Machine/Alarms.lean ====
section
/-! DEFINITION. The commands of the alarm engine and of the first-out groups (08_alarm_engine.md, 19_engineering_access.md R579). -/

namespace Sys2Proof.Machine

/-- The position of a point's descriptor. -/
def Mod.ptIndex (m : Mod) (pnum : Nat) : Option Nat := indexOf? (fun d : PtCfg => d.pnum == pnum) m.ae.cfg.points
/-- The descriptor at a position. -/
def Mod.ptCfg (m : Mod) (i : Nat) : PtCfg := at_ m.ae.cfg.points i { pid := 0, pnum := 0 }
/-- The point at a position. -/
def Mod.pt (m : Mod) (i : Nat) : Pt := at_ m.ae.pts i {}

/-! Delays, shelving and suppression that run out. -/

/-- An evaluation of its own begins, `RESYNC` first where it is due (R260, R264). -/
def Mod.aeNow (m : Mod) : AeRun := { m := ({ m with ae := { m.ae with lastEval := m.dt } } : Mod).aeResync }
/-- An evaluation ends: its records, its counts, its triggers. -/
def AeRun.done (r : AeRun) : Mod := r.close.1.alarmTriggers r.close.2
/-- The points of a list, in place `i` with descriptor `d`, are evaluated outside the evaluation of each millisecond and of their tasks
(R251): what they gave, and the mark for the alarm stream (R264). -/
def Mod.evalNow (m : Mod) (l : List (Nat × PtCfg)) (cond : Pt → Pt) : Mod :=
  let r := l.foldl (fun (r : AeRun) e => r.pointBy e.1 e.2 cond) m.aeNow
  let moved := (l.filter fun e => e.2.srckind == 0).map fun e => e.2.pnum
  ({ r with m := { r.m with ae := { r.m.ae with late := r.m.ae.late ++ moved } } } : AeRun).done
/-- The delay of point `pnum` runs out (R253): time runs on by what is left of it, and a follows c. -/
def Mod.delayExpiry (m : Mod) (pnum : Nat) (on : Bool) : Mod :=
  match m.ptIndex pnum with
  | none => m
  | some i =>
    let d := m.ptCfg i
    let p := m.pt i
    let dly := phMs (if on then d.ondly else d.offdly)
    if m.executing && p.c == on && p.a != on && !p.badq then
      let m1 := m.to (m.mono + (dly - p.held))
      m1.evalNow [(i, d)] fun p => if p.c = on ∧ p.a ≠ on then { p with held := Nat.max dly p.held } else p
    else m
/-- `ALARM_ON_DELAY_EXPIRY` (R253). -/
def execAlarmOnDelayExpiry (pnum : Nat) (s : State) : Host.Outcome State Fault Refusal :=
  s.run fun m => m.whenLive fun m => m.delayExpiry pnum true
/-- `ALARM_OFF_DELAY_EXPIRY` (R253). -/
def execAlarmOffDelayExpiry (pnum : Nat) (s : State) : Host.Outcome State Fault Refusal :=
  s.run fun m => m.whenLive fun m => m.delayExpiry pnum false

/-- `SHELVING_EXPIRY` (R251, R257): the shelving duration, counted in operating time, runs out. -/
def execShelvingExpiry (pnum : Nat) (s : State) : Host.Outcome State Fault Refusal :=
  s.run fun m => m.whenLive fun m => match m.ptIndex pnum with
    | none => m
    | some i => match (m.pt i).shelved with
      | none => m
      | some t =>
        if m.executing then
          let m1 := m.to (m.mono + phMs (t - m.optime))
          m1.evalNow [(i, m1.ptCfg i)] id
        else m

/-- The members of suppression group `g` are released (R256), in one evaluation (R263). -/
def Mod.releaseMembers (m : Mod) (g : Nat) : Mod :=
  m.evalNow ((enumFrom 0 m.ae.cfg.points).filter fun e => e.2.sgroup == g) id
/-- `SUPPRESSION_RELEASE` (R256): `RELDLY` of a group runs out. -/
def execSuppressionRelease (grp : Fin 256) (s : State) : Host.Outcome State Fault Refusal :=
  s.run fun m => m.whenLive fun m => match (at_ m.ae.sgs grp {}).left with
    | none => m
    | some ms =>
      if m.executing then
        let m1 := m.to (m.mono + phMs ms)
        ({ m1 with ae := { m1.ae with sgs := upd m1.ae.sgs grp fun _ => {} } } : Mod).releaseMembers grp
      else m

/-! Operator commands. -/

/-- A command waits for the next evaluation of its points, which answers it (R251, R579). -/
def Mod.queueAlarm (m : Mod) (c : AlmCmd) : Mod := { m with ae := { m.ae with cmds := m.ae.cmds ++ [c] } }
/-- An `ALARM` request (R577, R579): from role `OPERATE`, by a module that holds ACT; one that waits already is not taken twice. `f` gives
the status with which it is refused at once, or the command that waits. -/
def Mod.alarmRequest (m : Mod) (rq : Req) (f : Mod → Nat ⊕ AlmCmd) : Mod :=
  m.serve rq fun s m =>
    if s.role < 2 then { m := m, ans := some (stRole, []) }
    else if m.maint then { m := m, ans := some (stCondition, []) }
    else if m.ae.cmds.any fun c => c.rq == rq then { m := m, ans := none }
    else if !m.act then { m := m, ans := some (stNotActive, []) }
    else match f m with
      | .inl st => { m := m, ans := some (st, []) }
      | .inr c => { m := m.queueAlarm c, ans := none }
/-- Operation `op` on point `num` (R579); `occ` the occurrence that an acknowledgement names. -/
def Mod.alarmPoint (m : Mod) (rq : Req) (op : Nat) (num occ mins : BitVec 16) : Mod :=
  m.alarmRequest rq fun m => match m.ptIndex num.toNat with
    | none => .inl stRange
    | some i => .inr { rq := rq, op := op, mins := mins.toNat, accepted := m.dt, tq := m.tq, left := [((m.ptCfg i).pid, occ)], status := stRange }
/-- `ALARM` operation 1 (R254, R257, R579). -/
def execAlarmAck (rq : Req) (num occ : BitVec 16) (s : State) : Host.Outcome State Fault Refusal :=
  s.run fun m => m.alarmPoint rq 1 num occ 0
/-- `ALARM` operation 2 (R257). -/
def execAlarmShelve (rq : Req) (num mins : BitVec 16) (s : State) : Host.Outcome State Fault Refusal :=
  s.run fun m => m.alarmPoint rq 2 num 0 mins
/-- `ALARM` operation 3 (R255, R257). -/
def execAlarmUnshelve (rq : Req) (num : BitVec 16) (s : State) : Host.Outcome State Fault Refusal :=
  s.run fun m => m.alarmPoint rq 3 num 0 0
/-- `ALARM` operation 4 (R254, R257). -/
def execAlarmOutOfService (rq : Req) (num : BitVec 16) (s : State) : Host.Outcome State Fault Refusal :=
  s.run fun m => m.alarmPoint rq 4 num 0 0
/-- `ALARM` operation 5 (R255, R257). -/
def execAlarmReturnToService (rq : Req) (num : BitVec 16) (s : State) : Host.Outcome State Fault Refusal :=
  s.run fun m => m.alarmPoint rq 5 num 0 0

/-- The points that satisfy `f`, each with its occurrence at acceptance (R257). -/
def Mod.occurrences (m : Mod) (f : PtCfg → Bool) : List (BitVec 32 × BitVec 16) :=
  (m.ae.cfg.points.zip m.ae.pts).filterMap fun e => if f e.1 then some (e.1.pid, e.2.occ) else none
/-- `ALARM` operation 6 (R579): the members of a first-out group. -/
def execAlarmAckGroup (rq : Req) (num : BitVec 16) (s : State) : Host.Outcome State Fault Refusal :=
  s.run fun m => m.alarmRequest rq fun m =>
    if (m.foIndex num.toNat).isNone then .inl stRange
    else .inr { rq := rq, op := 6, accepted := m.dt, tq := m.tq, left := m.occurrences fun d => d.fgroup == num.toNat, status := stOk }
/-- `ALARM` operation 7 (R579). -/
def execAlarmAckAll (rq : Req) (s : State) : Host.Outcome State Fault Refusal :=
  s.run fun m => m.alarmRequest rq fun m =>
    .inr { rq := rq, op := 7, accepted := m.dt, tq := m.tq, left := m.occurrences fun _ => true, status := stOk }
/-- `ALARM` operation 8 (R267, R579). -/
def execAlarmFoReset (rq : Req) (num : BitVec 16) (s : State) : Host.Outcome State Fault Refusal :=
  s.run fun m => m.command rq 6 2 false false fun _ m =>
    if !m.act then { m := m, status := stNotActive }
    else match m.foIndex num.toNat with
      | none => { m := m, status := stRange }
      | some i => { m := m.foReset i, body := alarmBody 0 0 }

/-! First-out groups. -/

/-- A station message is heard by a module that holds ACT, with its position in the group list (R28, R269). -/
def Mod.onFoMsg (m : Mod) (msg : Bytes) (f : Mod → Nat → Mod) : Mod :=
  if m.live && m.act then
    match m.foIndex (field msg 1 1) with
    | some i => f m i
    | none => m
  else m
/-- `FO_CANDIDATE` (R267, R269): heard by the arbiter; a late one is recorded. -/
def execFoCandidate (msg : Bytes) (s : State) : Host.Outcome State Fault Refusal :=
  s.run fun m => m.onFoMsg msg fun m i =>
    if !m.foArbiter i then m
    else
      let k := parseCandidate msg
      let r := (at_ m.ae.fos i {}).receive k (BitVec.ofNat 16 (field msg 2 2)) (at_ m.ae.cfg.fgrps i { gnum := 0 }).settle m.mono
      let m1 := m.updFo i fun _ => r.1
      if r.2 then m1.log 8 3 0x60 k.pid.toNat [] else m1
/-- The entries `(node, PID)` of `FO_DECIDED` (R269). -/
def foEntries (msg : Bytes) : List (Nat × BitVec 32) :=
  tabulate (Nat.min 7 (field msg 4 1)) fun j => (field msg (32 + 8 * j) 2, BitVec.ofNat 32 (field msg (36 + 8 * j) 4))
/-- The arbiter's decision at a participant (R267, R269): marks, record and triggers. -/
def Mod.foTaken (m : Mod) (i : Nat) (msg : Bytes) : Mod :=
  let g := at_ m.ae.fos i {}
  let gnum := field msg 1 1
  let fl := field msg 5 1
  if m.foArbiter i ∨ BitVec.ofNat 16 (field msg 2 2) ≠ g.epoch then m
  else
    let w := (field msg 8 2, BitVec.ofNat 32 (field msg 12 4))
    let k : Cand := { node := w.1, pid := w.2, pnum := w.2.toNat, tc := dtTicks (BitVec.ofNat 96 (field msg 16 12)), sgran := 0,
                      align := none }
    let m1 := m.updFo i fun g => { g with state := 2, winner := some k, simul := bitOf fl 0, partial_ := false, uncertain := bitOf fl 2,
                                          nsim := field msg 4 1 % 8, settleAt := none, partialAt := none }
    (m1.foMarks gnum w (foEntries msg)).trigger 5 gnum fun _ => true
/-- `FO_DECIDED` (R269). -/
def execFoDecided (msg : Bytes) (s : State) : Host.Outcome State Fault Refusal := s.run fun m => m.onFoMsg msg fun m i => m.foTaken i msg
/-- `FO_RESET` (R267): a participant arms under a new epoch, and passes over another participant's request under an epoch that it knows; the
arbiter takes a participant's reset as a request (log entry 142). -/
def execFoReset (msg : Bytes) (s : State) : Host.Outcome State Fault Refusal :=
  s.run fun m => m.onFoMsg msg fun m i =>
    let ep := BitVec.ofNat 16 (field msg 2 2)
    if m.foArbiter i then m.foReset i
    else if 0 < (ep - (at_ m.ae.fos i {}).epoch).toInt then m.updFo i fun g => g.arm ep
    else m
/-- A group decides and releases its tasks (R136, R267). -/
def Mod.foDecideNow (m : Mod) (i : Nat) (partial_ : Bool) : Mod :=
  let r := m.foDecide i partial_
  if r.2 then r.1.trigger 5 (at_ m.ae.cfg.fgrps i { gnum := 0 }).gnum fun _ => true else r.1
/-- `FO_SETTLE_EXPIRY` (R267, R268): the arbiter, which holds ACT (R260, R266), decides. -/
def execFoSettleExpiry (grp : Fin 256) (s : State) : Host.Outcome State Fault Refusal :=
  s.run fun m => m.whenLive fun m => match m.foIndex grp with
    | some i => m.onDue (if m.act then (at_ m.ae.fos i {}).settleAt else none) fun m => m.foDecideNow i false
    | none => m
/-- `FO_PARTIAL_DECISION` (R267): a participant that has heard no decision decides alone. -/
def execFoPartialDecision (grp : Fin 256) (s : State) : Host.Outcome State Fault Refusal :=
  s.run fun m => m.whenLive fun m => match m.foIndex grp with
    | some i => m.onDue (if m.act then (at_ m.ae.fos i {}).partialAt else none) fun m => m.foDecideNow i true
    | none => m

/-- `EVAL_MAX` is read and cleared (R270). -/
def Mod.readEvalMax (m : Mod) : Mod × Nat × Bytes := ({ m with ae := { m.ae with evalMax := 0 } }, stOk, natLe 4 m.ae.evalMax)
/-- `EVAL_MAX`. -/
def execEvalMax (rq : Req) (s : State) : Host.Outcome State Fault Refusal := s.run fun m => m.readClear rq Mod.readEvalMax

end Sys2Proof.Machine
end

