-- ==== Sys2Proof/Machine/Hart.lean ====
section
/-! DEFINITION. The HART masters against the rest of the module (15_analogue_loops.md R490 to R493). -/

namespace Sys2Proof.Machine

/-- The entry of a HART device. -/
def Mod.hartCfg (m : Mod) (k : Nat) : HartCfg :=
  at_ m.cfg.hart k { ao := false, ch := 0, acceptBurst := false, checkId := false, poll := 0, expdt := 0, mfr := 0, devid := 0,
                     scan := 0, retry := 0, scanPer := 0 }
/-- A HART device. -/
def Mod.hartDev (m : Mod) (k : Nat) : HartDev := at_ m.an.hart k {}
/-- A HART device changed. -/
def Mod.updHart (m : Mod) (k : Nat) (f : HartDev → HartDev) : Mod := { m with an := { m.an with hart := upd m.an.hart k f } }
/-- The pass-through request waits for device `k`. -/
def Mod.hartPtFor (m : Mod) (k : Nat) : Bool := match m.an.pt with | some p => p.entry == k | none => false
/-- The request of the transaction in progress leaves (R491). -/
def Mod.hartSend (m : Mod) (k : Nat) : Mod :=
  match (m.hartDev k).trans with
  | some t => let q := hartCmd (m.hartCfg k) t m.an.pt; m.send (.hart k (hartAddr (m.hartCfg k) (m.hartDev k) t) q.1 q.2)
  | none => m
/-- An idle channel starts its next transaction while ACT is set (R491, R492). -/
def Mod.hartGo (m : Mod) (k : Nat) : Mod :=
  let d := m.hartDev k
  let d1 := d.go (m.hartPtFor k) m.act
  let m1 := m.updHart k fun _ => d1
  if d.trans.isNone && d1.trans.isSome then m1.hartSend k else m1
/-- The masters as ACT latches (R492): a device never heard or `LOST` is to be identified, no other. -/
def Mod.hartLatched (m : Mod) : Mod :=
  (List.range m.an.hart.length).foldl (fun (k : Mod) i =>
    (k.updHart i fun d => { d with identDue := decide (d.st = 0 ∨ d.st = 1 ∨ d.st = 3) }).hartGo i) m
/-- The devices of a `HART` section that takes effect: nothing heard yet, scans due from now (R490, R491). -/
def Mod.hartFit (m : Mod) : Mod :=
  let m1 : Mod := { m with an := { m.an with
    hart := m.cfg.hart.map fun c => { scanAt := if c.scan = 0 then none else some (m.mono + phMs (100 * c.scanPer)) },
    pt := none } }
  if m1.act then m1.hartLatched else m1

end Sys2Proof.Machine
end

