-- ==== Sys2Proof/Machine/LinkTest.lean ====
section
/-! DEFINITION. Link tests against the rest of the module (12_ethernet_and_spoke_link.md R420 to R422, R426). -/

namespace Sys2Proof.Machine

/-- The condition under which a test of link `id` may run (R420). -/
def Mod.ltCond (m : Mod) (id : Nat) : Bool :=
  if id ≤ 2 then !m.act || decide (1 ≤ m.cfg.netc.prmode) && (at_ m.eth.ports (2 - id) {}).link
  else if id ≤ 4 then !m.act || m.eth.inCycle m.cfg.netc (id - 3) == 0
  else if id = 5 then !m.eap.sessions.any fun s => s.port == 2
  else if id ≤ 7 then
    !m.tan.partnerPresent m.mono ||
      (if id = 6 then m.tan.lane1 else m.tan.lane0) && decide ((match m.plan.plan with | some p => p.shadow | none => 0) ≤ 445312500)
  else if id = 8 then m.tan.tl.inService m.mono m.tan.trec.loss
  else !m.act || (m.canCfg (id - 9)).rx.isEmpty && (m.canCfg (id - 9)).tx.isEmpty
/-- A link has a mode (R420): 0 internal, 1 partner or node loopback, 2 both ends generating. -/
def ltMode (id mode : Nat) : Bool :=
  mode == 0 || (mode == 1 && (id == 3 || id == 4 || id == 6 || id == 7 || id == 8)) || (mode == 2 && (id == 6 || id == 7))
/-- The link under test is taken out of service (R422): an Ethernet link or a lane goes down without counting, a CAN
controller leaves its bus. -/
def Mod.ltTake (m : Mod) (id : Nat) : Mod :=
  if id ≤ 5 then { m with eth := { m.eth with ports := upd m.eth.ports (id - 1) fun p => { p with link := false, tx := none } } }
  else if id = 6 then m.updTan fun t => { t with lane0 := false, lane0At := m.mono }
  else if id = 7 then m.updTan fun t => { t with lane1 := false, lane1At := m.mono }
  else if 9 ≤ id then m.updCan (id - 9) Can.toTest
  else m
/-- The counts of a test that the command does not bring: free values (R421, R426; log entry 1). -/
def Mod.ltCounts (m : Mod) (bits errors : Option (BitVec 64)) : Mod :=
  let d := m.draw
  let e := d.2.draw
  { e.2 with eth := { e.2.eth with lt := { e.2.eth.lt with
      bits := bits.getD (d.1.truncate 64), errors := errors.getD (e.1.truncate 64), syncLoss := BitVec.ofNat 32 (d.1.toNat / 2 ^ 64),
      framesLost := if e.2.eth.lt.link ≤ 5 ∨ 9 ≤ e.2.eth.lt.link then BitVec.ofNat 32 (e.1.toNat / 2 ^ 64) else 0 } } }
/-- The test ends (R422): state 2 done, 3 aborted with its cause. The heartbeat path counts its silence from here on, a CAN controller
returns to its bus. -/
def Mod.ltEnd (m : Mod) (st cause : Nat) : Mod :=
  let m1 := if m.eth.lt.link = 8 then m.updTan fun t => { t with hb := { t.hb with last := some m.mono } }
    else if 9 ≤ m.eth.lt.link then m.updCan (m.eth.lt.link - 9) fun c => c.fromTest (m.canCfg (m.eth.lt.link - 9)) else m
  { m1 with eth := { m1.eth with lt := { m1.eth.lt with st := st, cause := cause, elapsed := (m.mono - m.eth.lt.startAt) / phS 1 } } }
/-- A running test whose condition fails ends at once (R422, cause 2). -/
def Mod.ltJudge (m : Mod) : Mod :=
  if m.eth.lt.st = 1 ∧ !m.ltCond m.eth.lt.link then (m.ltCounts none none).ltEnd 3 2 else m

end Sys2Proof.Machine
end

