-- ==== Sys2Proof/Machine/Tasks.lean ====
section
/-! DEFINITION. The commands of the task cycle and of the online change (04_task_cycle_and_online_change.md). -/

namespace Sys2Proof.Machine

/-! The cadence. -/

/-- The images of `BACKGROUND` tasks finished since the last tick are applied (R137). -/
def Mod.applyBackground (m : Mod) : Mod :=
  (List.range 16).foldl (fun (k : Mod) t =>
    ((k.task t).bgOut.foldl (fun (w : Mod) img => (w.applyImage t img).refresh t) k).updTask t fun w =>
      { w with bgOut := [], applied := match w.bgOut.getLast? with | some i => some (m.tb.now, i) | none => w.applied }) m
/-- The module follows its configuration: it executes it, or shadows the module that does. -/
def Mod.follows (m : Mod) : Bool := m.cas.running && (m.executing || decide (m.tan.role = .standby))
/-- The alarm evaluation of a millisecond, the releases that it causes, and the alarm stream (R136, R250, R333). -/
def Mod.alarmMs (m : Mod) : Mod :=
  let r := m.switchAe.aeTick
  let m1 := r.1.alarmTriggers r.2
  let k := if m1.executing && m1.shadowing then m1.sendBatch 2 0xFF false 0 0 m1.alarmRecs else m1
  { k with ae := { k.ae with late := [] } }
/-- The work of tick `n` in a module that executes: applied background images, releases, new background cycles (R130 to R137). -/
def Mod.tickTasks (m : Mod) (n : Nat) : Mod :=
  if m.executing then (m.applyBackground.releaseCyclic n).startBackgrounds else m
/-- Frames that the receive queues delivered have been taken by their consumers (R396), their CRCs checked (R24). -/
def Mod.takeReceived (m : Mod) : Mod :=
  { m with eth := (m.eth.pool.filter fun f => decide (8 ≤ f.q)).foldl (fun e f => (e.takeOut f).1) m.eth }
/-- The channels that timed-output units own are refreshed (R299). -/
def Mod.touRefresh (m : Mod) : Mod :=
  match m.cfg.tou.filter fun c => decide (c.route < 32) with
  | [] => m
  | cs => (cs.foldl (fun (k : Mod) c => k.updDio c.route fun h => { h with out := { h.out with refresh := some k.mono } }) m).restage
/-- The timed-output unit that owns a channel (R299, R300). -/
def Mod.touOwner (m : Mod) (ch : Nat) : Option Nat := (m.cfg.tou.find? fun t => t.route == ch).map (·.unum)
/-- The tasks whose `DO_OUT` instances name a channel. -/
def Mod.dioTasks (m : Mod) (ch : Nat) : List Nat := (m.cfg.net.insts.filter fun x => x.type == 0x0081 && x.par 0 == ch).map (·.task)

/-- The committed image of a task with the latest apply instant at or before now (R336). -/
def Mod.imageNow (m : Mod) (t : Nat) : Option (List OutItem) :=
  ((m.tan.sh.images.filter fun e => e.1 == t && !e.2.2.1 && decide (shortDiff e.2.1 m.short ≤ 0)).foldl
    (fun (b : Option (BitVec 64 × List OutItem)) e => match b with
      | some o => if shortDiff o.1 e.2.1 < 0 then some (e.2.1, e.2.2.2) else b
      | none => some (e.2.1, e.2.2.2)) none).map (·.2)
/-- The module judges a paralleled pin for its partner (R464). -/
def Mod.parallel (m : Mod) (ch : Nat) : Bool := (m.dioCfg ch).use == 4 && m.otp.tandem && !m.act
/-- The level that the module without ACT expects on a paralleled pin (R464). -/
def Mod.expectedLevel (m : Mod) (ch : Nat) : Bool :=
  let r := m.tan.partnerRole m.mono
  if r ≠ 1 ∧ r ≠ 4 then false
  else match m.touOwner ch with
    | some u => (at_ m.tous u {}).level
    | none => (m.dioTasks ch).any fun t => match m.imageNow t with
      | some img => img.any fun i => match i with | .dio c v => c == ch && v | _ => false
      | none => false
/-- The expected level is noted; a change starts the masking time. -/
def Mod.noteExpected (m : Mod) (ch : Nat) : Mod :=
  let e := m.expectedLevel ch
  m.updDio ch fun h => if h.expected = e then h else { h with expected := e, maskFrom := m.mono, partnerNoDrive := h.partnerNoDrive && e }
/-- The expected levels of the paralleled pins at a tick (R464). -/
def Mod.noteAllExpected (m : Mod) : Mod := ((List.range 32).filter m.parallel).foldl (fun (k : Mod) c => k.noteExpected c) m
/-- Cadence tick `n` (R130, R154, R250, R540). A handover whose T_h is this tick comes first (R341). -/
def Mod.cadence (m : Mod) (n : Nat) : Mod :=
  let m0 : Mod := if m.hoReleaseDue (n * tickUnits) then m.hoRelease else m
  let m1 := (m0.snapshot 1 0xFF).takeReceived.touRefresh.noteAllExpected
  if !m1.follows then m1
  else
    let m2 := if m1.switchDue (n * tickUnits) then m1.switchAtB else m1
    let m3 := m2.tickTasks n
    if n % 8 = 0 then m3.alarmMs else m3
/-- `CADENCE_TICK`: device time runs on to the next tick (R130); a tick whose instant has been reached already is worked off now. -/
def execCadenceTick (s : State) : Host.Outcome State Fault Refusal :=
  s.run fun m => m.whenLive fun m =>
    let n := m.tb.nextTick
    let m1 := m.toNow (n * tickUnits)
    ({ m1 with tb := { m1.tb with nextTick := n + 1 } } : Mod).cadence n

/-! The end of a cycle. -/

/-- The cells of a cycle under the old net, as the new net's readers see them (R91, R158). -/
def publishOld (old new : Net) (ost st : NetSt) (t : Nat) : NetSt :=
  { st with pub := mapFrom (fun s c => match sigFrom old new (at_ new.sigs s { stype := 0 }) with
      | some k => if (at_ old.sigs k { stype := 0 }).writer = t then at_ ost.cells k {} else c
      | none => c) 0 st.pub }
/-- What a cycle wrote becomes visible to the other tasks (R91, R154). -/
def Mod.publish (m : Mod) (t : Nat) (c : Cycle) : Mod :=
  match c.old, m.change.old with
  | true, some o => { m with net := publishOld o.1 m.cfg.net o.2 m.net t }
  | _, _ => { m with net := publishCells m.cfg.net m.net t }
/-- The figures of a finished cycle (R162). -/
def Task.finished (k : Task) (execNs : Nat) (late : Bool) (marginNs : Nat) : Task :=
  { k with running := none, execLast := execNs, execMax := Nat.max k.execMax execNs, runMax := Nat.max k.runMax execNs,
           margin := if late then some 0 else some (match k.margin with | some a => Nat.min a marginNs | none => marginNs) }
/-- The back buffer of a finished cycle (R135, R137): a `BACKGROUND` cycle's goes to the next tick, another's to its apply instant;
where that has passed, its transmit requests are discarded (R440). -/
def Mod.backBuffer (m : Mod) (t : Nat) (c : Cycle) (late : Bool) : Mod :=
  match c.dl with
  | none => (if m.executing then m.crossRio t c.out else m).updTask t fun k => { k with bgOut := k.bgOut ++ [c.out] }
  | some _ =>
    if (m.task t).pend.any fun p => p.rel == c.rel then
      let m1 := m.updTask t fun k =>
        { k with pend := k.pend.map fun p => if p.rel = c.rel then { p with img := some c.out, inTime := !late } else p }
      if late || !m.executing then m1 else m1.crossRio t c.out
    else m.discardCan c.out
/-- The shadow batch of a cycle (R332, R333): also of one that drains on a module that has handed over (R341). -/
def Mod.cycleBatch (m : Mod) (t : Nat) (c : Cycle) (late : Bool) : Mod :=
  if m.shadowing || decide (m.tan.role = .standby) then
    let a := match (m.task t).pend.find? fun p => p.rel == c.rel with | some p => p.at_ | none => m.tb.now
    m.sendBatch 1 t late c.rel (shortOf (dtimeOf a)) (m.taskRecs m.cfg.net m.net t c.out)
  else m
/-- The counters' snapshot at the end of a cycle of the task that `PMC_RING` selects (R540). -/
def Mod.cycleSnapshot (m : Mod) (t : Nat) : Mod :=
  if m.pmc.ringSel.toNat % 4 = 2 ∧ m.pmc.ringSel.toNat / 16 = t then m.snapshot 2 t else m
/-- The execution time of a cycle that finishes at `now` counts for a second (R118). -/
def Task.spend (k : Task) (now execNs : Nat) : Task :=
  { k with spans := (k.spans.filter fun e => decide (now < e.1 + phS 1)) ++ [(now, execNs)] }
/-- A cycle ends (R135, R139, R145, R154): the points that its `ALM_IN` instances feed are evaluated (R250), then its batch goes out (R264,
R333). -/
def Mod.finishCycle (m : Mod) (t execNs : Nat) (c : Cycle) : Mod :=
  let late := match c.dl with | some d => decide (d < m.tb.now) | none => false
  let left := match c.dl with | some d => (d - m.tb.now) / unitsPerNs | none => 0
  let m1 := ((m.publish t c).updTask t fun k => (k.finished execNs late left).spend m.mono execNs).schedule c.core
  let m2 := ((m1.backBuffer t c late).writeRetained m1.cfg.net m1.net t).cycleSnapshot t
  let r := (if m2.aeHas t then m2.switchAe else m2).aeTask t
  (((r.1.cycleBatch t c late).alarmTriggers r.2).changeSettle).startBackgrounds
/-- `CYCLE_FINISH`: the cycle of a task ends once it has executed for `execNs` on its core pair. A task in no cycle, and one whose cycle
waits for another on its core pair (R129), executes nothing that could end (log entry 140). -/
def execCycleFinish (task : Fin 16) (execNs : Nat) (s : State) : Host.Outcome State Fault Refusal :=
  s.run fun m => m.whenLive fun m => match (m.task task).running with
    | some c => match c.onAt with
      | some a => (m.to (a + (execNs * 8 / 5 - c.ran))).finishCycle task execNs c
      | none => m
    | none => m

/-! Apply instants. -/

/-- The apply instant of one cycle, whose entry has been taken (R135, R139, R140). A module that has handed over applies nothing:
its partner applies the image (R341). -/
def Mod.applyEntry (m : Mod) (t : Nat) (p : PendApply) : Mod :=
  if !m.executing then m
  else if (m.task t).halted then m.discardCan (p.img.getD [])
  else match p.img, p.inTime with
    | some img, true => ((m.applyImage t img).updTask t fun k => { k with consec := 0, runMax := 0, applied := some (p.at_, img) }).refresh t
    | _, _ =>
      ((m.discardCan (p.img.getD [])).overrun t).refresh t
/-- `APPLY_INSTANT`: the next apply instant of the task; none is due of a task without one. -/
def execApplyInstant (task : Fin 16) (s : State) : Host.Outcome State Fault Refusal :=
  s.run fun m => m.whenLive fun m => match (m.task task).pend with
    | p :: rest => ((m.toNow p.at_).updTask task fun k => { k with pend := rest }).applyEntry task p
    | [] => m

/-! The online change. -/

/-- The change is refused before phase 3 (R149, R164, R577) with a status of `RESULT`: the code is the step of R54, `rej` the planner's
code; the running plan stands. A rollback that cannot be made online is made by a restart (DEDUCED, log entry 133). -/
def Mod.refuseAs (m : Mod) (st code rej : Nat) : Mod :=
  let k := (({ m with
    change := { m.change with phase := if m.change.inWindow then 6 else 0, cfg := none, plan := none, refused := true, refuseCode := code },
    plan := { m.plan with state := if m.plan.state = 1 then 2 else m.plan.state } } : Mod).cmdDone 1 st code rej).cmdDone 2 st code rej
  if m.change.how = 2 then k.rollbackByRestart else k
/-- See `Mod.refuseAs`: status `IMG`. -/
def Mod.refuseChange (m : Mod) (code rej : Nat) : Mod := m.refuseAs 27 code rej
/-- The plan of the image to be switched to, with the memory of both (R149) and the measured costs `ms` (R181). -/
def Mod.planChange (m : Mod) (c : Cfg) (ms : List (Nat × Nat)) : Plan ⊕ Reject :=
  planImage (m.slotImage m.change.slot) c m.fwMain m.boot.excl ms m.otp.tandem m.pmc.sel (m.plan.plan.map (·.sram))
/-- Phase 1 ends (R149, R180): one re-plan more (R182, R187); in a tandem the plan hash goes out (R181). -/
def Mod.planDone (m : Mod) : Mod :=
  match m.change.phase, m.change.cfg with
  | 1, some c =>
    match imgCheck m.bank.main m.cas.ownerKey (m.slotImage m.change.slot) with
    | some f => m.refuseChange f.step 0
    | none =>
    if !checkReqs (m.slotImage m.change.slot) m.fwMain m.bank.si.version m.otp.hwRev m.otp.variantE then m.refuseChange 7 0
    else match m.planChange c (if m.tan.role = .solo then m.plan.measured else []) with
      | .inr r => (m.planRejected r).refuseChange 8 r.code
      | .inl p =>
        let k := { m with change := { m.change with phase := 2, plan := some p },
                          plan := { m.plan with state := 2, replans := Nat.min 255 (m.plan.replans + 1) } }.keepPlan p
        if m.tan.role = .active ∨ m.tan.role = .standby then k.announce c.icrc (BitVec.ofNat 256 (beNat p.hash)) else k
  | _, _ => m
/-- `ONLINE_PLAN_DONE` (R149). -/
def execOnlinePlanDone (s : State) : Host.Outcome State Fault Refusal := s.run fun m => m.whenLive Mod.planDone

/-- The header of phase 3 (R59, R63, R64). -/
def Mod.changeHeader (m : Mod) : Mod :=
  match m.change.how with
  | 0 => m.newActive (m.cas.hdr.activate m.change.slot)
  | 1 => m.newActive m.cas.hdr.exchange
  | 3 => m.recordRollback.rolledBack.recordRollbackOf m.cas.hdr.active
  | _ => m
/-- B is fixed at the first common boundary at least 10 ms ahead, and proposed to the partner (R150, R153). -/
def Mod.fixB (m : Mod) : Mod :=
  let b := boundaryFrom m.cfg.tasks (m.tb.now + unitsMs 10)
  let n := m.change.bnum + 1
  let m1 := { m with change := { m.change with phase := 4, b := some b, switchAt := dtimeOf b, bnum := n, partnerAck := false } }
  if m.tan.role = .active then m1.control 2 (natLe 12 (dtimeOf b).toNat ++ natLe 1 n.toNat) else m1
/-- Phases 2 and 3 end (R149, R153): a standby has prepared, and waits for the proposal of B; else the header is written, and the first B is fixed. Where the standby has not prepared the same plan,
or the header cannot be written, the change is refused (R46, R149, R181; log entries 101 and 103). -/
def Mod.prepareDone (m : Mod) : Mod :=
  if m.change.phase ≠ 2 then m
  else if m.tan.role = .standby then m.prepTabs
  else if m.tan.role = .active ∧ m.change.peer ≠ 1 then (m.prepTabs.refuseChange 8 0).sendHello
  else
    let k := ({ m.prepTabs with change := { m.change with bnum := 0 } } : Mod).changeHeader
    if k.hdrLost && decide (m.change.how < 2) then k.refuseAs 9 0 0 else k.fixB
/-- `ONLINE_PREPARE_DONE` (R149, R153). -/
def execOnlinePrepareDone (s : State) : Host.Outcome State Fault Refusal := s.run fun m => m.whenLive Mod.prepareDone

/-- A proposal fails (R150): a new B; after the third failure the next is this module's alone. -/
def Mod.proposalFails (m : Mod) : Mod :=
  match m.change.phase, m.change.b with
  | 4, some b =>
    if m.tan.role ≠ .active ∨ m.change.partnerAck ∨ 3 ≤ m.change.proposals then m
    else
      let m1 := m.toNow (b - unitsMs 5)
      ({ m1 with change := { m1.change with proposals := m1.change.proposals + 1 } } : Mod).fixB
  | _, _ => m
/-- `B_PROPOSAL_TIMEOUT` (R150). -/
def execBProposalTimeout (s : State) : Host.Outcome State Fault Refusal := s.run fun m => m.whenLive Mod.proposalFails

/-- `B_PROPOSE` (R150): a standby that has prepared the change writes its header and acknowledges; at the fourth proposal it becomes
`DETACHED`, to start from the image of that header. -/
def Mod.proposed (m : Mod) (b : Nat) (num : BitVec 8) : Mod :=
  if m.tan.role ≠ .standby then m
  else
    let k := if m.change.phase = 2 then
        let c := m.prepTabs.changeHeader
        if c.hdrLost then c else { c with change := { c.change with phase := 4 } }
      else m
    if 4 ≤ num.toNat then k.detach 9
    else if k.change.phase = 4 then
      { k with change := { k.change with b := some b, switchAt := dtimeOf b, bnum := num } }.control 3 (natLe 1 num.toNat)
    else k
/-- See `Mod.proposed`. -/
def execBPropose (b : BitVec 96) (num : BitVec 8) (s : State) : Host.Outcome State Fault Refusal :=
  s.run fun m => m.whenLive fun m => m.proposed (dtTicks b * 2 ^ 14) num
/-- `B_ACK` (R150): the acknowledgement of the latest proposal. -/
def execBAck (num : BitVec 8) (s : State) : Host.Outcome State Fault Refusal :=
  s.run fun m => m.whenLive fun m =>
    if m.change.phase = 4 ∧ m.change.bnum = num then { m with change := { m.change with partnerAck := true } } else m

/-! Re-planning. -/

/-- A plan waiting for its boundary takes effect there (R153, R182). -/
def Mod.replanSwitch (m : Mod) : Mod :=
  match m.plan.next with
  | none => m
  | some (p, b) =>
    let m1 := ((m.toNow b).replan p).sendHello
    if m1.tan.sh.waiting then m1.serveResync else m1
/-- `REPLAN_SWITCH` (R182). -/
def execReplanSwitch (s : State) : Host.Outcome State Fault Refusal := s.run fun m => m.whenLive Mod.replanSwitch

/-! The frame boundary. -/

/-- `FRAME_BOUNDARY` (R206): device time runs on to the next boundary. The grid runs while the module runs an image; a pending
switch of the engine comes first (R216). -/
def execFrameBoundary (s : State) : Host.Outcome State Fault Refusal :=
  s.run fun m => if m.live && m.cas.running then (m.toNow m.ce.nextB).switchCe.frameBoundary else m

end Sys2Proof.Machine
end

