-- ==== Sys2Proof/Machine/Takeover.lean ====
section
/-! DEFINITION. The ACT latch sets: a standby resumes from what it has committed, the station identity follows
(10_tandem_redundancy.md R318, R336 to R341). -/

namespace Sys2Proof.Machine

/-- A span of device time in phases. -/
def phOfUnits (u : Nat) : Nat := u * 8 / (5 * unitsPerNs)
/-- An instant in ticks of 2⁻¹⁶ ns as device time in units. -/
def unitsOfTicks (n : Nat) : Nat := n * 2 ^ 14
/-- The device time in units of a short time near the present. -/
def Mod.unitsOfShort (m : Mod) (t : BitVec 64) : Nat := unitsOfTicks (((ticksOf m.tb.now : Nat) : Int) + shortDiff t m.short).toNat
/-- The ticks of a `CYCLIC` task's releases after device time `a` and before device time `u`: their number and the last. -/
def releasesBetween (c : TaskCfg) (a u : Nat) : Nat × Nat :=
  let first := nextRelease c (a / tickUnits + 1)
  let hi := (u - 1) / tickUnits
  if c.period = 0 ∨ hi < first then (0, 0) else let n := (hi - first) / c.period; (n + 1, first + n * c.period)
/-- The time-base record committed last for a task. -/
def Mod.baseOf (m : Mod) (t : Nat) : Option (Nat × Nat × Nat × Bool × Nat) := m.tan.sh.bases.find? fun b => b.1 == t

/-! Tasks. -/

/-- The committed images of a task whose apply instants lie ahead (R336). -/
def Mod.imagesAhead (m : Mod) (t n : Nat) : List PendApply :=
  (m.tan.sh.images.filter fun e => e.1 == t && decide (0 < shortDiff e.2.1 m.short)).map fun e =>
    let a := m.unitsOfShort e.2.1
    { rel := BitVec.ofNat 32 n, at_ := a, dl := a, img := some e.2.2.2, inTime := !e.2.2.1 }
/-- The apply instants ahead of the cycles that the partner released before a planned T_h (R341): those not yet committed. -/
def Mod.appliesAhead (m : Mod) (t n cnt last : Nat) (have_ : List PendApply) : List PendApply :=
  let c := m.taskCfg t
  let ent (i : Nat) : PendApply :=
    let a := (last - i * c.period) * tickUnits + c.oofs * 1000 * unitsPerNs
    { rel := BitVec.ofNat 32 (n + cnt - i), at_ := a, dl := a - m.taskGap t * unitsPerNs }
  ((List.range (Nat.min cnt 16)).map ent).filter fun p => decide (m.tb.now < p.at_) && !(have_.any fun q => q.at_ == p.at_)
/-- A task on the module that takes over (R336, R337, R341). `th` is T_h of a planned handover; `again` that an `EVENT` task is released
for a trigger whose cycle may be lost. The first cycle repeats the target of the first release after the last committed cycle, whether
or not a cycle had started there (R123; DEDUCED, log entry 114). -/
def Mod.resumeTask (m : Mod) (th : Option Nat) (again : Bool) (t : Nat) : Mod :=
  match m.baseOf t with
  | none => m.updTask t fun k => { k with running := none, pend := [], bgOut := [],
                                          repeatOf := if again then k.lastTrig else none }
  | some (_, n, _, _, lastT) =>
    let c := m.taskCfg t
    let lastU := unitsOfTicks lastT
    let r := if c.kind = 1 then releasesBetween c lastU (th.getD m.tb.now) else (0, 0)
    let imgs := m.imagesAhead t n
    let own := if th.isSome then m.appliesAhead t n r.1 r.2 imgs else []
    let back := phOfUnits (m.tb.now - lastU)
    let m1 := m.updTask t fun k => { k with
      releases := BitVec.ofNat 32 (n + r.1)
      skipped := if th.isSome then k.skipped else k.skipped + BitVec.ofNat 32 r.1
      lastRelease := if r.1 = 0 then dtOfTicks lastT else dtimeOf (r.2 * tickUnits)
      lastTick := if r.1 = 0 then lastU / tickUnits else r.2
      lastMono := some (m.mono - (if r.1 = 0 then back else phOfUnits (m.tb.now - r.2 * tickUnits)))
      running := if th.isSome ∧ 0 < r.1 then some { rel := BitVec.ofNat 32 (n + r.1), away := true } else none
      pend := (imgs ++ own).mergeSort fun a b => decide (a.at_ ≤ b.at_)
      bgOut := []
      repeatOf := if th.isSome then none
        else if c.kind = 1 then (if 0 < r.1 then some (dtimeOf (nextRelease c (lastU / tickUnits + 1) * tickUnits)) else none)
        else if again then k.lastTrig else none }
    { m1 with net := { m1.net with data := (m1.cfg.net.insts.zip m1.net.data).map fun ((x, d) : InstCfg × InstData) =>
        if x.task = t then { d with monoAt := m.mono - back } else d } }
/-- The value of the image in effect at the takeover, without the requests that are already queued (R336, R446). -/
def Mod.applyNow (m : Mod) (t : Nat) : Mod :=
  match m.imageNow t with
  | none => m
  | some img =>
    (m.applyImage t (img.filter fun i => match i with | .can c o _ => decide ((at_ (m.can c).tx o {}).st = 0) | _ => true)).updTask t
      fun k => { k with applied := some (m.tb.now, img) }
/-- The triggers of `EVENT` tasks that fall to the module taking over (R337, R341). -/
def Mod.eventsDue (m : Mod) (th : Option Nat) : List Nat :=
  (List.range 16).filter fun t =>
    (m.taskCfg t).kind == 2 &&
      (match (m.task t).lastTrig, m.baseOf t with
       | some g, some b => match th with
         | some u => decide (u ≤ unitsOfTicks (dtTicks g)) || b.2.2.2.1
         | none => decide (b.2.2.2.2 < dtTicks g) || b.2.2.2.1
       | some _, none => true
       | none, some b => b.2.2.2.1
       | none, none => false)
/-- A pending request of a `CAN_TX` instance is queued by the new holder of ACT (R446): a persistent one, or a one-shot within its
`TXTMO`; one whose image is not yet applied waits for its apply instant. -/
def Mod.requeueOne (m : Mod) (x : InstCfg) (d : InstData) : Mod :=
  let c := x.par 0
  let cfg := m.canCfg c
  match cfg.tx[x.par 1]? with
  | none => m
  | some t =>
    let a := unitsOfTicks d.off.toNat + (m.taskCfg x.task).oofs * 1000 * unitsPerNs
    let gone := phOfUnits (m.tb.now - a)
    if m.tb.now < a ∨ !t.persistent ∧ phMs t.txtmo ≤ gone then m
    else m.updCan c fun k => ((k.request cfg (x.par 1) (t.pack d.st) true false (m.mono - gone)).startLongs cfg m.mono).offer cfg
/-- The pending requests of the shadowed state are queued (R446). -/
def Mod.requeueCan (m : Mod) : Mod :=
  let clear (o : CanTx) : CanTx := { o with st := 0, due := none, behind := none, ahead := false, outcome := none }
  let m1 : Mod := { m with cans := m.cans.map fun k => { k with tx := k.tx.map clear } }
  (m1.cfg.net.insts.zip m1.net.data).foldl (fun (k : Mod) (e : InstCfg × InstData) =>
    if e.1.type = 0x0089 ∧ e.2.timing then k.requeueOne e.1 e.2 else k) m1
/-- A receive object counts as new where a frame was stored after the release that the reading task's time base gives; LOST starts clear (R445). -/
def Mod.freshCan (m : Mod) : Mod :=
  m.cfg.net.insts.foldl (fun (k : Mod) (x : InstCfg) =>
    if x.type = 0x0088 then
      let last := match k.baseOf x.task with | some b => b.2.2.2.2 | none => 0
      k.updCan (x.par 0) fun c => { c with rx := upd c.rx (x.par 1) fun o =>
        { o with fresh := o.stored && decide (last < dtTicks o.storedAt), lost := false } }
    else k) m
/-- The tasks of the module taking over. -/
def Mod.resumeTasks (m : Mod) (th : Option Nat) : Mod :=
  let evs := m.eventsDue th
  let ts := List.range 16
  let m1 := ts.foldl (fun k t => k.resumeTask th (evs.contains t) t) m
  let m2 := ts.foldl Mod.applyNow m1.requeueCan.freshCan
  let m3 : Mod := { m2 with tasks := m2.tasks.map fun k => { k with lastTrig := none } }
  let m4 := match th with | some u => m3.releaseCyclic (u / tickUnits) | none => m3
  Mod.releaseEvents trigFuel evs m4

/-! Engines and station identity. -/

/-- The owned analogue outputs take the values of the last valid bell frame (R336). -/
def Mod.takeStages (m : Mod) : Mod :=
  match m.tan.bell with
  | none => m
  | some b => m.ownedAo.foldl (fun (k : Mod) n =>
      let v := at_ b.aostage n 0
      ({ k with ce := { k.ce with staged := SMap.set 0 k.ce.staged (0x80 + n) v,
                                  eff := SMap.set 0 k.ce.eff (0x80 + n) v } } : Mod).aoFromCe n) m
/-- The control engine of the module taking over: it executes from the first boundary at least 5 µs on (R338). -/
def Mod.resumeCe (m : Mod) : Mod :=
  { m with ce := { m.ce.cfg.foldl (fun c d => c.updLoop d.lnum fun s => { s with resume := true }) m.ce with from_ := m.mono + phUs 5 } }
/-- The candidates of undecided first-out groups are sent again (R269); the arbiter decides of those that it holds. -/
def Mod.resendFo (m : Mod) (i : Nat) : Mod :=
  let g := at_ m.ae.fos i {}
  let c := at_ m.ae.cfg.fgrps i { gnum := 0 }
  if g.state ≠ 1 ∨ m.foArbiter i then m
  else g.own.foldl (fun (k : Mod) cand => k.stationMsg 2 (foCandidateBytes c.gnum g.epoch cand)) m
/-- The alarm engine of the module taking over (R260, R261): the next publication is `RESYNC`. Points and groups stand as they are shadowed. -/
def Mod.resumeAe (m : Mod) : Mod :=
  let m1 : Mod := { m with ae := { m.ae with resync := true } }
  (List.range m1.ae.fos.length).foldl Mod.resendFo m1
/-- The hop at which a node lies from the module's own end, every entry of its line being present. -/
def Mod.lineHop (m : Mod) (node : Nat) : Nat :=
  let ns := spokeNodes m.cfg.netc (nodePort m.cfg.netc node - 3)
  match indexOf? (fun n : NodeCfg => n.node == node) (if m.tan.slotB then ns.reverse else ns) with
  | some i => i + 1
  | none => 0
/-- A Spoke port of the module taking over (R415, R416): by a planned handover it launches from T_h on, else split and from 5 µs after
the ACT latch; the nodes that it does not know as refused count as in cycle (DEDUCED, log entry 13). -/
def Mod.resumeSpoke (m : Mod) (th : Option Nat) : Mod :=
  let from_ := match th with | some u => u | none => m.tb.now + 5000 * unitsPerNs
  { m with eth := { m.eth with
    spoke := m.eth.spoke.map fun p => { p with split := p.split || th.isNone, syncFrom := some from_, outFrom := some from_, bothUpFrom := none }
    nodes := m.eth.nodes.map fun x => (x.1, if x.2.st = 5 then x.2 else
      { x.2 with st := 3, missRun := 0, hop := m.lineHop x.1, recheckAt := some m.mono }) } }
/-- A gratuitous ARP for the station address on P1 and P2 (R394, R396). -/
def Mod.announceStation (m : Mod) : Mod :=
  m.placeOn [0, 1] 2 60 (.arp m.cfg.netc.stationIp (stationMac m.cfg.ident.node) 0xFFFFFFFFFFFF)
/-- The `SYNC` outputs carry the levels of the units routed to them while ACT is set (R28, R298). -/
def Mod.syncPins (m : Mod) : Mod :=
  let pin (r : Nat) : Bool := m.act && (m.cfg.tou.any fun c => c.route == r && (at_ m.tous c.unum {}).level)
  { m with tb := { m.tb with sync := [pin 0x20, pin 0x21] } }
/-- The role that the module takes as its ACT latch sets (R318). -/
def Tandem.latchedRole (t : Tandem) : Role :=
  match t.role with
  | .standby => if t.ilk.claimCond = 4 then .active else .solo
  | .offline => .solo
  | r => r
/-- What a standby resumes as its ACT latch sets (R336 to R338, R446, R530). -/
def Mod.takeOver (m : Mod) (th : Option Nat) : Mod :=
  let k := m.tan.ilk
  let m1 := (m.updTan fun t => { t with switchovers := t.switchovers + 1, takeoverNs := (k.actAt + phUs 5 - k.condAt) * 5 / 8,
                                        sh := { t.sh with hdr := none, recs := [], flying := [], bseq := t.sh.cseq } }).log 5 5 0x34 0 []
  (((m1.resumeTasks th).takeStages.resumeCe).resumeAe).resumeSpoke th
/-- The ACT latch sets (R323, R318, R341). -/
def Mod.actLatched (m : Mod) : Mod :=
  let standby := decide (m.tan.role = .standby)
  let ho := if standby && m.tan.ilk.claimCond == 4 then m.tan.ho.pend else none
  let m1 := m.updTan fun t => { t with role := t.latchedRole, ilk := t.ilk.latch m.mono, lastTakeover := m.dt, releaseMark := false }
  let m2 := if standby then m1.takeOver (ho.map fun p => unitsOfTicks (dtTicks p.th)) else m1
  let m3 := match ho with | some p => m2.noteHo p.reason | none => m2.updTan fun t => { t with ho := { t.ho with pend := none } }
  m3.restage.syncPins.announceStation.hartLatched.ltJudge

/-! A batch that reaches the new holder of ACT. -/

/-- A cycle of the releasing module is committed on the module that has taken over (R341): its image is applied at its instant
where it came by D, and the task may be released again. -/
def Mod.takeDrained (m : Mod) (h : BatchHdr) (recs : List ShRec) : Mod :=
  if !m.act || h.btype ≠ 1 then m
  else
    let img := recs.foldl (fun a r => match r with | .output i => i | _ => a) []
    let a := m.unitsOfShort h.apply
    let fits (p : PendApply) : Bool := p.rel == h.relnum
    let ok (p : PendApply) : Bool := !h.overrun && decide (m.tb.now ≤ p.dl)
    let take (p : PendApply) : PendApply := if fits p then { p with img := some img, inTime := ok p } else p
    let entry : PendApply := { rel := h.relnum, at_ := a, dl := a, img := some img, inTime := !h.overrun }
    m.updTask h.task fun k => { k with
      running := match k.running with | some c => if c.away then none else some c | none => none
      pend := if k.pend.any fits then k.pend.map take
              else if m.tb.now < a then (k.pend ++ [entry]).mergeSort fun x y => decide (x.at_ ≤ y.at_)
              else k.pend }

end Sys2Proof.Machine
end

