-- ==== Sys2Proof/Machine/Analogue.lean ====
section
/-! DEFINITION. The commands of the analogue loops and HART (15_analogue_loops.md). -/

namespace Sys2Proof.Machine

/-! Current inputs. -/

/-- A conversion of a used channel completes at its grid instant (R479, R480, R489). -/
def Mod.convertAi (m : Mod) (ch : Nat) (raw : Real32) : Mod :=
  let c := m.aiCfg ch
  if c.use = 0 then m
  else
    let m1 := m.toNow ((m.aiCh ch).next c)
    m1.updAi ch fun h => (h.keep (m1.an.keepClosed m1.mono)).convert c raw (m1.trim 0 ch) m1.an.shed m1.an.adcRef (m1.aiMalf ch) m1.tb.now m1.dt
/-- `AI_CONVERSION` (R479, R480). -/
def execAiConversion (ch : Fin 16) (raw : Real32) (s : State) : Host.Outcome State Fault Refusal :=
  s.run fun m => m.whenLive fun m => m.convertAi ch raw
/-- `LS_UPDATE` (R481): every 1 ms. -/
def execLsUpdate (ch : Fin 16) (currentUa : Nat) (s : State) : Host.Outcome State Fault Refusal :=
  s.run fun m => m.whenLive fun m =>
    let m1 := m.to ((m.aiCh ch).lsAt + phMs 1)
    m1.updAi ch fun h => h.lsUpdate (m1.aiCfg ch) currentUa m1.mono
/-- `LS_THERMAL_OFF` (R481). -/
def execLsThermalOff (ch : Fin 16) (s : State) : Host.Outcome State Fault Refusal :=
  s.run fun m => m.whenLive fun m => m.updAi ch fun h => if h.lsOn then h.lsThermalTrip m.mono else h
/-- `LS_THERMAL_RESTART` (R481): 1 s after the switching off. -/
def execLsThermalRestart (ch : Fin 16) (s : State) : Host.Outcome State Fault Refusal :=
  s.run fun m => m.whenLive fun m =>
    m.onDue (if (m.aiCh ch).lsThermal && !m.an.shed then some ((m.aiCh ch).lsOffAt + phS 1) else none) fun m =>
      m.updAi ch fun h => h.lsEnable

/-! Current outputs. -/

/-- `AO_SENSE_SAMPLE` (R485): every 50 µs. -/
def execAoSenseSample (ch : Fin 8) (mA : Real32) (s : State) : Host.Outcome State Fault Refusal :=
  s.run fun m => m.whenLive fun m =>
    let m1 := m.to ((m.aoCh ch).sampleAt + phUs 50)
    m1.updAo ch fun h => h.sense (m1.aoCfg ch) (m1.trim 1 ch) m1.an.shed mA m1.mono
/-- `COMPLIANCE_CLEAR` (R485). -/
def execComplianceClear (ch : Fin 8) (s : State) : Host.Outcome State Fault Refusal :=
  s.run fun m => m.whenLive fun m =>
    m.onDue (if (m.aoCh ch).compliance then some (m.aoCh ch).clearDue else none) fun m =>
      m.updAo ch fun h => { h with compliance := false, open_ := false, short := 0 }
/-- `AO_THERMAL` (R484): `hot` while the junction is held at its limit. -/
def execAoThermal (ch : Fin 8) (hot : Bool) (s : State) : Host.Outcome State Fault Refusal :=
  s.run fun m => m.whenLive fun m => m.updAo ch fun h => { h with thermal := hot }

/-! HART. -/

/-- A response or burst is taken into device `k` (R491): a mismatch that rises is recorded. -/
def Mod.hartHeard (m : Mod) (k : Nat) (r : HartRsp) : Mod :=
  let c := m.hartCfg k
  let was := (m.hartDev k).mismatch
  let m1 := m.updHart k fun d => d.heard c r
  if (m1.hartDev k).mismatch && !was then m1.log 7 3 0x54 c.ch [] else m1
/-- The pass-through request ends (R493). -/
def Mod.ptEnd (m : Mod) (pstat : Nat) (rc devStat : BitVec 8) (data : Bytes) : Mod :=
  match m.an.pt with
  | some p => { m with an := { m.an with pt := none, ptRsp := ptResponse p pstat rc devStat data } }
  | none => m
/-- A response ends the transaction in progress where it answers its command; any other is heard only (R491 to R493). -/
def Mod.hartAnswer (m : Mod) (k : Nat) (r : HartRsp) : Mod :=
  let m1 := m.hartHeard k r
  match (m.hartDev k).trans with
  | none => if m.act then m1 else m1.updHart k fun d => { d with st := 2 }
  | some t =>
    if (hartCmd (m.hartCfg k) t m.an.pt).1 ≠ r.cmd then m1
    else
      let m2 := m1.updHart k fun d => { d with trans := none, tries := 0, fails := 0 }
      (if t = .pass then m2.ptEnd 0 r.rc r.devStat r.data else m2).hartGo k
/-- `HART_RESPONSE` (R491). -/
def execHartResponse (k : Fin 24) (r : HartRsp) (s : State) : Host.Outcome State Fault Refusal :=
  s.run fun m => m.whenLive fun m => if k < m.an.hart.length then m.hartAnswer k r else m
/-- `HART_BURST` (R491): with `ACCEPT_BURST`, like a response to command 3. -/
def execHartBurst (k : Fin 24) (r : HartRsp) (s : State) : Host.Outcome State Fault Refusal :=
  s.run fun m => m.whenLive fun m =>
    if (m.hartCfg k).acceptBurst && decide (k < m.an.hart.length) then
      m.updHart k fun d => { d with burstSeen := true, dv := r.dv, devStat := r.devStat, rc := r.rc }
    else m
/-- The transaction in progress fails (R491): a retry leaves, or the transaction has failed; a pass-through that fails ends with
`LOST` or `TIMEOUT` (R493). -/
def Mod.hartFail (m : Mod) (k : Nat) : Mod :=
  let t := (m.hartDev k).trans
  let m1 := m.updHart k fun d => d.failed (m.hartCfg k) m.mono
  if (m1.hartDev k).trans.isSome then m1.hartSend k
  else
    let m2 := if t = some .pass then m1.ptEnd (if (m1.hartDev k).st = 3 then 4 else 2) 0 0 [] else m1
    m2.hartGo k
/-- `HART_TRANSACTION_TIMEOUT` (R491). -/
def execHartTransactionTimeout (k : Fin 24) (s : State) : Host.Outcome State Fault Refusal :=
  s.run fun m => m.whenLive fun m => if (m.hartDev k).trans.isSome then m.hartFail k else m
/-- `HART_REIDENTIFY` (R491): every 10 s while `LOST`. -/
def execHartReidentify (k : Fin 24) (s : State) : Host.Outcome State Fault Refusal :=
  s.run fun m => m.whenLive fun m => m.onDue (if (m.hartDev k).st = 3 then (m.hartDev k).reidentAt else none) fun m =>
    (m.updHart k fun d => { d with identDue := true, reidentAt := some (m.mono + phS 10) }).hartGo k
/-- `HART_SCAN_DUE` (R491). -/
def execHartScanDue (k : Fin 24) (s : State) : Host.Outcome State Fault Refusal :=
  s.run fun m => m.whenLive fun m => m.onDue (m.hartDev k).scanAt fun m =>
    (m.updHart k fun d => { d with scanDue := true, scanAt := some (m.mono + phMs (100 * (m.hartCfg k).scanPer)) }).hartGo k
/-- A write of `HART_PT_REQ` (R493): queued, or refused and reported in `PSTAT`. -/
def Mod.ptRequest (m : Mod) (data : Bytes) : Mod × Nat :=
  let k := (at_ data 0 0).toNat
  let p : HartPt := { entry := k, cmd := BitVec.ofNat 8 ((at_ data 1 0).toNat), tag := BitVec.ofNat 8 ((at_ data 3 0).toNat), data := data.drop 4,
                      due := m.mono + phS 2 }
  let say (pstat : Nat) : Mod := { m with an := { m.an with ptRsp := ptResponse p pstat 0 0 [] } }
  if data.length < 4 ∨ data.length ≠ 4 + (at_ data 2 0).toNat ∨ 240 < (at_ data 2 0).toNat then (m, stLength)
  else if m.cfg.hart.length ≤ k then (m, stRange)
  else if !m.act then (say 3, stNotActive)
  else if m.an.pt.isSome then (say 5, stBusy)
  else if (m.hartDev k).st = 3 then (say 4, stOk)
  else (({ say 1 with an := { (say 1).an with pt := some p } } : Mod).hartGo k, stOk)
/-- `HART_PT_REQ` (R493). -/
def execHartPtReq (rq : Req) (data : Bytes) (s : State) : Host.Outcome State Fault Refusal :=
  s.run fun m => m.writeOne rq 3 false fun _ m => m.ptRequest data
/-- `HART_PT_TIMEOUT` (R493): 2 s after the acceptance. -/
def execHartPtTimeout (s : State) : Host.Outcome State Fault Refusal :=
  s.run fun m => m.whenLive fun m => m.onDue (m.an.pt.map (·.due)) fun m =>
    match m.an.pt with
    | none => m
    | some p => ((m.ptEnd 2 0 0 []).updHart p.entry fun d =>
        if d.trans = some .pass then { d with trans := none, tries := 0 } else d).hartGo p.entry

end Sys2Proof.Machine
end

