-- ==== Sys2Proof/Machine/DispOps.lean ====
section
/-! DEFINITION. Named operations of the faceplate display (18_faceplate_display.md). -/

namespace Sys2Proof.Machine

/-- The glyphs of R545. -/
def glyph (d : Nat) : Nat :=
  at_ [0x3F, 0x06, 0x5B, 0x4F, 0x66, 0x6D, 0x7D, 0x07, 0x7F, 0x6F, 0x77, 0x7C, 0x39, 0x5E, 0x79, 0x71] d 0

/-- A dash (R545). -/
def dash : Nat := 0x40

/-- Digits of seven segments from segment `s` of common `c`, leftmost first (R544). -/
def digits (c s : Nat) : List Nat → Nat
  | [] => 0
  | g :: t => g * 2 ^ (40 * c + s) + digits c (s + 7) t

/-- Segment `s` of common `c` where `b` holds. -/
def seg (c s : Nat) (b : Bool) : Nat := if b then 2 ^ (40 * c + s) else 0

/-- The `n` hex digits of `v`, leftmost first. -/
def hexGlyphs (n v : Nat) : List Nat := (List.range n).map fun i => glyph (v / 16 ^ (n - 1 - i) % 16)

/-- A station number of 4 decimal digits, leading zeros blank (R544). -/
def stationGlyphs (v : Nat) : List Nat :=
  (List.range 4).map fun i =>
    if v < 10 ^ (3 - i) ∧ i < 3 then 0 else glyph (v / 10 ^ (3 - i) % 10)

/-- What the content is drawn from (R544): station and configuration are absent in `MAINTENANCE`. -/
structure DispIn where
  station : Option Nat
  slotB : Bool
  role : Nat
  maint : Option Nat
  trial : Bool
  version : Option Nat
  locked : Bool
  holdover : Bool
  alarm : Bool
  si : Bool
  unfit : Bool
  health : Bool
  icons : List Bool
  deriving DecidableEq, Repr

/-- The full content (R544, R546), marker clear. -/
def DispIn.content (d : DispIn) : Nat :=
  let st := match d.station with | some n => stationGlyphs n | none => List.replicate 4 dash
  let maj := match d.version with | some v => hexGlyphs 2 (v / 2 ^ 24 % 256) | none => [dash, dash]
  let min := match d.version with | some v => hexGlyphs 2 (v / 2 ^ 16 % 256) | none => [dash, dash]
  let bld := match d.version with | some v => hexGlyphs 4 (v % 2 ^ 16) | none => List.replicate 4 dash
  let icon (i : Nat) : Bool := at_ d.icons i false
  digits 0 0 st + seg 0 28 (!d.slotB) + seg 0 29 d.slotB + seg 0 (30 + d.role) true
  + seg 0 37 d.maint.isSome + seg 0 38 d.trial
  + digits 1 0 maj + seg 1 14 true + digits 1 15 min + seg 1 29 true + seg 1 30 d.locked + seg 1 31 d.holdover
  + seg 1 32 d.alarm + seg 1 33 d.si + seg 1 34 d.unfit + seg 1 35 d.health
  + digits 2 0 bld + ((List.range 12).map fun i => seg 2 (28 + i) (icon i)).sum
  + digits 3 0 (match d.maint with | some r => hexGlyphs 2 (r % 256) | none => [0, 0])
  + ((List.range 26).map fun i => seg 3 (14 + i) (icon (12 + i))).sum

/-- The start frame (R546). -/
def startFrame : Nat := digits 0 0 (List.replicate 4 dash) + seg 0 30 true + digits 1 0 [dash, dash] + digits 1 15 [dash, dash]
  + digits 2 0 (List.replicate 4 dash)

/-- Common `c` of a frame. -/
def common (f c : Nat) : Nat := f / 2 ^ (40 * c) % 2 ^ 40

/-- A panel with common `c` written. -/
def setCommon (p c v : Nat) : Nat := p - common p c * 2 ^ (40 * c) + v * 2 ^ (40 * c)

/-- Common 0 with the marker lit or clear. -/
def withMarker (v : Nat) (lit : Bool) : Nat := v % 2 ^ 39 + (if lit then 2 ^ 39 else 0)

/-- The CRC of a frame (R529, R553). -/
def frameCrc (f : Nat) : Nat := crc16Reg 0xFFFF (natLe 20 f)

/-- The rails and the supply permit a frame (R548). -/
def railsOk (hi mid : Nat) (vorOk : Bool) : Bool :=
  decide (32000 ≤ hi) && decide (hi ≤ 40000) && decide (16000 ≤ mid) && decide (mid ≤ 20000) && vorOk

/-- The lower limit of a band in °C (R550). -/
def bandLow (b : Nat) : Int := at_ [-40, -20, -5, 10, 30, 50] b 50

/-- The band of a temperature (R550). -/
def bandOf (t : Int) : Nat := ((List.range 6).filter fun b => decide (b = 0 ∨ (b = 5 ∧ 50 < t) ∨ (b < 5 ∧ bandLow b ≤ t))).foldl Nat.max 0

/-- The band after a reading: raised at once, lowered only 2 °C below the lower limit of the present one (R550). -/
def bandNext (b : Nat) (t : Int) : Nat :=
  let n := bandOf t
  if b ≤ n then n else if t ≤ bandLow b - 2 then n else b

/-- The duration of one waveform in phases (R550). -/
def waveformPh (b : Nat) : Nat := phMs (at_ [1200, 460, 180, 90, 60, 46] b 46)

/-- The common of waveform `n` (R549). -/
def waveCommon (n : Nat) : Nat := if 3 ≤ n ∧ n ≤ 5 then n - 2 else 0

/-- A frame starts, or waits (R548 to R551); where no frame is wanted none waits. -/
def Disp.start (d : Disp) (content hi mid : Nat) (vorOk : Bool) (mono : Nat) : Disp :=
  let d0 := { d with hiMv := hi, midMv := mid }
  if d.step ≠ 0 then d0
  else if !d.want ∧ content = d.completed then { d0 with railWait := false, coldWait := false }
  else
    let rails := railsOk hi mid vorOk
    let cold := decide (d.tempC < -40)
    if !rails || cold then { d0 with railWait := !rails, coldWait := cold }
    else { d0 with railWait := false, coldWait := false, want := false, abandon := false, step := 1, drawing := content, pol := upd d.pol 0 (!·),
                   mem := content, copy := content, crc := frameCrc content, latched := d.band,
                   endAt := mono + waveformPh d.band }

/-- What the panel shows once the waveform in progress has ended (R549). -/
def Disp.drawn (d : Disp) : Nat :=
  match d.step with
  | 1 => setCommon d.panel 0 (withMarker (common d.panel 0) true)
  | 2 => setCommon d.panel 0 (withMarker (common d.mem 0) true)
  | 3 => setCommon d.panel 1 (common d.mem 1)
  | 4 => setCommon d.panel 2 (common d.mem 2)
  | 5 => setCommon d.panel 3 (common d.mem 3)
  | 6 => setCommon d.panel 0 (withMarker (common d.mem 0) false)
  | _ => d.panel

/-- A waveform ends (R549 to R552): the frame completes, is abandoned, or goes on. One in its sixth waveform has completed with it
(log entry 150). -/
def Disp.waveformEnd (d : Disp) (hi mid : Nat) (vorOk : Bool) (mono : Nat) : Disp :=
  if d.step = 0 then d
  else
    let d1 := { d with hiMv := hi, midMv := mid, panel := d.drawn, marker := decide (d.step ≠ 6) }
    if d.step = 6 then
      { d1 with step := 0, completed := d.drawing, frames := d.frames + 1, want := d.want || d.abandon, abandon := false }
    else
      let rails := railsOk hi mid vorOk
      let cold := decide (d.tempC < -40)
      if d.abandon || !rails || cold then
        { d1 with step := 0, torn := d.torn + 1, want := true, abandon := false, railWait := !rails, coldWait := cold }
      else { d1 with step := d.step + 1, pol := upd d.pol (waveCommon (d.step + 1)) (!·), latched := d.band, endAt := mono + waveformPh d.band }

/-- The frame memory is scanned against its CRC (R553); whether its bits have changed by themselves is free (log entry 1). -/
def Disp.scan (d : Disp) (flipped : Bool) : Disp :=
  if !flipped && decide (frameCrc d.mem = d.crc) then d
  else { d with fault := true, faults := d.faults + 1, mem := d.copy, crc := frameCrc d.copy,
                abandon := decide (d.step ≠ 0), want := true }

/-- `DISP_STATE` (R555). -/
def Disp.stateWord (d : Disp) : Nat :=
  packBits [decide (d.step ≠ 0), d.marker, d.railWait, d.coldWait, d.fault] + 32 * d.latched + 256 * d.step

end Sys2Proof.Machine
end

