-- ==== Sys2Proof/Machine/Tandem.lean ====
section
/-! DEFINITION. The commands of faults, of the interlock, of bells, shadows, handovers and health
(01_architecture.md R23 to R32, 10_tandem_redundancy.md). -/

namespace Sys2Proof.Machine

/-! Faults. -/

/-- The unit of a memory error, and the core pair or lane that R183 counts. -/
def eccUnit : EccSrc → Nat × Option Nat
  | .tcm p => (p, some p.val)
  | .sram => (0, none)
  | .dram => (0, none)
  | .ceStore l => (l, some (4 + l.val))
/-- A corrected error (R23, R346): counted, recorded. -/
def Mod.eccCorrected (m : Mod) (unit : Nat) : Mod :=
  ((m.updTan fun t => { t with hl := { t.hl with ecc := m.optime :: t.hl.ecc.filter fun a => decide (m.optime < a + 3600000) } }).log
    1 2 7 unit []).count 7 0 1
/-- `LOCKSTEP_MISMATCH` (R25, R26). -/
def execLockstepMismatch (pair : Fin 4) (s : State) : Host.Outcome State Fault Refusal :=
  s.run fun m => m.whenLive fun m => m.fatal 1 pair (some pair)
/-- `UNCORRECTABLE_ECC` (R24 to R26). -/
def execUncorrectableEcc (src : EccSrc) (s : State) : Host.Outcome State Fault Refusal :=
  s.run fun m => m.whenLive fun m => m.fatal 2 (eccUnit src).1 (eccUnit src).2
/-- `CORRECTABLE_ECC` (R23). -/
def execCorrectableEcc (src : EccSrc) (s : State) : Host.Outcome State Fault Refusal :=
  s.run fun m => m.whenLive fun m => m.eccCorrected (eccUnit src).1
/-- `WATCHDOG_EXPIRY` (R27). -/
def execWatchdogExpiry (pair : Fin 4) (s : State) : Host.Outcome State Fault Refusal :=
  s.run fun m => m.whenLive fun m => m.softFault 1 pair
/-- `FIRMWARE_EXCEPTION` (R27). -/
def execFirmwareException (pair : Fin 4) (s : State) : Host.Outcome State Fault Refusal :=
  s.run fun m => m.whenLive fun m => m.softFault 2 pair
/-- The claim keeper releases a claim that the tandem logic no longer refreshes (R321). -/
def Mod.keeperExpires (m : Mod) : Mod :=
  if m.tan.ilk.ownClaim then m.releaseClaim.updIlk fun k => { k with keeperRefresh := false } else m
/-- `CLAIM_KEEPER_EXPIRY` (R321): 100 µs have passed since the last refresh. -/
def execClaimKeeperExpiry (s : State) : Host.Outcome State Fault Refusal :=
  s.run fun m => m.keeperExpires
/-- The start that follows `FAILED` (R319, R63): none after 3 counted starts within 1 h of operating time. -/
def Mod.failedRestart (m : Mod) : Mod :=
  let recent := m.tan.starts.filter fun a => decide (m.optime < a + 3600000)
  if m.cas.jrn.pend = 2 ∨ m.cas.pendW.contains .rollback then m.orderStart { cause := 5, cold := some true }
  else if 3 ≤ recent.length then m.updTan fun t => { t with failedAt := none }
  else m.orderStart { cause := m.tan.failCause }
/-- `FAILED_RESTART` (R319). -/
def execFailedRestart (s : State) : Host.Outcome State Fault Refusal :=
  s.run fun m => m.whenLive fun m =>
    m.onDue (if m.tan.role = .failed then m.tan.failedAt.map (· + phMs 100) else none) Mod.failedRestart

/-! The interlock. -/

/-- A claim made without ACT is withdrawn (R324): an `OFFLINE` module decides again after 2 ms, a `STANDBY` module that claimed on
bell silence judges the line after 1 ms, any other records the glitch. -/
def Mod.withdraw (m : Mod) : Mod :=
  let m1 := m.releaseClaim
  match m.tan.role with
  | .offline => m1.updIlk fun k => { k with glitch := true, redecideAt := some (m.mono + phMs 2) }
  | .standby =>
    let m2 := m1.updTan fun t => { t with ho := { t.ho with pend := none } }
    if m.tan.ilk.claimCond = 2 then m2.updIlk fun k => { k with glitch := true, silenceSpent := true, recheckAt := some (m.mono + phMs 1) }
    else (m2.updIlk fun k => { k with glitch := true }).log 5 3 0x31 0 []
  | _ => m1.updIlk fun k => { k with glitch := true }
/-- A claim that meets the partner's is withdrawn in slot B at once, in slot A after 1 ms (R324). -/
def Mod.settleConflict (m : Mod) : Mod :=
  if m.tan.conflict then
    if m.tan.slotB then m.withdraw
    else m.updIlk fun k => { k with conflictAt := k.conflictAt.or (some m.mono) }
  else m.updIlk fun k => { k with conflictAt := none }
/-- The module asserts its claim on a condition of R322; 0 at start-up (R318). -/
def Mod.assertClaim (m : Mod) (cond : Nat) : Mod :=
  if m.tan.ilk.ownClaim then m else (m.updIlk fun k => k.assert cond m.mono).settleConflict
/-- `OUTPUT_TIMEOUT` (R29): time runs on to the end of the stage's timeout; the stages take the state of R29. -/
def execOutputTimeout (o : OutCh) (s : State) : Host.Outcome State Fault Refusal :=
  s.run fun m =>
    let p : OutStage × Nat := match o with
      | .dio c => ((m.dioCh c).out, (m.dioCfg c).otmoMs)
      | .ao c => ((m.aoCh c).out, (m.aoCfg c).otmoMs)
    let k := m.tan.ilk
    let from_ := if k.act then Nat.max (p.1.refresh.getD 0) k.actAt else k.actClearedAt
    (m.to (from_ + phMs p.2)).restage
/-- A pending handover ends between `HO_ACK` and T_h (R340). -/
def Mod.cancelHo (m : Mod) (cause : Nat) : Mod :=
  match m.tan.ho.pend with
  | none => m
  | some _ =>
    (((m.updTan fun t => { t with ho := { t.ho with pend := none, asked := none, lastCause := cause } }).control
      7 [BitVec.ofNat 8 cause])).cmdDone 3 0 0 cause
/-- A standby whose fitness has cleared before T_h cancels the handover (R340). -/
def Mod.watchFit (m : Mod) : Mod :=
  if (match m.tan.ho.pend with | some p => !p.giving | none => false) && decide (m.tan.role = .standby) && !m.fit then m.cancelHo 8 else m
/-- The receiver's reading after a voltage on the line (R584), and what follows from it (R29, R324, R340). -/
def Mod.peerVoltage (m : Mod) (mv : Nat) (held : Bool) : Mod :=
  let m1 := (m.updIlk fun k => k.setPeer (readPeer k.peer mv held) m.mono).restage
  if m1.live then m1.settleConflict.watchFit else m1
/-- `ILK_PEER_CHANGE` (R584, R321). -/
def execIlkPeerChange (mv : Nat) (held50 : Bool) (s : State) : Host.Outcome State Fault Refusal :=
  s.run fun m => m.peerVoltage mv held50
/-- `ACT_LATCH_SET` (R323): 20 µs of the unclaimed level have passed beside the own claim. -/
def execActLatchSet (s : State) : Host.Outcome State Fault Refusal :=
  s.run fun m => m.whenLive fun m => m.onDue m.tan.ilk.actDue Mod.actLatched
/-- `OUTPUT_ENABLE` (R30): 5 µs after the latch the stages leave OFF. -/
def execOutputEnable (s : State) : Host.Outcome State Fault Refusal :=
  s.run fun m => m.whenLive fun m =>
    m.onDue m.tan.ilk.enableAt fun m => (m.updIlk fun k => { k with enableAt := none }).restage
/-- `STANDBY_CLAIM` (R322, condition 1). -/
def execStandbyClaim (s : State) : Host.Outcome State Fault Refusal :=
  s.run fun m => m.whenLive fun m => m.onDue m.tan.standbyClaimDue (·.assertClaim 1)
/-- `SLOT_A_CLAIM_EXPIRY` (R324). -/
def execSlotAClaimExpiry (s : State) : Host.Outcome State Fault Refusal :=
  s.run fun m => m.whenLive fun m =>
    m.onDue (m.tan.ilk.conflictAt.map (· + phMs 1)) fun m => if m.tan.conflict then m.withdraw else m
/-- The line is judged 1 ms after a claim on bell silence was withdrawn (R324). -/
def Mod.recheckClaim (m : Mod) : Mod :=
  let m1 := m.updIlk fun k => { k with recheckAt := none }
  if m.tan.role ≠ .standby then m1
  else if m.tan.tl.silent && m.tan.hb.silent then
    match m.tan.ilk.peer with
    | .claimed => m1.detach 7
    | .open_ => m1.updIlk fun k => { k with openWaitAt := some (m.mono - phMs 1 + phS 10) }
    | .unclaimed => m1.log 5 3 0x31 0 []
  else m1.log 5 3 0x31 0 []
/-- `CLAIM_WITHDRAW_RECHECK` (R324). -/
def execClaimWithdrawRecheck (s : State) : Host.Outcome State Fault Refusal :=
  s.run fun m => m.whenLive fun m => m.onDue m.tan.ilk.recheckAt Mod.recheckClaim
/-- `OPEN_WAIT_EXPIRY` (R324). -/
def execOpenWaitExpiry (s : State) : Host.Outcome State Fault Refusal :=
  s.run fun m => m.whenLive fun m => m.onDue m.tan.ilk.openWaitAt fun m =>
    let m1 := m.updIlk fun k => { k with openWaitAt := none }
    if m.tan.role = .standby ∧ m.tan.ilk.peer = .open_ then m1.detach 7 else m1
/-- A bell has been received on either path in the 2 ms before now. -/
def Mod.bellHeard (m : Mod) : Bool := m.tan.tl.heard m.mono (phMs 2) || m.tan.hb.heard m.mono (phMs 2)
/-- `PEER_BLOCKED_TIMEOUT` (R318). -/
def execPeerBlockedTimeout (s : State) : Host.Outcome State Fault Refusal :=
  s.run fun m => m.whenLive fun m => m.onDue m.tan.ilk.peerBlockedAt fun m =>
    let m1 := m.updIlk fun k => { k with peerBlockedAt := none }
    if m.tan.role = .offline ∧ m.tan.ilk.ownClaim ∧ !m.act ∧ m.tan.ilk.openThroughout ∧ !m.bellHeard then m1.detach 10 else m1
/-- The role decision of an `OFFLINE` module (R318, R322): against a partner that runs, the checks of R344 follow once its `HELLO` has come,
in their order; with an exclusion against a partner that is only seen as `STANDBY` it is `DETACHED` (R184); otherwise the module claims. -/
def Mod.decideRole (m : Mod) : Mod :=
  if m.tan.partnerRuns m.mono then
    match m.tan.partnerHello with
    | some h => m.judgeHello h
    | none => m
  else if m.boot.excl ≠ 0 ∧ m.tan.partnerUp m.mono then m.detach 4
  else (m.updIlk fun k => { k with peerBlockedAt := some (m.mono + phMs 2) }).assertClaim 0
/-- `OFFLINE_REDECIDE` (R318, R324). -/
def execOfflineRedecide (s : State) : Host.Outcome State Fault Refusal :=
  s.run fun m => m.whenLive fun m => m.onDue m.tan.ilk.redecideAt fun m =>
    let m1 := m.updIlk fun k => { k with redecideAt := none }
    if m.tan.role = .offline then m1.decideRole else m1
/-- The module waits for its partner to go: `DETACHED` or `CATCHING_UP` (R320). -/
def Tandem.waits (t : Tandem) : Bool := decide (t.role = .detached) || decide (t.role = .catchingUp)
/-- `PARTNER_GONE` (R320): once the partner has gone, the module restarts. -/
def execPartnerGone (s : State) : Host.Outcome State Fault Refusal :=
  s.run fun m => m.whenLive fun m =>
    let due : Option Nat :=
      if !m.tan.waits then none
      else if m.tan.partnerGone m.mono then some m.mono
      else if m.tan.ilk.peer = .unclaimed then some (m.tan.ilk.peerSince + m.tan.trec.loss) else none
    m.onDue due fun m => (m.log 5 5 0x30 0 []).orderStart { cause := 6 }

/-! Bells. -/

/-- The own bell frame (R326). -/
def Mod.ownBell (m : Mod) : Bell :=
  let t := m.tan
  { role := t.role.code, claiming := t.ilk.ownClaim, act := t.ilk.act, release := t.releaseMark, fit := m.fit,
    home := t.trec.home == (if t.slotB then 2 else 1), revertWait := t.ho.waitAck, seq := t.seqTl, health := m.healthWord,
    score := t.hl.score, tq := m.tq, peerline := t.ilk.peer.code, shseq := if t.ilk.act then t.sh.bseq else t.sh.cseq, tsend := m.short,
    icrc := BitVec.ofNat 32 m.icrc, fwmain := BitVec.ofNat 32 m.fwMain,
    aostage := (List.range 8).map fun n => if m.ownedAo.contains n then SMap.get 0 m.ce.staged (0x80 + n) else 0 }
/-- The flags of an own heartbeat frame (R327). -/
def Mod.ownFlags (m : Mod) : Nat :=
  let t := m.tan
  packBits [false, false, m.fit, t.releaseMark, t.ilk.act, t.ilk.ownClaim]
/-- A bell goes out on each path (R326, R327, R329). -/
def Mod.sendBells (m : Mod) : Mod :=
  let m1 := m.updTan fun t => { t with seqTl := t.seqTl + 1, seqHb := t.seqHb + 1, bellDue := m.mono + phUs 25 }
  let m2 := m1.sendTl 1 .bell m1.ownBell.bytes
  m2.send (.heartbeat (heartbeatBits m2.tan.seqHb.toNat m2.ownFlags))
/-- `BELL_SEND` (R326): 25 µs after the last bell. -/
def execBellSend (s : State) : Host.Outcome State Fault Refusal :=
  s.run fun m => m.whenLive fun m => (m.to m.tan.bellDue).sendBells
/-- The conditions whose unbroken time R349 and R350 count. -/
def Mod.swapHolds (m : Mod) : Bool :=
  m.act && m.tan.trec.swapOnScore && m.tan.partnerStandby m.mono && m.tan.partnerFit &&
    (match m.tan.bell with | some b => decide (m.tan.hl.score + m.tan.trec.swapMargin ≤ b.score) | none => false)
/-- See `Mod.swapHolds`. -/
def Mod.revertHolds (m : Mod) : Bool :=
  m.tan.trec.home == (if m.tan.slotB then 2 else 1) && decide (m.tan.role = .standby) && m.fit && !m.tan.sh.gapSeen &&
    (match m.tan.bell with | some b => decide (b.score ≤ m.tan.hl.score) | none => false)
/-- The times since which they hold. -/
def Mod.watchHandover (m : Mod) : Mod :=
  m.updTan fun t => { t with ho := { t.ho with
    swapFrom := if m.swapHolds then t.ho.swapFrom.or (some m.mono) else none
    revertFrom := if m.revertHolds then t.ho.revertFrom.or (some m.mono) else none } }
/-- `STANDBY_UNFIT` of a module holding ACT; its rise is recorded (R347). -/
def Mod.watchUnfit (m : Mod) : Mod :=
  let u := m.tan.standbyUnfit m.mono
  let m1 := m.updTan fun t => { t with hl := { t.hl with standbyUnfit := u } }
  if u && !m.tan.hl.standbyUnfit then m1.log 5 4 0x32 0 [] else m1
/-- What a partner's role and fitness, as a bell shows them, mean for this module (R318, R340, R344). -/
def Mod.partnerSeen (m : Mod) (b : Bell) : Mod :=
  let m1 :=
    if b.role = 3 then (if m.tan.role = .solo then m.partnerJoined else m)
    else
      let k := if m.tan.role = .active then m.partnerLeft else m
      if b.role = 2 then k else k.unconfirmTabs.updTan fun t => { t with sh := { t.sh with serving := false } }
  let m2 := if m1.act && !b.fit && (match m1.tan.ho.pend with | some p => p.giving && p.acked | none => false) then m1.cancelHo 8 else m1
  m2.watchUnfit.watchHandover
/-- Batches that the partner has committed by its `SHSEQ`, and the largest time from cycle end to commit (R333, R354). -/
def Mod.noteLag (m : Mod) (shseq : BitVec 32) : Mod :=
  let done (b : BitVec 32) : Bool := decide ((shseq - b).toNat < 2 ^ 31)
  let worst := (m.tan.sh.flying.filter fun e => done e.1).foldl (fun a e => Nat.max a ((m.mono - e.2) * 5 / 8)) m.tan.sh.lagNs
  m.updTan fun t => { t with sh := { t.sh with flying := t.sh.flying.filter fun e => !done e.1, lagNs := worst } }
/-- A bell with `RELEASE` from the module that held ACT makes a `STANDBY` claim (R322, condition 3), once for each rise of it. -/
def Mod.releaseHeard (m : Mod) (now before : Bool) : Mod :=
  if now && !before && decide (m.tan.role = .standby) then m.assertClaim 3 else m
/-- ACT has changed in the partner: pins in parallel are judged again 1 ms later (R464). -/
def Mod.maskPins (m : Mod) : Mod := { m with dio := { m.dio with ch := m.dio.ch.map fun h => { h with maskFrom := m.mono } } }
/-- A valid bell frame (R326, R328). -/
def Mod.bellCame (m : Mod) (b : Bell) : Mod :=
  let holds (r : Nat) : Bool := r == 1 || r == 4
  let before := match m.tan.bell with | some o => o.release | none => false
  let m1 := m.updTan fun t => { t.noteRole b m.mono with bell := some b, tl := t.tl.valid 32 b.seq.toNat m.mono t.trec.loss,
                                                         ilk := { t.ilk with silenceSpent := false } }
  let m2 := if (m.tan.bell.map fun o => holds o.role) = some (holds b.role) then m1 else m1.maskPins
  ((m2.noteLag b.shseq).partnerSeen b).releaseHeard b.release before
/-- `BELL_FRAME` (R328, R329): a frame with a wrong CRC is discarded; without a lane none arrives. -/
def execBellFrame (frame : Bytes) (s : State) : Host.Outcome State Fault Refusal :=
  s.run fun m => m.whenLive fun m =>
    match m.linkUp, tlBell frame with
    | true, some b => (m.bellCame b).ltJudge
    | _, _ => m
/-- A heartbeat frame (R327, R328). -/
def Mod.heartbeatCame (m : Mod) (bits : BitVec 20) : Mod :=
  match parseHeartbeat bits with
  | none => m.updTan fun t => { t with hbCrcErr := t.hbCrcErr + 1 }
  | some (seq, fl) =>
    let before := match m.tan.hbFlags with | some f => f.getLsbD 1 | none => false
    (m.updTan fun t => { t with hb := t.hb.valid 8 seq m.mono t.trec.loss, hbFlags := some (BitVec.ofNat 4 (fl / 4)),
                                ilk := { t.ilk with silenceSpent := false } }).releaseHeard (bitOf fl 3) before
/-- `HEARTBEAT_FRAME` (R327, R328). -/
def execHeartbeatFrame (bits : BitVec 20) (s : State) : Host.Outcome State Fault Refusal :=
  s.run fun m => m.whenLive fun m => m.heartbeatCame bits
/-- A path of a module. -/
def Tandem.path (t : Tandem) : BellPath → BPath
  | .twinLink => t.tl
  | .heartbeat => t.hb
/-- A path changed. -/
def Tandem.setPath (t : Tandem) (p : BellPath) (f : BPath → BPath) : Tandem :=
  match p with
  | .twinLink => { t with tl := f t.tl }
  | .heartbeat => { t with hb := f t.hb }
/-- A path becomes silent (R328): recorded while a partner is present; both silent make a standby claim (R322, condition 2), and
show the holder of ACT that its partner has left. -/
def Mod.pathSilent (m : Mod) (p : BellPath) : Mod :=
  let m1 := m.updTan fun t => t.setPath p BPath.goSilent
  let m2 := if m.present then m1.log 5 4 0x33 0 [] else m1
  if !(m2.tan.tl.silent && m2.tan.hb.silent) then m2
  else match m2.tan.role with
    | .standby => if m2.tan.ilk.silenceSpent then m2 else m2.assertClaim 2
    | .active => m2.partnerLeft
    | _ => m2.unconfirmTabs
/-- `BELL_PATH_SILENT` (R328). -/
def execBellPathSilent (path : BellPath) (s : State) : Host.Outcome State Fault Refusal :=
  s.run fun m => m.whenLive fun m =>
    let p := m.tan.path path
    m.onDue (if p.silent ∨ path = .heartbeat ∧ m.testing 8 then none else some (p.silentDue m.tan.trec.loss m.boot.t0)) fun m =>
      (m.pathSilent path).ltJudge
/-- `BELL_PATH_RESTORED` (R328): after 1 s of valid bells. -/
def execBellPathRestored (path : BellPath) (s : State) : Host.Outcome State Fault Refusal :=
  s.run fun m => m.whenLive fun m =>
    let p := m.tan.path path
    m.onDue (if p.silent then p.steadyAt m.tan.trec.loss m.mono else none) fun m =>
      m.updTan fun t => t.setPath path fun p => { p with silent := false }

/-! Shadows and resynchronisation. -/

/-- A gap in `BSEQ` or a failed `COMMIT` (R333): the batch is discarded; a standby resynchronises, a newcomer's attempt cannot complete. -/
def Mod.batchGap (m : Mod) : Mod :=
  let m1 := m.updTan fun t => { t with sh := { t.sh with lost := t.sh.lost + 1, hdr := none, recs := [], rxSeq := none } }
  match m.tan.role with
  | .standby =>
    let m2 := (m1.cancelHo 8).catchUp
    m2.updTan fun t => { t with sh := { t.sh with gapSeen := true } }
  | .catchingUp => m1.updTan fun t => { t with sh := { t.sh with bulkDone := false, seenTasks := [], seenAlarm := false, gapSeen := true } }
  | _ => m1
/-- Resynchronisation is complete (R344 step 5): the newcomer is `STANDBY`, where its links allow shadowing (R335). -/
def Mod.resyncEnds (m : Mod) : Mod :=
  if m.tan.role = .catchingUp ∧ m.resyncDone then
    (m.updTan fun t => { t with role := .standby,
                                sh := { t.sh with attempt := 0, gapSeen := false, ms := (m.mono - t.sh.startedAt) / phMs 1 } }).judgeLink
  else m
/-- Segments of a batch are in: with its `COMMIT` record it is applied in one step (R333). -/
def Mod.batchEnds (m : Mod) : Mod :=
  match m.tan.sh.hdr, m.tan.sh.recs.getLast? with
  | some h, some (.commit _) =>
    let recs := m.tan.sh.recs
    if batchChecks h recs then ((m.commitBatch h recs).takeDrained h recs).resyncEnds.windowRuns else m.batchGap
  | _, _ => m
/-- A module that takes batches: the standby, a newcomer, and the new holder of ACT those of cycles that drain (R333, R341, R344). -/
def Mod.takesBatches (m : Mod) : Bool :=
  m.linkUp && (match m.tan.role with | .standby => true | .catchingUp => true | .active => true | _ => false)
/-- `SHADOW_SEGMENT` (R332, R333). -/
def execShadowSegment (seg : ShSeg) (s : State) : Host.Outcome State Fault Refusal :=
  s.run fun m => m.whenLive fun m =>
    if !m.takesBatches then m
    else match seg with
    | .start h recs =>
      if (match m.tan.sh.rxSeq with | some q => h.bseq != q + 1 | none => false) then m.batchGap
      else (m.updTan fun t => { t with sh := { t.sh with hdr := some h, recs := recs } }).batchEnds
    | .more recs => (m.updTan fun t => { t with sh := { t.sh with recs := t.sh.recs ++ recs } }).batchEnds
/-- A `DETACHED` module whose own cassette holds the image that its partner runs starts from it (R65). -/
def Mod.joinImage (m : Mod) : Mod :=
  let h := m.cas.hdr
  match m.tan.partnerHello with
  | none => m
  | some p =>
    if m.tan.role ≠ .detached ∨ m.tan.detach ≠ 2 ∨ h.active < 8 ∧ (h.slot h.active).icrc = p.icrc.toNat then m
    else match (List.range 8).find? fun n => (h.slot n).st == 2 && (h.slot n).icrc == p.icrc.toNat with
    | some n =>
      let k := m.newActive (h.activate n)
      if k.hdrLost then k else k.orderStart { cause := 4, cold := some true }
    | none => m
/-- A standby follows its partner to another image (R65, R149, R181): an online change is prepared and its plan hash sent, any other
switch is made by a restart. Whether a partner that goes back from a trial to `PREVIOUS` was commanded to, or its window has failed, no
message of R330 tells: it is a free value (log entries 1, 104). -/
def Mod.followImage (m0 : Mod) (n : Nat) (hash : BitVec 256) : Mod :=
  let m := m0.draw.2
  let h := m.cas.hdr
  let how := if n = h.previous then (if h.commit = 1 ∧ m0.draw.1.getLsbD 0 then 3 else 1) else 0
  if m.tan.role = .standby ∧ isOnline m.cfg.secs (parseCfg (m.slotImage n)).secs then
    let k := (m.beginChange n how).planDone
    match k.change.plan with
    | some p =>
      if k.change.phase = 2 ∧ BitVec.ofNat 256 (beNat p.hash) ≠ hash then
        ({ k with plan := { k.plan with hashMismatch := true }, change := { k.change with phase := 0, cfg := none, plan := none } } : Mod).detach 3
      else k
    | none => k
  else
    if how = 3 then (m.recordRollback.rolledBack.recordRollbackOf h.active).orderStart { cause := 5, cold := some true }
    else
      let k := m.newActive (if how = 1 then h.exchange else h.activate n)
      if k.hdrLost then k else k.orderStart { cause := 4, cold := some true }
/-- The slot of an image other than `ACTIVE`, by its ICRC. -/
def Mod.slotOf (m : Mod) (icrc : BitVec 32) : Option Nat :=
  (List.range 8).find? fun n => (m.cas.hdr.slot n).st == 2 && (m.cas.hdr.slot n).icrc == icrc.toNat && n != m.cas.hdr.active
/-- The answer of the partner in phase 2 of an online change (R149, R181): its plan hash against that of the new plan. -/
def Mod.changeAnswered (m : Mod) (h : Hello) : Mod :=
  match m.change.plan with
  | some p =>
    let same := decide (BitVec.ofNat 256 (beNat p.hash) = h.planHash)
    { m with change := { m.change with peer := if same then 1 else 2 }, plan := { m.plan with hashMismatch := m.plan.hashMismatch || !same } }
  | none => m
/-- A change that has been planned with measured costs is planned without them when a partner joins (R181). -/
def Mod.replanChange (m : Mod) : Mod :=
  match m.change.plan, m.change.cfg with
  | some p, some c =>
    if !p.measured then m
    else match m.planChange c [] with
      | .inl q => { m with change := { m.change with plan := some q } }
      | .inr _ => m
  | _, _ => m
/-- A module that runs with measured costs re-plans without them when a partner joins (R181, R182). -/
def Mod.replanUnmeasured (m0 : Mod) : Mod :=
  let m := m0.replanChange
  if m.plan.measured = [] then m
  else match makePlan (m.planIn m.cfg [] none) with
  | .inr _ => m
  | .inl p => { m with plan := { m.plan with measured := [], replans := Nat.min 255 (m.plan.replans + 1),
                                             next := some (p, boundaryFrom m.cfg.tasks (m.tb.now + unitsMs 10)) } }
/-- Both modules send `HELLO` when one of them is at step 11 of its start (R330): an executing module answers one that its bells still show
`OFFLINE`. -/
def Mod.answerHello (m : Mod) : Mod :=
  if m.tan.role.executes && (match m.tan.bell with | some b => b.role == 0 | none => false) then m.sendHello else m
/-- `HELLO` (R330, R344 step 1, R181, R65): the answer to a change being prepared; the image that a standby is to follow; or the checks of
R344. The plan hashes are compared where the checks before them pass and the newcomer of the two has a plan. -/
def Mod.helloCame (m : Mod) (h : Hello) : Mod :=
  let m1 : Mod := { m with
    tan := { m.tan with partnerHello := some h }
    plan := { m.plan with partnerHash := (natLe 32 h.planHash.toNat).reverse } }
  let shown := BitVec.ofNat 32 m.icrc
  if m.change.phase = 2 ∧ m.tan.role.executes ∧ m.change.cfg.map (fun c => BitVec.ofNat 32 c.icrc) = some h.icrc then
    m1.changeAnswered h
  else
    let m2 : Mod := { m1 with plan := { m1.plan with
      hashMismatch := m1.plan.hashMismatch ||
        (m.cas.running && (if m.tan.role.executes then helloCheck h m.hello else helloCheck m.hello h) == 3) } }
    if (m.tan.role = .standby ∨ m.tan.role = .catchingUp) ∧ h.icrc ≠ shown then
      match m2.slotOf h.icrc with
      | some n => m2.followImage n h.planHash
      | none => m2.judgeHello h
    else if m.tan.role = .offline ∧ !m2.tan.partnerRuns m2.mono then m2
    else
      let m3 := if m.tan.role = .standby ∧ 1 ≤ m.change.phase ∧ m.change.phase ≤ 2 then
          ({ m2 with change := { m2.change with phase := 0, cfg := none, plan := none } } : Mod) else m2
      ((m3.judgeHello h).joinImage).replanUnmeasured
/-- See `Mod.helloCame`; a module in `MAINTENANCE` takes part in no tandem (R69). -/
def execHello (h : Hello) (s : State) : Host.Outcome State Fault Refusal :=
  s.run fun m => m.whenLive fun m => if m.maint then m else (m.helloCame h).answerHello
/-- `RESYNC_REQ` (R330, R344, R181): a module with measured costs first re-plans without them at the next common boundary. -/
def Mod.resyncAsked (m : Mod) : Mod :=
  if !m.tan.role.executes then m
  else
    let m1 := if m.tan.role = .active then m.partnerLeft else m
    let m2 := m1.replanUnmeasured
    if m2.plan.next.isNone then m2.serveResync else m2.updTan fun t => { t with sh := { t.sh with waiting := true } }
/-- See `Mod.resyncAsked`. The last committed `BSEQ` that the request names changes nothing: the whole image is sent. -/
def execResyncReq (_bseq : BitVec 32) (s : State) : Host.Outcome State Fault Refusal :=
  s.run fun m => m.whenLive Mod.resyncAsked
/-- `RESYNC_TIMEOUT` (R344): a second attempt, then `DETACHED`. -/
def execResyncTimeout (s : State) : Host.Outcome State Fault Refusal :=
  s.run fun m => m.whenLive fun m =>
    m.onDue (if m.tan.role = .catchingUp ∧ 1 ≤ m.tan.sh.attempt then some (m.tan.sh.attemptAt + phS 10) else none) fun m =>
      if m.tan.sh.attempt = 1 then m.startResync 2 else m.detach 8
/-- A twin-link lane changes (R320, R330, R335): `HELLO` goes out when the link comes up; a standby that may no longer shadow detaches; with
both lanes down no partner receives shadows, and an `ACTIVE` module is `SOLO` (R317; DEDUCED, log entry 125). -/
def Mod.laneChanged (m : Mod) (l : Fin 2) (up : Bool) : Mod :=
  let had := m.linkUp
  let m1 := m.updTan fun t => if l = 0 then { t with lane0 := up, lane0At := if t.lane0 = up then t.lane0At else m.mono }
                              else { t with lane1 := up, lane1At := if t.lane1 = up then t.lane1At else m.mono }
  let t := m1.tan
  if up then (if had then m1 else m1.sendHello)
  else if t.role = .active ∧ !t.lane0 ∧ !t.lane1 then m1.partnerLeft
  else m1.judgeLink
/-- `TWIN_LINK_LANE_CHANGE` (R335, R320). -/
def execTwinLinkLaneChange (l : Fin 2) (up : Bool) (s : State) : Host.Outcome State Fault Refusal :=
  s.run fun m => m.whenLive fun m => if m.clk.override && up then m else (m.laneChanged l up).ltJudge
/-- The module leaves `DETACHED` (R318): the checks of R344 are made again. -/
def Mod.rejoin (m : Mod) : Mod :=
  match m.tan.partnerHello with
  | some h => match helloCheck m.hello h with
    | 0 => m.catchUp
    | r => m.updTan fun t => { t with detach := r }
  | none => m.catchUp
/-- The instant at which the reason of a `DETACHED` module clears by itself (R320), where it does. -/
def Mod.detachClears (m : Mod) : Option Nat :=
  let t := m.tan
  if t.role ≠ .detached then none
  else match t.detach with
  | 2 => match t.partnerHello with | some h => if h.icrc = m.hello.icrc then some m.mono else none | none => none
  | 3 => match t.partnerHello with | some h => if h.planHash = m.planHash then some m.mono else none | none => none
  | 5 => if !t.shadowPermitted m.shadowRate then none
         else if t.lane0 && t.lane1 then some (Nat.min t.lane0At t.lane1At + phS 1)
         else some ((if t.lane0 then t.lane0At else t.lane1At) + phS 1)
  | 6 => if t.lane0 && t.lane1 then some (Nat.max t.lane0At t.lane1At + phS 1) else none
  | 7 => match t.tl.steadyAt t.trec.loss m.mono, t.hb.steadyAt t.trec.loss m.mono with | some a, some b => some (Nat.max a b) | _, _ => none
  | _ => none
/-- `DETACH_REASON_CLEAR` (R320, R318). -/
def execDetachReasonClear (s : State) : Host.Outcome State Fault Refusal :=
  s.run fun m => m.whenLive fun m => m.onDue m.detachClears Mod.rejoin

/-! Planned handover. -/

/-- `HO_REQ` (R330, R340): the module holding ACT judges it; its partner notes the reason, with which it counts the handover (R350). -/
def execHoReq (reason : BitVec 8) (s : State) : Host.Outcome State Fault Refusal :=
  s.run fun m => m.whenLive fun m =>
    if m.act then m.judgeHo reason.toNat else m.updTan fun t => { t with ho := { t.ho with asked := some reason.toNat } }
/-- `HO_SET` (R340): the standby answers `HO_ACK` while it is fit and has seen no gap, else `HO_CANCEL` with `STANDBY_REFUSED`. -/
def Mod.hoSetCame (m : Mod) (th : BitVec 96) : Mod :=
  if m.act then m
  else if m.tan.role = .standby ∧ m.fit ∧ !m.tan.sh.gapSeen then
    (m.updTan fun t => { t with ho := { t.ho with
      pend := some { th := th, reason := t.ho.asked.getD 1, giving := false, acked := true } } }).control 6 (natLe 12 th.toNat)
  else ((m.updTan fun t => { t with ho := { t.ho with asked := none, lastCause := 7 } }).control 7 [7]).cmdDone 3 0 0 7
/-- See `Mod.hoSetCame`. -/
def execHoSet (th : BitVec 96) (s : State) : Host.Outcome State Fault Refusal :=
  s.run fun m => m.whenLive fun m => m.hoSetCame th
/-- `HO_ACK` (R340). -/
def execHoAck (th : BitVec 96) (s : State) : Host.Outcome State Fault Refusal :=
  s.run fun m => m.whenLive fun m => m.updTan fun t => { t with ho := { t.ho with
    pend := t.ho.pend.map fun p => if p.giving ∧ p.th = th then { p with acked := true } else p } }
/-- `HO_CANCEL` (R603, R577): the pending or requested handover ends with the cause. -/
def execHoCancel (cause : BitVec 8) (s : State) : Host.Outcome State Fault Refusal :=
  s.run fun m => m.whenLive fun m =>
    (m.updTan fun t => { t with ho := { t.ho with pend := none, asked := none, lastCause := cause.toNat } }).cmdDone 3 0 0 cause.toNat
/-- `HANDOVER_ACK_TIMEOUT` (R340). -/
def execHandoverAckTimeout (s : State) : Host.Outcome State Fault Refusal :=
  s.run fun m => m.whenLive fun m => match m.tan.ho.pend with
    | some p => if p.giving && !p.acked then (m.toNow (p.units - unitsMs 5)).cancelHo 6 else m
    | none => m
/-- `HANDOVER_RELEASE` (R341): T_h on the module that gives up ACT. -/
def execHandoverRelease (s : State) : Host.Outcome State Fault Refusal :=
  s.run fun m => m.whenLive fun m => match m.tan.ho.pend with
    | some p => if p.giving && p.acked && m.act then (m.toNow p.units).hoRelease else m
    | none => m
/-- `HANDOVER_TAKE` (R341, R322 condition 4): T_h + 1 µs on the standby. -/
def execHandoverTake (s : State) : Host.Outcome State Fault Refusal :=
  s.run fun m => m.whenLive fun m => match m.tan.ho.pend with
    | some p => if !p.giving && decide (m.tan.role = .standby) then (m.toNow (p.units + 1000 * unitsPerNs)).assertClaim 4 else m
    | none => m

/-! Health. -/

/-- The period of a patrol test in ms on the standby, and on the holder of ACT; 0 where it is not run (R345). -/
def patrolMs (t : Patrol) (act : Bool) : Nat :=
  match t with
  | .sramTcm => 10000
  | .dram => 600000
  | .corePair _ => if act then 60000 else 1000
  | .lane _ => if act then 1000 else 100
  | .dioStage _ => if act then 0 else 10000
  | .aoStage _ => if act then 0 else 10000
  | .adcRef => 1000
  | .tlLane _ => 1
/-- The bit that a failure of a patrol test sets (R345); none for the scrubs, whose corrected errors count. -/
def patrolBit : Patrol → Option Nat
  | .sramTcm => none
  | .dram => none
  | .corePair p => some p
  | .lane l => some (4 + l.val)
  | .dioStage _ => some 10
  | .aoStage _ => some 11
  | .adcRef => some 12
  | .tlLane l => some (13 + l.val)
/-- A new defect of the holder of ACT asks for a handover with reason 5 (R348). -/
def Mod.judgeDefects (m : Mod) : Mod :=
  let w := m.healthWord
  let d := w.toNat % 256 + 256 * b2n (w.getLsbD 18)
  let rose := (List.range 9).any fun i => bitOf d i && !bitOf m.tan.hl.defects i
  let m1 := m.updTan fun t => { t with hl := { t.hl with defects := d } }
  if rose && m.act && m.tan.partnerStandby m.mono && m.tan.partnerFit then m1.requestHo 5 else m1
/-- A patrol pass ends (R345, R346): its result, and whether it ended late. The reference check and the idle-symbol checks show their last
result; any other failure stays until the next start (log entry 73). -/
def Mod.patrolPass (m : Mod) (t : Patrol) (pass late : Bool) : Mod :=
  let put (k : Mod) (i : Nat) (fails : Bool) : Mod :=
    let b : BitVec 30 := BitVec.ofNat 30 (2 ^ i)
    k.updTan fun t => { t with hl := { t.hl with tested := if fails then t.hl.tested ||| b else t.hl.tested &&& ~~~b } }
  let m1 := m.updTan fun k => { k with hl := { k.hl with patrolAt := k.hl.patrolAt.filter (fun e => e.1 != t) ++ [(t, m.mono)] } }
  let m2 := if late then put m1 9 true else m1
  let m3 := match t with
    | .adcRef => put { m2 with an := { m2.an with adcRef := !pass } } 12 !pass
    | .tlLane l => put m2 (13 + l.val) !pass
    | _ => if pass then m2 else match patrolBit t with | some i => put m2 i true | none => m2.eccCorrected 0
  m3.judgeDefects.watchFit
/-- The end of the last pass of a patrol test; the start where there has been none. -/
def Mod.patrolLast (m : Mod) (t : Patrol) : Nat :=
  match m.tan.hl.patrolAt.find? fun e => e.1 == t with
  | some e => e.2
  | none => m.boot.t0
/-- `PATROL_TEST` (R345): at its period, 10 % and more after it where it is late. -/
def execPatrolTest (t : Patrol) (pass late : Bool) (s : State) : Host.Outcome State Fault Refusal :=
  s.run fun m => m.whenLive fun m =>
    let p := phMs (patrolMs t m.act)
    if (m.tan.role = .standby ∨ m.act) ∧ p ≠ 0 then
      (m.to (m.patrolLast t + (if late then p + p / 10 + 1 else p))).patrolPass t pass late
    else m
/-- Score and fitness are computed again (R346, R347), with what R340, R348, R349 and R350 judge by them. -/
def Mod.recomputeHealth (m : Mod) (tempC : Int) (ownPinOk : Bool) : Mod :=
  let m1 := m.updTan fun t => { t with hl := { t.hl with tempC := tempC, ownPinOk := ownPinOk, recomputedAt := m.mono } }
  let w := m1.healthWord
  let sc := healthScore w
  let m2 := m1.updTan fun t => { t with hl := { t.hl with score := sc } }
  m2.watchFit.judgeDefects.watchUnfit.watchHandover
/-- `HEALTH_RECOMPUTE` (R347): every 100 ms. -/
def execHealthRecompute (tempC : Int) (ownPinOk : Bool) (s : State) : Host.Outcome State Fault Refusal :=
  s.run fun m => m.whenLive fun m => ((m.to (m.tan.hl.recomputedAt + phMs 100)).recomputeHealth tempC ownPinOk).ltJudge
/-- The margin of R349 has held: a handover with reason 3. -/
def Mod.swapNow (m : Mod) : Mod := if m.swapHolds then m.requestCounted 3 else m
/-- The conditions of R350 have held: a handover with reason 2. -/
def Mod.revertNow (m : Mod) : Mod := if m.revertHolds then m.requestCounted 2 else m
/-- `SWAP_HOLD_EXPIRY` (R349). -/
def execSwapHoldExpiry (s : State) : Host.Outcome State Fault Refusal :=
  s.run fun m => m.whenLive fun m => m.onDue (m.tan.ho.swapFrom.map (· + phS m.tan.trec.swapHoldS)) Mod.swapNow
/-- `REVERT_DELAY_EXPIRY` (R350). -/
def execRevertDelayExpiry (s : State) : Host.Outcome State Fault Refusal :=
  s.run fun m => m.whenLive fun m => m.onDue (m.tan.ho.revertFrom.map (· + phS m.tan.trec.tRevertS)) Mod.revertNow

/-! Commands and reads. -/

/-- The `HANDOVER` command (R577, R340, R603). -/
def Mod.handoverCmd (m : Mod) (force : Bool) : CmdAns :=
  let refusal : Option Nat := if m.act then m.hoRefusal else if m.tan.role = .standby then none else some 4
  match refusal with
  | some 1 => { m := m, status := stBusy }
  | some 2 => { m := m, status := stBusy }
  | some 3 => { m := m, status := stBusy }
  | some 9 => { m := m, status := stBusy }
  | some _ => if force && m.act then { m := m.requestHo 1, status := stAccepted } else { m := m, status := stNoPartner }
  | none => { m := m.requestHo 1, status := stAccepted }
/-- A handover that was refused at once has its cause in `RESULT` (R577). -/
def Mod.settleHandover (m : Mod) : Mod :=
  if m.act && m.tan.ho.pend.isNone then m.cmdDone 3 0 0 m.tan.ho.lastCause else m
/-- Whether the `HANDOVER` object holds a request that is not yet complete (R575). -/
def Mod.handoverOpen (m : Mod) : Bool := (at_ m.eap.cmds 3 {}).open_
/-- `HANDOVER` (R577). -/
def execHandover (rq : Req) (force : Bool) (s : State) : Host.Outcome State Fault Refusal :=
  s.run fun m =>
    let k := m.command rq 3 3 false false fun _ m => m.handoverCmd force
    if k.handoverOpen && !m.handoverOpen then k.settleHandover else k
/-- The revert acknowledgement permits one request; conditions that have held long enough make it at once (R350). -/
def Mod.revertAck (m : Mod) : CmdAns :=
  if !m.tan.ho.waitAck then { m := m, status := stCondition }
  else
    let m1 := m.updTan fun t => { t with ho := { t.ho with waitAck := false, permit := true } }
    let held (a : Option Nat) (s : Nat) : Bool := match a with | some x => decide (x + phS s ≤ m.mono) | none => false
    { m := if held m.tan.ho.revertFrom m.tan.trec.tRevertS then m1.revertNow
           else if held m.tan.ho.swapFrom m.tan.trec.swapHoldS then m1.swapNow else m1 }
/-- `REVERT_ACK` (R577, R350). -/
def execRevertAck (rq : Req) (s : State) : Host.Outcome State Fault Refusal :=
  s.run fun m => m.command rq 4 2 false false fun _ m => m.revertAck
/-- `SHADOW_LAG` is read and cleared (R354). -/
def Mod.readShadowLag (m : Mod) : Mod × Nat × Bytes :=
  (m.updTan fun t => { t with sh := { t.sh with lagNs := 0 } }, stOk, natLe 4 m.tan.sh.lagNs)
/-- `SHADOW_LAG`. -/
def execShadowLag (rq : Req) (s : State) : Host.Outcome State Fault Refusal :=
  s.run fun m => m.readClear rq Mod.readShadowLag

end Sys2Proof.Machine
end

