-- ==== Sys2Proof/Machine/Boot.lean ====
section
/-! DEFINITION. Resets and starts: what a reset leaves, the choice of bank, header and image, loading, and the commands of the reset
and of the commit window (02_cassette_and_startup.md R45 to R47, R60 to R76). -/

namespace Sys2Proof.Machine

/-! Resets. -/

/-- The clock supervisor after a reset: the override and its cause stay (R503, R522). -/
def Clk.reset (c : Clk) : Clk :=
  { override := c.override, cause := c.cause, stall := c.stall, faults := c.faults, stalls := c.stalls }
/-- The module held in reset (R75): the claim is released, what the spec keeps stays, and everything else takes its value after
reset (R14, R29, R525, R538). -/
def Mod.enterReset (m : Mod) : Mod :=
  let k := if m.tan.ilk.ownClaim then m.releaseClaim else m
  let i := k.tan.ilk
  ({ tb := { k.tb with addend := if k.clk.override then k.tb.addend else 0xA0000000, slow := true, sync := [false, false] }
     er := { k.er with latest := [], dropQueue := 0, repeatSat := 0, scanDone := false }
     pmc := { sel := k.pmc.sel, ringSel := k.pmc.ringSel }
     ret := k.ret
     tan := { ilk := { peer := i.peer, peerSince := i.peerSince, actClearedAt := i.actClearedAt, everAct := i.everAct,
                       powerReset := i.powerReset },
              starts := k.tan.starts, slotB := k.tan.slotB, ho := { counted := k.tan.ho.counted } }
     si := { k.si with rep := {}, repAt := none, statusValid := false }
     dio := { ch := k.dio.ch.map fun h => ({ out := h.out } : DioCh), ufMv := k.dio.ufMv, ufOk := k.dio.ufOk }
     an := { ao := k.an.ao.map fun h => ({ out := h.out } : AoCh), shed := k.an.shed }
     clk := k.clk.reset
     sup := { k.sup with holdupReady := false, pfSeen := false, deferred := 0 }
     bkp := { k.bkp with shifts := 0, disciplinedAt := none, capAt := none, setAt := none }
     disp := { panel := k.disp.panel, pol := k.disp.pol, marker := k.disp.marker || decide (k.disp.step ≠ 0) }
     cas := { present := k.cas.present, mem := k.cas.mem, jrn := k.cas.mram, mram := k.cas.mram, tries := k.cas.tries, bus := k.cas.bus }
     bankA := k.bankA, bankB := k.bankB, onB := k.onB
     eap := { nextSess := k.eap.nextSess }
     boot := { inReset := true, resetAt := k.tb.mono, stuckSeen := k.boot.stuckSeen, bankFallback := k.boot.bankFallback,
               order := k.boot.order, pressAt := k.boot.pressAt, pinIgnored := k.boot.pinIgnored, bankSwitch := k.boot.bankSwitch,
               excl := k.boot.excl, fatals := k.boot.fatals }
     otp := k.otp, free := k.free, out := k.out } : Mod).restage
/-- A write on which an ordered start waits is still held back (R63, R64, R79): it proceeds before the reset, which would lose it. -/
def Mod.writesWait (m : Mod) : Bool := m.cas.pendW.any fun w => w != .window
/-- `INTERNAL_RESET` (R70, R577): the reset that a start ordered by the module itself passes through. It waits for the header and the
journal writes that the supply holds back (R59, R63, R64, R79; log entry 132). -/
def execInternalReset (s : State) : Host.Outcome State Fault Refusal :=
  s.run fun m => match m.boot.order with
    | some o => if m.live && !m.writesWait then (m.to o.due).enterReset else m
    | none => m
/-- Whether a press is ignored after a stuck one (R74), with the module: the pin must have read high for 1 s before the press began.
When it went high no command says, so beyond the least time that the answer needs it is a free value (log entry 1). -/
def Mod.pinDead (m : Mod) : Bool × Mod :=
  match m.boot.pinIgnored with
  | none => (false, m)
  | some a =>
    if m.mono < a + phMs 1050 then (true, m)
    else let d := m.draw; (!d.1.getLsbD 0, d.2)
/-- `RESET_PIN_PRESS` (R74): the 50 ms mark of a press. One during the power-on reset is latched, and holds the start after it. -/
def execResetPinPress (s : State) : Host.Outcome State Fault Refusal :=
  s.run fun m =>
    let d := m.pinDead
    if m.boot.pressAt.isSome then m
    else if d.1 then { d.2 with boot := { d.2.boot with pinIgnored := some m.mono } }
    else if m.sup.resetAsserted then { d.2 with boot := { d.2.boot with pressAt := some m.mono, pinIgnored := none } }
    else
      ({ d.2 with boot := { d.2.boot with pressAt := some m.mono, order := none, pinIgnored := none, held := none } } : Mod).enterReset

/-! What a start runs from. -/

/-- An order with the causes that the journal and a commanded bank switch give it: `ROLLBACK`, cold (R63), before `FIRMWARE_CHANGE`
(R66), whose kind is that of the matrix (R147). -/
def Mod.causeOf (m : Mod) (o : ResetOrder) : ResetOrder :=
  if m.cas.jrn.pend = 2 then { o with cause := 5, cold := some true }
  else if m.boot.bankSwitch = some (pickBank m.bankA m.bankB).1 then { o with cause := 8, cold := none } else o
/-- The cause of the start and its order (R63, R66, R70, R74, R511). -/
def Mod.startOrder (m : Mod) : ResetOrder :=
  m.causeOf (match m.boot.order with
    | some o => o
    | none =>
      { cause := if m.boot.pressAt.isSome then 1 else if m.sup.resetAsserted && !m.sup.coreLost then 9 else 0 })
/-- The reset that ends is a power-on reset (R29, R511). -/
def Mod.powerUp (m : Mod) : Bool := m.tan.ilk.powerReset
/-- The restart kind before the retained area is looked at (R147); true for warm. -/
def startWarm (o : ResetOrder) (restart : BitVec 32) : Bool :=
  if o.cause = 4 ∨ o.cause = 5 then false
  else match o.cold with
    | some c => !c
    | none => restart.getLsbD o.cause
/-- The retained area as a start finds it: its check, and whether the main firmware reads its layout (R146). -/
def Mod.checkRet (m : Mod) : Mod :=
  { m with free := m.free + 1, ret := { m.ret with
      good := !Config.retainFails m.free
      readable := !m.ret.written || decide (m.ret.fw = m.fwMain) || Config.retainReads m.fwMain m.ret.fw } }
/-- Why a warm start is refused (R146). -/
def RetArea.refused (r : RetArea) : Option Nat :=
  if !r.good then some 1 else if !r.readable then some 2 else if !r.written then some 3 else none

/-- t0 (R14, R29, R70, R76, R281, R315, R474, R523, R526, R527): the straps, device time and its quality, operating time; the supplies are
measured anew. -/
def Mod.t0 (m : Mod) (o : ResetOrder) (obs : StartObs) : Mod :=
  let b := m.bkp
  let unset := b.locked || b.osf
  let power := m.powerUp
  { m with
    tb := let u := if unset then 0 else b.sec m.mono * (1000000000 * unitsPerNs)
          { m.tb with now := u, nextTick := u / tickUnits + 1 }
    ptp := { m.ptp with quality := if m.clk.override then .degraded else .free, timeUnset := unset, utc := b.utcOffset }
    er := let e := if m.er.opRun then m.er else m.er.opResume m.mono
          { e with pcycles := if power then e.pcycles + 1 else e.pcycles }
    tan := { m.tan with slotB := obs.posHigh, bellDue := m.mono,
                        ilk := if power then { m.tan.ilk with actClearedAt := m.mono, everAct := false, powerReset := false } else m.tan.ilk }
    an := { m.an with shed := false, supplyOk := true, suppliedAt := m.mono }
    sup := { m.sup.measured with holdupFrom := none, resetAsserted := false, coreLost := false }
    dio := { m.dio with ufOk := m.dio.ufMv.map (ufPresent false) }
    cas := { (m.cas.issue .jedecId 0 []) with present := obs.cassettePresent }
    boot := { m.boot with bankSwitch := none, t0 := m.mono, maintStrap := obs.maintLow, slotId := obs.slotId.toNat, order := some o, pressAt := none,
                          excl := if o.readmit then 0 else m.boot.excl, fatals := if o.readmit then [] else m.boot.fatals } }

/-- A commit that the journal records is put into the header (R62, R73). -/
def Mod.commitHdr (m : Mod) : Mod :=
  let k := m.changeRecorded { m.cas.hdr with commit := 0 } fun j => { j with pend := 1, servedMs := 0, trials := 0 }
  { k with cas := { k.cas with winFrom := none } }
/-- What the journal records and the header does not yet show is completed (R73). -/
def Mod.recoverJournal (m : Mod) : Mod :=
  let j := m.cas.jrn
  if j.pend = 1 then m.commitHdr
  else if j.pend = 2 then
    if m.cas.hdr.active = j.failedSlot then m.rolledBack else m.setJrn fun j => { j with pend := 0 }
  else m
/-- The bank that starts (R66). -/
def Mod.takeBank (m : Mod) : Mod :=
  let p := pickBank m.bankA m.bankB
  let m1 : Mod := { m with onB := p.1 }
  if p.2 then { m1 with boot := { m1.boot with bankFallback := true } }.log 1 5 5 0 [] else m1

/-- The image of a start fails: the rollback is recorded and the header written, and the start goes on with a cause of its own, cold
(R63, R72). -/
def Mod.startRollback (m : Mod) : Mod :=
  let k := m.recordRollback.rolledBack
  { k with boot := { k.boot with order := some { (k.boot.order.getD { cause := 5 }) with cause := 5, cold := some true } } }
/-- Core pairs or lanes excluded beyond what R183 allows. -/
def exclTooMany (excl : Nat) : Bool :=
  decide (3 ≤ ((List.range 4).filter (bitOf excl)).length) || decide (excl / 16 % 16 = 15)
/-- The start is warm (R146, R147): asked for, and not refused by the retained area as `Mod.checkRet` has found it. -/
def Mod.warmStart (m : Mod) (o : ResetOrder) (restart : BitVec 32) : Bool := startWarm o restart && m.ret.refused.isNone
/-- Step 8 of R54 at a start (R180, R183, R184): the plan of the journal where a warm start may use it; no plan where an exclusion
meets a partner that runs. -/
def Mod.startPlan (m : Mod) (img : Bytes) (c : Cfg) : Option (Plan × Bool) ⊕ Reject :=
  let cached := m.cas.jrn.plan.filter fun p =>
    p.icrc == c.icrc && p.fwMain == m.fwMain && p.excl == m.boot.excl && m.warmStart (m.boot.order.getD { cause := 0 }) c.tasks.restart
  if m.boot.excl ≠ 0 ∧ m.tan.partnerUp m.mono then
    match checkTables img c m.fwMain m.otp.tandem m.pmc.sel with
    | some r => .inr r
    | none => .inl none
  else match cached with
  | some p => .inl (some (p, true))
  | none => match planImage img c m.fwMain m.boot.excl [] m.otp.tandem m.pmc.sel none with
    | .inl p => .inl (some (p, false))
    | .inr r => .inr r
/-- The image that starts (R54, R61, R72), from the header in use: its configuration and plan, or the reason of `MAINTENANCE`. The
fuel bounds the rollbacks. -/
def Mod.chooseImage : Nat → Mod → Mod × (Nat ⊕ Cfg × Option (Plan × Bool))
  | 0, m => (m, .inl 5)
  | fuel + 1, m =>
    let h := m.cas.hdr
    let trial := h.commit == 1
    if 8 ≤ h.active then (m, .inl 5)
    else if trial && decide (3 ≤ m.cas.jrn.trials) then Mod.chooseImage fuel m.startRollback
    else
      let m0 := if trial then m.setJrn fun j => { j with trials := j.trials + 1 } else m
      let img := m0.slotImage h.active
      let m1 : Mod := { m0 with cas := m0.cas.fetch (slotBase h.active) img.length }
      if (imgCheck m1.bank.main m1.cas.ownerKey img).isSome then
        if trial || decide (h.previous < 8) then Mod.chooseImage fuel m1.startRollback else (m1, .inl 5)
      else
        let c := parseCfg img
        if !checkReqs img m1.fwMain m1.bank.si.version m1.otp.hwRev m1.otp.variantE then
          if trial then Mod.chooseImage fuel m1.startRollback else (m1, .inl 7)
        else if exclTooMany m1.boot.excl then (m1.planRejected { code := 0x61, where_ := 0xFF }, .inl 8)
        else match m1.startPlan img c with
          | .inl p => (m1, .inr (c, p))
          | .inr r =>
            let m2 := m1.planRejected r
            if trial then Mod.chooseImage fuel m2.startRollback else (m2, .inl 8)
/-- The header in use (R45, R58, R72): the module with it, or the reason of `MAINTENANCE`. -/
def Mod.takeHdr (m : Mod) : Mod × Option Nat :=
  if !m.cas.present then (m, some 3)
  else match pickHdr m.bank.boot m.bank.main (m.cas.read 0 256) (m.cas.read 0x10000 256) with
  | .use k h d =>
    let m1 : Mod := { m with cas := { ((m.cas.fetch 0 256).fetch 0x10000 256) with hdr := h.atStart, copy := some k, degraded := d } }
    (m1, if m1.cas.ownerKey.isNone then some 0xA else if h.unconfigured then some 5 else none)
  | .badFormat => (m, some 9)
  | .none => (m, some 4)
/-- What the start comes to, in the order of the steps of R71 (R72): the configuration, or the reason of `MAINTENANCE`. What the journal
records is completed as soon as a header is in use (R73). -/
def Mod.startChoice (m : Mod) : Mod × (Nat ⊕ Cfg × Option (Plan × Bool)) :=
  let m1 := m.takeBank
  let h := m1.takeHdr
  let k := if h.1.cas.copy.isSome then h.1.recoverJournal else h.1
  let maint (r : Nat) : Mod × (Nat ⊕ Cfg × Option (Plan × Bool)) := (k, .inl r)
  if !m1.bank.valid m1.otp.hwRev then maint 6
  else if m1.boot.maintStrap then maint 1
  else if (m1.boot.order.getD { cause := 0 }).maint then maint 2
  else match h.2 with
  | some r => maint r
  | none => Mod.chooseImage 4 k

/-! Loading. -/

/-- Retained data of a warm start, or the cleared area of a cold one (R142 to R146). -/
def Mod.loadNet (m : Mod) (warm : Bool) : Mod :=
  let n := m.cfg.net
  if warm then
    let r := restoreNet n (startNet n) m.ret
    let m1 := n.insts.foldl (fun (k : Mod) (x : InstCfg) =>
      match k.ret.insts.find? fun e => e.iid == x.iid && x.retain with
      | some e => match carryKind x (some (e.type, e.tver)) with
        | .migrated => k.log 3 2 0x11 x.iid.toNat []
        | .downgraded => k.log 3 4 0x12 x.iid.toNat []
        | .typeChanged => k.log 3 4 0x13 x.iid.toNat []
        | _ => k
      | none => k) m
    let m2 : Mod := { m1 with net := r.1, ret := m1.ret.matching n }
    if r.2 = 0 then m2 else m2.log 3 2 0x15 0 (natLe 4 r.2)
  else { m with net := startNet n, ret := {} }
/-- A point as a warm start finds it: shelving with what is left of it, and removal from service (R258). -/
def RetArea.point (r : RetArea) (d : PtCfg) : Pt :=
  match r.alms.find? fun e => e.1 == d.pid with
  | some e => { shelved := e.2.1, oos := e.2.2 }
  | none => {}
/-- The blocks as step 10 of R71 loads them: retained data restored or cleared, control engine, alarm engine, networks, CAN, field I/O. -/
def Mod.loadBlocks (m : Mod) (obs : StartObs) (warm : Bool) : Mod :=
  let c := m.cfg
  let place := match m.plan.plan with | some p => p.loops | none => []
  let ce0 : Ce := {}
  let ce1 : Ce := { (ce0.switchLoops c.loops place).loadTabs c.tabs with hold := 0, holdLast := 0 }
  let m1 : Mod := { m with
    ce := ce1
    ae := { cfg := c.alarms, pts := c.alarms.points.map (if warm then m.ret.point else fun _ => {}), sgs := c.alarms.sgrps.map fun _ => {},
            fos := c.alarms.fgrps.map fun _ => {} }
    eth := { m.eth with nodes := c.netc.nodes.map (fun n => (n.node, {})), supAt := m.mono }
    cans := mapFrom (fun i _ => Can.boot (at_ c.can.ctrls i {}) (obs.canXcvrFail.getLsbD i)) 0 m.cans
    dio := { m.dio with cfgSafe := true, ch := mapFrom (fun i h =>
      { h with dtNext := m.mono + phS (at_ c.dio i {}).dtest, falseFrom := m.mono, maskFrom := m.mono }) 0 m.dio.ch }
    an := { m.an with
      trimStale := m.trimStale
      ai := mapFrom (fun i h =>
        let a := at_ c.ai i {}
        let h1 : AiCh := { h with keeper := a.use == 0 || decide (m.mono < m.an.suppliedAt + phMs 10) }
        if a.ls then h1.lsEnable else h1) 0 m.an.ai }
    tan := { m.tan with trec := c.ident.trec, hl := { m.tan.hl with
      tested := if obs.canXcvrFail = 0 then m.tan.hl.tested else m.tan.hl.tested ||| BitVec.ofNat 30 (2 ^ 26) } }
    disp := { m.disp with full := true, want := true, sampledAt := m.mono } }
  (((m1.loadNet warm).hartFit).startGrid).restage
/-- The blocks that the configuration leaves unused, and excluded lanes (R508). -/
def Mod.unusedBlocks (m : Mod) : List GateBlk :=
  let c := m.cfg
  (((List.finRange 4).filter fun i => !(at_ c.can.ctrls i.val {}).cen).map fun i => GateBlk.can i) ++
  (((List.finRange 5).filter fun p => !(p.val == 4 || ((at_ c.netc.ports p.val {}).pen &&
      (decide (p.val < 2) || !(spokeNodes c.netc (p.val - 2)).isEmpty)))).map fun p => GateBlk.mac p) ++
  (if c.hart.isEmpty then [GateBlk.hart] else []) ++
  (((List.finRange 4).filter fun l => bitOf m.boot.excl (4 + l.val) ||
      !(match m.plan.plan with | some p => p.loops.any fun e => e.2.1 == l.val | none => false)).map fun l => GateBlk.lane l)
/-- The clock in Hz of a block that can be gated. -/
def gateHz (override : Bool) : GateBlk → Nat
  | .can _ => srcHz override 6
  | .mac _ => srcHz override 5
  | .hart => srcHz override 6
  | .lane _ => srcHz override 3
  | .fmc => srcHz override 4
  | .display => srcHz override 4
/-- Unused blocks are asked to quiesce (R508). -/
def Mod.askGates (m : Mod) : Mod :=
  { m with clk := { m.clk with gating := m.unusedBlocks.map fun b => (b, m.mono + ceilDiv (1024 * 1600000000) (gateHz m.clk.override b)) } }
/-- The record of a supply failure that the backup domain holds (R511). -/
def Mod.logSupplyFail (m : Mod) : Mod :=
  if m.bkp.locked ∨ m.bkp.pfTime = 0 then m
  else
    { m with bkp := { m.bkp with pfTime := 0 }, sup := { m.sup with pfSeen := true, fails := m.sup.fails + 1 } }.log
      1 7 3 0 (natLe 8 m.bkp.pfTime.toNat)
/-- The records of a start (R27, R511, R527, R530). -/
def Mod.logStart (m : Mod) (cause : Nat) (warm : Bool) (version : Nat) : Mod :=
  let m1 := m.log 1 3 1 0 (natLe 1 cause ++ natLe 1 (b2n warm) ++ [0, 0] ++ natLe 4 m.fwMain ++ natLe 4 version)
  let m2 := if cause = 2 then m1.log 1 5 4 0 [] else m1
  m2.logSupplyFail
/-- The bells of the 2 ms that end at step 11, and the lanes that are up then (R318, R322). -/
def Mod.hearStartBell (m : Mod) (obs : StartObs) : Mod :=
  (obs.bells.filterMap parseBell).foldl
    (fun (k : Mod) b => k.updTan fun t => { t.noteRole b m.mono with bell := some b, tl := t.tl.valid 32 b.seq.toNat m.mono t.trec.loss })
    (m.updTan fun t => { t with lane0 := obs.lanes.getLsbD 0, lane1 := obs.lanes.getLsbD 1, lane0At := m.mono, lane1At := m.mono })
/-- What a module in `MAINTENANCE` uses of a sound image: its credentials, its addresses and its ports, on which an HSR ring goes on
(R69, R392, R393, R395, R560). The rest of the image is not in use: `NODE` reads 0 (DESIGN CHOICE, log entry 130). -/
def Cfg.maint (c : Cfg) : Cfg :=
  { cred := c.cred, hasNet := c.hasNet, netc := { c.netc with ptp := none, acts := [], nodes := [] } }
/-- A start with cause `FATAL` or `WATCHDOG` counts toward the limit of R319. -/
def Mod.countStart (m : Mod) (cause : Nat) : Mod :=
  if cause = 6 ∨ cause = 7 then m.updTan fun t => { t with starts := t.starts ++ [m.optime] } else m
/-- The start ends in `MAINTENANCE` (R69, R560): credentials of the active image where it passes steps 1 to 6, else the fallback. -/
def Mod.toMaint (m : Mod) (o : ResetOrder) (reason : Nat) : Mod :=
  let img := if m.cas.hdr.active < 8 then m.slotImage m.cas.hdr.active else []
  let good := decide (m.cas.hdr.active < 8) && (imgCheck m.bank.main m.cas.ownerKey img).isNone
  let m1 := (m.countStart o.cause).logStart o.cause false 0
  { m1 with
    cas := { m1.cas with rolledBack := decide (o.cause = 5) }
    cfg := if good then (parseCfg img).maint else {}
    eap := { m1.eap with fallback := !good }
    disp := { m1.disp with full := true, want := true }
    boot := { m1.boot with state := 6, maintReason := reason, inReset := false, order := none, held := none, cause := o.cause, warm := false,
                           startMs := (m1.mono - m1.boot.t0) / phMs 1 } }
/-- The start ends in `RUN` (R71 steps 8 to 11, R146, R180), with a `HELLO` at step 11 (R330). -/
def Mod.toRun (m : Mod) (o : ResetOrder) (obs : StartObs) (c : Cfg) (p : Option (Plan × Bool)) : Mod :=
  let refused := if startWarm o c.tasks.restart then m.ret.refused else none
  let warm := m.warmStart o c.tasks.restart
  let m1 := m.logStart o.cause warm c.version
  let m2 := match refused with | some r => m1.log 3 4 0x10 0 [BitVec.ofNat 8 r] | none => m1
  let m3 : Mod := { m2 with cfg := c }
  let m4 := match p with
    | some (q, cached) =>
      let k := m3.usePlan q
      if cached then { k with plan := { k.plan with cached := true } } else k.keepPlan q
    | none => m3
  let m5 := m4.loadBlocks obs warm
  let m6 : Mod := { m5.countStart o.cause with
    cas := { m5.cas with running := true, rolledBack := decide (o.cause = 5) }
    boot := { m5.boot with state := 5, maintReason := 0, inReset := false, order := none, held := none, cause := o.cause, warm := warm,
                           startMs := (m5.mono - m5.boot.t0) / phMs 1 } }
  m6.askGates.sendHello.decideRole
/-- The start from step 3 of R71 on: clocks on the PLL, then up to step 11 or to `MAINTENANCE`. -/
def Mod.startGoesOn (m : Mod) (obs : StartObs) : Mod :=
  let m1 := ((m.to (m.boot.t0 + phMs obs.startMs)).hearStartBell obs).draw.2
  let m2 : Mod := { m1 with
    tb := { m1.tb with nextTick := ceilDiv m1.tb.now tickUnits }
    er := m1.er.scan m.free
    boot := { m1.boot with excl := m1.boot.excl ||| obs.selfTest.toNat } }
  let r := m2.checkRet.startChoice
  let o := r.1.boot.order.getD { cause := 0 }
  match r.2 with
  | .inl reason => r.1.toMaint o reason
  | .inr (c, p) => r.1.toRun o obs c p
/-- A start begins at t0 (R70, R71, R501, R503): with `CLKIN` failing, or in the override, the module waits in reset for qualification;
otherwise the domains move to the PLL. -/
def Mod.startAt (m : Mod) (o : ResetOrder) (obs : StartObs) : Mod :=
  let m1 := m.t0 o obs
  if m1.clk.override then
    { m1 with clk := { m1.clk with cmonEn := true, qualifying := true }, boot := { m1.boot with held := some obs } }
  else if !obs.clkinWindowsOk then
    { m1 with clk := { m1.clk.force 4 with cmonEn := true }, boot := { m1.boot with held := some obs },
              ptp := { m1.ptp with quality := .degraded } }.restage
  else
    ({ m1 with tb := { m1.tb with slow := false },
               clk := { m1.clk with cmonEn := true, clkinOk := true, pllLocked := true, src := List.replicate 5 false } } : Mod).startGoesOn obs
/-- `RESET_RELEASE` (R70, R71, R74): the end of the reset in progress; an ordered reset lasts 1 ms. A power-on reset whose end finds the
pin pressed goes over into the reset of the pin. -/
def execResetRelease (obs : StartObs) (s : State) : Host.Outcome State Fault Refusal :=
  s.run fun m =>
    if m.live || m.boot.held.isSome then m
    else if m.sup.resetAsserted && m.boot.pressAt.isSome then
      { m with er := if m.er.opRun then m.er else m.er.opResume m.mono
               sup := { m.sup with resetAsserted := false, holdupFrom := none }, boot := { m.boot with pressAt := some m.mono } }
    else
      let m1 := if m.boot.order.isSome then m.to (m.boot.resetAt + phMs 1) else m
      m1.startAt m1.startOrder obs
/-- `RESET_STUCK` (R74): the pin has stayed low for 10 s since its press was latched. -/
def execResetStuck (obs : StartObs) (s : State) : Host.Outcome State Fault Refusal :=
  s.run fun m => match m.boot.pressAt with
    | none => m
    | some a =>
      let m1 := m.to (a + phS 10)
      let o := m1.causeOf { cause := 2 }
      let m2 : Mod := { m1 with boot := { m1.boot with stuckSeen := true, pinIgnored := some m1.mono } }
      (if o.cause = 2 then m2 else m2.log 1 5 4 0 []).startAt o obs

/-! The journal and the commit window. -/

/-- `PENDING_WRITE_RESUME` (R79): what the supply held back is written as far as it now permits. -/
def Mod.resumeWrites (m : Mod) : Mod :=
  if !m.sup.mayWrite then m
  else
    let has (w : PendWrite) : Bool := m.cas.pendW.contains w
    let j := m.cas.jrn
    let served := if has .window then m.servedMs else j.servedMs
    let m1 : Mod := { m with cas := { m.cas with
      pendW := m.cas.pendW.filter (· == .header)
      mram := m.cas.jrn
      winFrom := if has .window then m.cas.winFrom.map fun a => m.mono - (m.mono - a) % phMs 1 else m.cas.winFrom
      jrn := { j with servedMs := served, pend := if has .rollback then 2 else if has .commit then 1 else j.pend,
                      failedSlot := if has .rollback && !has .header then m.cas.hdr.active else j.failedSlot } } }
    let m2 := (if has .commit then m1.commitHdr else m1).setJrn id
    if m2.sup.mayErase && m2.cas.pendW.contains .header then
      let k := m2.changeHdr m2.cas.hdr
      let shown (j : Journal) : Bool :=
        !k.cas.hdrFailed && (j.pend == 1 && k.cas.hdr.commit == 0 || j.pend == 2 && k.cas.hdr.active != j.failedSlot && k.boot.order.isNone &&
          !(k.changing && decide (2 ≤ k.change.how)))
      k.setJrn fun j => { j with pend := if shown j then 0 else j.pend }
    else m2
/-- See `Mod.resumeWrites`. -/
def execPendingWriteResume (s : State) : Host.Outcome State Fault Refusal := s.run fun m => m.whenLive Mod.resumeWrites
/-- The time served enters the journal (R60, R79). -/
def Mod.storeWindow (m : Mod) : Mod :=
  if m.sup.mayWrite then
    ({ m with cas := { m.cas with lastStore := m.mono, winFrom := m.cas.winFrom.map fun a => m.mono - (m.mono - a) % phMs 1 } } : Mod).setJrn
      fun j => { j with servedMs := m.servedMs }
  else ({ m with cas := { m.cas with lastStore := m.mono, pendW := m.cas.pendW.filter (fun w => w != .window) ++ [.window] } } : Mod).deferWrite
/-- `JOURNAL_WINDOW_WRITE` (R60): once per second while the window runs. -/
def execJournalWindowWrite (s : State) : Host.Outcome State Fault Refusal :=
  s.run fun m => m.whenLive fun m =>
    m.onDue (if m.windowOpen ∧ m.cas.winFrom.isSome then some (m.cas.lastStore + phS 1) else none) Mod.storeWindow
/-- The commit is recorded in the journal, then in the header (R62, R79). -/
def Mod.commitWindow (m : Mod) : Mod :=
  let m1 : Mod := { m with change := { m.change with phase := if m.change.phase = 6 then 0 else m.change.phase } }
  if m.sup.mayWrite then (m1.setJrn fun j => { j with pend := 1 }).commitHdr
  else ({ m1 with cas := { m1.cas with winFrom := none, pendW := m1.cas.pendW ++ [.commit] } } : Mod).deferWrite
/-- `COMMIT_WINDOW_COMPLETE` (R60, R62): the window has been served. -/
def execCommitWindowComplete (s : State) : Host.Outcome State Fault Refusal :=
  s.run fun m => m.whenLive fun m =>
    m.onDue (if m.windowOpen then m.cas.winFrom.map fun a => a + phMs (m.cas.winMs - m.cas.jrn.servedMs) else none) Mod.commitWindow

end Sys2Proof.Machine
end

