-- ==== Sys2Proof/Machine/CanBus.lean ====
section
/-! DEFINITION. The commands of the CAN controllers (13_can_fd.md). -/

namespace Sys2Proof.Machine

/-- Entry to error-passive and to bus-off is recorded (R441). -/
def Mod.logCan (m : Mod) (c : Nat) (before : CanState) : Mod :=
  let now := (m.can c).st
  if now = before then m
  else match now with
    | .passive => m.log 7 3 0x52 c []
    | .busOff => m.log 7 4 0x53 c []
    | _ => m
/-- The controllers run: they stop in the forced override (R502). -/
def Mod.whenCan (m : Mod) (f : Mod → Mod) : Mod := if m.live && !m.clk.override then f m else m
/-- The device time of the start of a frame that ends now (R435): how long it took on the wire is free, since that depends on its stuff bits
(log entry 1). -/
def Mod.canSof (m : Mod) (c : Nat) (f : CanFrame) : BitVec 96 :=
  dtOfTicks (dtTicks m.dt - Config.canFrameTime ((m.can c).rate (m.canCfg c) m.cfg.can.cands)
    (f.id.toNat :: b2n f.ide :: b2n f.fd :: b2n f.brs :: f.data.map (·.toNat)))
/-- The object stored, if any, takes the timestamp of the frame that stored it (R435). -/
def Can.stamped (c : Can) (obj : Option Nat) (sof : BitVec 96) : Can :=
  match obj with
  | some n => { c with rx := upd c.rx n fun o => { o with ts := sof } }
  | none => c
/-- A received frame (R435, R436, R444, R448, R449): the object's store releases its `EVENT` tasks. -/
def Mod.canReceived (m : Mod) (c : Nat) (f : CanFrame) : Mod :=
  let d := m.draw
  let m0 := d.2
  let r := (m0.can c).receive (m0.canCfg c) m0.cfg.can.cands f m0.act m0.dt m0.mono d.1.toNat
  let m1 := ((m0.updCan c fun _ => r.1.stamped r.2 (m0.canSof c f)).count 0x60 c 1).logCan c (m.can c).st
  match r.2 with
  | some n => m1.trigger 2 n fun q => q == c
  | none => m1
/-- `CAN_FRAME_RECEIVED` (R435): an error-free frame ends on the bus, from which a link test disconnects the controller (R420). -/
def execCanFrameReceived (c : Fin 4) (f : CanFrame) (s : State) : Host.Outcome State Fault Refusal :=
  s.run fun m => m.whenCan fun m => if m.testing (9 + c) then m else m.canReceived c f
/-- `CAN_TX_SUCCESS` (R437): the frame on the bus has been sent. -/
def Mod.canSent (m : Mod) (c : Nat) : Mod :=
  let r := (m.can c).txSuccess (m.canCfg c)
  let m1 := m.updCan c fun _ => r.1
  match r.2 with
  | some f => (m1.send (.can c f)).count 0x60 c 1
  | none => m1
/-- See `Mod.canSent`. -/
def execCanTxSuccess (c : Fin 4) (s : State) : Host.Outcome State Fault Refusal := s.run fun m => m.whenCan fun m => m.canSent c
/-- `CAN_ARBITRATION_LOST` (R438). -/
def execCanArbitrationLost (c : Fin 4) (s : State) : Host.Outcome State Fault Refusal :=
  s.run fun m => m.whenCan fun m => m.updCan c fun k => k.arbLost (m.canCfg c) m.mono
/-- `CAN_BUS_ERROR` (R441, R442, R444). -/
def execCanBusError (c : Fin 4) (err : CanErr) (tx : Bool) (s : State) : Host.Outcome State Fault Refusal :=
  s.run fun m => m.whenCan fun m => if m.testing (9 + c) then m else
    (m.updCan c fun k => k.busError (m.canCfg c) m.cfg.can.cands err tx m.mono m.optime).logCan c (m.can c).st
/-- `CAN_TXTMO_EXPIRY` (R438). -/
def execCanTxtmoExpiry (c : Fin 4) (obj : Nat) (s : State) : Host.Outcome State Fault Refusal :=
  s.run fun m => m.whenCan fun m => m.onDue (at_ (m.can c).tx obj {}).due fun m => m.updCan c fun k => k.txTimeout obj m.mono
/-- `CAN_RECOVERY_START` (R443). -/
def execCanRecoveryStart (c : Fin 4) (s : State) : Host.Outcome State Fault Refusal :=
  s.run fun m => m.whenCan fun m =>
    m.onDue (if (m.can c).st = .busOff then (m.can c).boffDue else none) fun m =>
      m.updCan c fun k => { k with st := .recovering, boffDue := none }
/-- `CAN_RECOVERY_COMPLETE` (R443). -/
def execCanRecoveryComplete (c : Fin 4) (s : State) : Host.Outcome State Fault Refusal :=
  s.run fun m => m.whenCan fun m => m.updCan c fun k => k.recovered (m.canCfg c) m.mono
/-- `CAN_RTMO_EXPIRY` (R436). -/
def execCanRtmoExpiry (c : Fin 4) (obj : Nat) (s : State) : Host.Outcome State Fault Refusal :=
  s.run fun m => m.whenCan fun m => m.onDue (at_ (m.can c).rx obj {}).due fun m =>
    m.updCan c fun k => { k with rx := upd k.rx obj fun o => { o with timeout := true, due := none } }
/-- `CAN_BUS_INTEGRATION` (R445, R448): only with ACT set. -/
def execCanBusIntegration (c : Fin 4) (s : State) : Host.Outcome State Fault Refusal :=
  s.run fun m => m.whenCan fun m => if m.act then m.updCan c fun k => k.integrate (m.canCfg c) m.mono else m
/-- `ADDRESS_CLAIM_WAIT` (R448): the claimed address may be used. -/
def execAddressClaimWait (c : Fin 4) (s : State) : Host.Outcome State Fault Refusal :=
  s.run fun m => m.whenCan fun m => m.onDue (m.can c).claimAt fun m =>
    m.updCan c fun k => (({ k with claimed := true, claimAt := none } : Can).startLongs (m.canCfg c) m.mono).offer (m.canCfg c)
/-- `TRANSPORT_PACKET_TIMER` (R449). -/
def execTransportPacketTimer (c : Fin 4) (sess : Nat) (s : State) : Host.Outcome State Fault Refusal :=
  s.run fun m => m.whenCan fun m =>
    let due := (m.can c).txSess[sess]?.bind fun t => if t.phase = 0 then some t.due else none
    m.onDue due fun m => m.updCan c fun k => (k.packetTimer sess m.mono).offer (m.canCfg c)
/-- `TRANSPORT_SESSION_TIMEOUT` (R449): of a reassembly, or of a transmission that waits for its partner. -/
def execTransportSessionTimeout (c : Fin 4) (rx : Bool) (sess : Nat) (s : State) : Host.Outcome State Fault Refusal :=
  s.run fun m => m.whenCan fun m =>
    let due := if rx then (m.can c).rxSess[sess]?.map (·.due)
               else (m.can c).txSess[sess]?.bind fun t => if t.phase = 0 then none else some t.due
    m.onDue due fun m => m.updCan c fun k => k.sessTimeout rx sess

end Sys2Proof.Machine
end

