-- ==== Sys2Proof/Machine/CeCmds.lean ====
section
/-! DEFINITION. Requests to the control engine's tables, trace and counters (06_control_engine.md R218,
07_compensation_handover_trace.md R228, R239 to R246). -/

namespace Sys2Proof.Machine

/-- The partner is heard in a role that shadows or is to shadow (R229). -/
def Mod.partnerFollows (m : Mod) : Bool := [2, 3].contains (m.tan.partnerRole m.mono)
/-- The judgement of a table switch (R228, R229). -/
def Mod.tabSwitch (m : Mod) (n : Nat) : Mod × Nat :=
  let t := at_ m.ce.tabSt n {}
  if 15 < n then (m, stRange)
  else if m.changing || t.pending then (m, stBusy)
  else if !t.present || !t.fresh then (m, stAbsent)
  else if m.partnerFollows && !t.partnerOk then (m, stPartner)
  else ({ m with ce := { m.ce with tabSt := upd m.ce.tabSt n fun t => { t with pending := true } } }, stOk)
/-- `TAB_SWITCH` (R228). -/
def execTabSwitch (rq : Req) (n : BitVec 8) (s : State) : Host.Outcome State Fault Refusal :=
  s.run fun m => m.writeOne rq 3 false fun _ m => m.tabSwitch n.toNat

/-- A file is open for reading under a name (R572). -/
def Mod.readingFile (m : Mod) (n : FileName) : Bool := m.eap.files.any fun f => !f.write && f.name == n
/-- The trace unit changed. -/
def Mod.updTrc (m : Mod) (f : Trace → Trace) : Mod := { m with ce := { m.ce with trc := f m.ce.trc } }
/-- `TRACE` arm (R241, R572, R577). -/
def execTraceArm (rq : Req) (s : State) : Host.Outcome State Fault Refusal :=
  s.run fun m => m.command rq 9 3 false false fun _ m =>
    if !m.act then { m := m, status := stNotActive }
    else if m.readingFile .trace then { m := m, status := stBusy }
    else { m := m.updTrc Trace.arm }
/-- `TRACE` trigger (R239, R240): the trigger falls at the next frame boundary. -/
def execTraceCmdTrigger (rq : Req) (s : State) : Host.Outcome State Fault Refusal :=
  s.run fun m => m.command rq 9 3 false false fun _ m =>
    if m.ce.trc.state ≠ 1 then { m := m, status := stNotArmed }
    else { m := m.updTrc fun t => { t with cmd := true } }
/-- `TRACE` stop (R242). -/
def execTraceStop (rq : Req) (s : State) : Host.Outcome State Fault Refusal :=
  s.run fun m => m.command rq 9 3 false false fun _ m => { m := m.updTrc (·.abort 3) }
/-- `TRACE` reset to `IDLE` (R242, R577). -/
def execTraceReset (rq : Req) (s : State) : Host.Outcome State Fault Refusal :=
  s.run fun m => m.command rq 9 3 false false fun _ m =>
    { m := m.updTrc fun t => { ({} : Trace) with chs := t.chs, trig := t.trig, pre := t.pre } }

/-- `LANE_MAX` of lane `l` is read and cleared (R218). -/
def Mod.readLaneMax (m : Mod) (l : Nat) : Mod × Nat × Bytes :=
  ({ m with ce := { m.ce with lanes := upd m.ce.lanes l fun r => { r with max := 0 } } }, stOk, natLe 2 (at_ m.ce.lanes l {}).max)
/-- `LANE_MAX`. -/
def execLaneMax (rq : Req) (l : Fin 4) (s : State) : Host.Outcome State Fault Refusal :=
  s.run fun m => m.readClear rq fun m => m.readLaneMax l
/-- `LOOP_MISS` of loop `n` is read and cleared (R218). -/
def Mod.readLoopMiss (m : Mod) (n : Nat) : Mod × Nat × Bytes :=
  ({ m with ce := if (m.ce.loopCfg n).isSome then m.ce.updLoop n fun l => { l with miss := 0 } else m.ce }, stOk,
    natLe 2 (m.ce.loopSt n).miss)
/-- `LOOP_MISS`. -/
def execLoopMiss (rq : Req) (n : Fin 512) (s : State) : Host.Outcome State Fault Refusal :=
  s.run fun m => m.readClear rq fun m => m.readLoopMiss n

end Sys2Proof.Machine
end

