-- ==== Sys2Proof/Machine/CeInstrs.lean ====
section
/-! DEFINITION. The commands of the control engine's instruction set: one instruction issues in a lane
(06_control_engine.md R189 to R199). -/

namespace Sys2Proof.Machine

/-- An instruction issues in a lane (R195); it counts for the lane (R538). -/
def Mod.ceStep (m : Mod) (l : Fin 4) (f : Ce → Ce) : Mod := { m with ce := f m.ce }.count 0x10 l.val 1

/-- `NOP` (R195): no effect. -/
def execCeNop (lane : Fin 4) (st : State) : Host.Outcome State Fault Refusal :=
  st.run fun m => m.ceStep lane fun k => ceNopOp k lane
/-- `END` (R195): the lane closes the execution of its loop. -/
def execCeEnd (lane : Fin 4) (st : State) : Host.Outcome State Fault Refusal :=
  st.run fun m => m.ceStep lane fun k => ceEndOp k lane
/-- `LDX` (R195): a state word into an X register. -/
def execCeLdx (lane : Fin 4) (x : Fin 8) (w : BitVec 8) (st : State) : Host.Outcome State Fault Refusal :=
  st.run fun m => m.ceStep lane fun k => ceLdxOp k lane x w
/-- `STX` (R195): an X register into a state word. -/
def execCeStx (lane : Fin 4) (x : Fin 8) (w : BitVec 8) (st : State) : Host.Outcome State Fault Refusal :=
  st.run fun m => m.ceStep lane fun k => ceStxOp k lane x w
/-- `LDI` (R195): an immediate value into an X register. -/
def execCeLdi (lane : Fin 4) (x : Fin 8) (imm : BitVec 16) (st : State) : Host.Outcome State Fault Refusal :=
  st.run fun m => m.ceStep lane fun k => ceLdiOp k lane x imm
/-- `LDA` (R195): a state word into an accumulator. -/
def execCeLda (lane : Fin 4) (a : Fin 4) (w : BitVec 8) (st : State) : Host.Outcome State Fault Refusal :=
  st.run fun m => m.ceStep lane fun k => ceLdaOp k lane a w
/-- `STA` (R195): an accumulator into a state word. -/
def execCeSta (lane : Fin 4) (a : Fin 4) (w : BitVec 8) (st : State) : Host.Outcome State Fault Refusal :=
  st.run fun m => m.ceStep lane fun k => ceStaOp k lane a w
/-- `STQ` (R195): an accumulator, as Q15, into a state word. -/
def execCeStq (lane : Fin 4) (a : Fin 4) (w : BitVec 8) (st : State) : Host.Outcome State Fault Refusal :=
  st.run fun m => m.ceStep lane fun k => ceStqOp k lane a w
/-- `MOVQ` (R195): an accumulator, as Q15, into an X register. -/
def execCeMovq (lane : Fin 4) (x : Fin 8) (a : Fin 4) (st : State) : Host.Outcome State Fault Refusal :=
  st.run fun m => m.ceStep lane fun k => ceMovqOp k lane x a
/-- `LDAX` (R195): an X register into an accumulator. -/
def execCeLdax (lane : Fin 4) (a : Fin 4) (x : Fin 8) (st : State) : Host.Outcome State Fault Refusal :=
  st.run fun m => m.ceStep lane fun k => ceLdaxOp k lane a x
/-- `MOVA` (R195): an accumulator into another. -/
def execCeMova (lane : Fin 4) (a b : Fin 4) (st : State) : Host.Outcome State Fault Refusal :=
  st.run fun m => m.ceStep lane fun k => ceMovaOp k lane a b
/-- `IN` (R195): a read port into an X register. -/
def execCeIn (lane : Fin 4) (x : Fin 8) (p : BitVec 8) (st : State) : Host.Outcome State Fault Refusal :=
  st.run fun m => m.ceStep lane fun k => ceInOp k lane x p
/-- `OUT` (R195): an X register to a write port. -/
def execCeOut (lane : Fin 4) (x : Fin 8) (p : BitVec 8) (st : State) : Host.Outcome State Fault Refusal :=
  st.run fun m => m.ceStep lane fun k => ceOutOp k lane x p
/-- `MPY` (R195): a product. -/
def execCeMpy (lane : Fin 4) (a : Fin 4) (x y : Fin 8) (st : State) : Host.Outcome State Fault Refusal :=
  st.run fun m => m.ceStep lane fun k => ceMpyOp k lane a x y
/-- `MAC` (R195): a product added to an accumulator. -/
def execCeMac (lane : Fin 4) (a : Fin 4) (x y : Fin 8) (st : State) : Host.Outcome State Fault Refusal :=
  st.run fun m => m.ceStep lane fun k => ceMacOp k lane a x y
/-- `MSU` (R195): a product subtracted from an accumulator. -/
def execCeMsu (lane : Fin 4) (a : Fin 4) (x y : Fin 8) (st : State) : Host.Outcome State Fault Refusal :=
  st.run fun m => m.ceStep lane fun k => ceMsuOp k lane a x y
/-- `ADDA` (R195): the sum of two accumulators. -/
def execCeAdda (lane : Fin 4) (a b : Fin 4) (st : State) : Host.Outcome State Fault Refusal :=
  st.run fun m => m.ceStep lane fun k => ceAddaOp k lane a b
/-- `SUBA` (R195): the difference of two accumulators. -/
def execCeSuba (lane : Fin 4) (a b : Fin 4) (st : State) : Host.Outcome State Fault Refusal :=
  st.run fun m => m.ceStep lane fun k => ceSubaOp k lane a b
/-- `ADDX` (R195): an X register added to an accumulator. -/
def execCeAddx (lane : Fin 4) (a : Fin 4) (x : Fin 8) (st : State) : Host.Outcome State Fault Refusal :=
  st.run fun m => m.ceStep lane fun k => ceAddxOp k lane a x
/-- `SUBX` (R195): an X register subtracted from an accumulator. -/
def execCeSubx (lane : Fin 4) (a : Fin 4) (x : Fin 8) (st : State) : Host.Outcome State Fault Refusal :=
  st.run fun m => m.ceStep lane fun k => ceSubxOp k lane a x
/-- `ADDQ` (R195): the saturated sum of two X registers. -/
def execCeAddq (lane : Fin 4) (x y : Fin 8) (st : State) : Host.Outcome State Fault Refusal :=
  st.run fun m => m.ceStep lane fun k => ceAddqOp k lane x y
/-- `SUBQ` (R195): the saturated difference of two X registers. -/
def execCeSubq (lane : Fin 4) (x y : Fin 8) (st : State) : Host.Outcome State Fault Refusal :=
  st.run fun m => m.ceStep lane fun k => ceSubqOp k lane x y
/-- `NEGA` (R195): the negative of an accumulator. -/
def execCeNega (lane : Fin 4) (a : Fin 4) (st : State) : Host.Outcome State Fault Refusal :=
  st.run fun m => m.ceStep lane fun k => ceNegaOp k lane a
/-- `ABSA` (R195): the magnitude of an accumulator. -/
def execCeAbsa (lane : Fin 4) (a : Fin 4) (st : State) : Host.Outcome State Fault Refusal :=
  st.run fun m => m.ceStep lane fun k => ceAbsaOp k lane a
/-- `SHA` (R195): an arithmetic shift. -/
def execCeSha (lane : Fin 4) (a : Fin 4) (s : BitVec 6) (st : State) : Host.Outcome State Fault Refusal :=
  st.run fun m => m.ceStep lane fun k => ceShaOp k lane a s
/-- `LIMA` (R195): an accumulator limited. -/
def execCeLima (lane : Fin 4) (a : Fin 4) (x y : Fin 8) (st : State) : Host.Outcome State Fault Refusal :=
  st.run fun m => m.ceStep lane fun k => ceLimaOp k lane a x y
/-- `CMPA` (R195): an accumulator compared. -/
def execCeCmpa (lane : Fin 4) (a : Fin 4) (x : Fin 8) (st : State) : Host.Outcome State Fault Refusal :=
  st.run fun m => m.ceStep lane fun k => ceCmpaOp k lane a x
/-- `BR` (R195): a branch on a condition. -/
def execCeBr (lane : Fin 4) (c : CeCond) (t : BitVec 7) (st : State) : Host.Outcome State Fault Refusal :=
  st.run fun m => m.ceStep lane fun k => ceBrOp k lane c t
/-- `TBL` (R195): a compensation table looked up. -/
def execCeTbl (lane : Fin 4) (x : Fin 8) (tb : Fin 16) (e : Fin 4) (st : State) : Host.Outcome State Fault Refusal :=
  st.run fun m => m.ceStep lane fun k => ceTblOp k lane x tb e
/-- `TBLF` (R195): a table looked up with the dead band. -/
def execCeTblf (lane : Fin 4) (x : Fin 8) (tb : Fin 16) (e : Fin 4) (st : State) : Host.Outcome State Fault Refusal :=
  st.run fun m => m.ceStep lane fun k => ceTblfOp k lane x tb e
/-- `TRC` (R195): a trace sample. -/
def execCeTrc (lane : Fin 4) (x : Fin 8) (ch : Fin 16) (st : State) : Host.Outcome State Fault Refusal :=
  st.run fun m => m.ceStep lane fun k => ceTrcOp k lane x ch
/-- `FLG` (R195): user flags set and cleared. -/
def execCeFlg (lane : Fin 4) (set clr : BitVec 4) (st : State) : Host.Outcome State Fault Refusal :=
  st.run fun m => m.ceStep lane fun k => ceFlgOp k lane set clr

end Sys2Proof.Machine
end

