-- ==== Sys2Proof/Machine/Time.lean ====
section
/-! DEFINITION. The commands of device time, PTP, timed outputs, captures and act-at-time (09_time_and_timed_actions.md). -/

namespace Sys2Proof.Machine

/-! Steps. -/

/-- The releases of a task that a step from device time `old` to `new` passes over (R131): none that was made already, none of a task
that is halted. -/
def stepSkips (c : TaskCfg) (k : Task) (old new : Nat) : Nat :=
  let below (n : Nat) : Nat := if n < c.phase then 0 else (n - c.phase) / c.period + 1
  if c.kind = 1 ∧ 0 < c.period ∧ !k.halted then below (new / tickUnits) - below (Nat.max (old / tickUnits) k.lastTick) else 0
/-- The timed-output units at a step (R283, R293). -/
def Mod.stepTous (m : Mod) (old : BitVec 64) (delta : Int) : Mod :=
  (List.range 32).foldl (fun (k : Mod) u => match k.touCfg u with
    | none => k
    | some c =>
      let r := (at_ k.tous u {}).onStep c k.ptp.quality (shortAdd old (k.touLat c)) (k.touNow c) delta k.mono
      let k1 := k.updTou u fun _ => r.1
      if r.2 then k1.touEdge u c else k1) m
/-- The device-time second boundary after `u`. -/
def nextSecond (u : Nat) : Nat := (u / (1000000000 * unitsPerNs) + 1) * (1000000000 * unitsPerNs)
/-- Device time is written to `u` (R283): the record and the objects of the step, comparators, the cadence's skipped releases (R131),
the frame grid, which does not move (R205), conversions in progress (R479), and trends, which wait for the new time's grid (R569). -/
def Mod.timeStep (m : Mod) (u : Nat) : Mod :=
  let old := m.tb.now
  let delta : Int := (u : Int) - old
  let shift (n : Nat) : Nat := ((n : Int) + delta).toNat
  let ns := delta / (unitsPerNs : Nat)
  let m1 : Mod := { m with
    tb := { m.tb with now := u, nextTick := u / tickUnits + 1 }
    ptp := { m.ptp with steps := m.ptp.steps + 1, lastStep := ns, stepAt := dtimeOf u, stepped := true, farRun := 0 }
    ce := { m.ce with nextB := shift m.ce.nextB, gridOff := gridOffset (shift m.ce.nextB) }
    tasks := mapFrom (fun t k => if m.executing then { k with stepSkipped := k.stepSkipped + BitVec.ofNat 32 (stepSkips (m.taskCfg t) k old u) } else k)
      0 m.tasks
    bkp := { m.bkp with capAt := none, setAt := m.bkp.setAt.map fun _ => nextSecond u }
    an := { m.an with ai := mapFrom (fun i h => { h with at_ := u, notBefore := u + aiPeriod (m.aiCfg i).rate }) 0 m.an.ai }
    eap := { m.eap with subs := m.eap.subs.map fun s => match s.req with
      | .trend p _ => { s with sampleAt := (u / unitsMs (Nat.max 1 p) + 1) * unitsMs (Nat.max 1 p) }
      | _ => s } }
  (m1.stepTous m.short (delta / 2 ^ 14)).log 6 4 0x40 0
    (natLe 8 (unsigned 64 ns) ++ natLe 8 m.short.toNat ++ natLe 8 m1.short.toNat)

/-! PTP. -/

/-- The three ports that run PTP, as pool ports: P1, P2, P5 (R286). -/
def ptpPort (n : Nat) : Nat := at_ [0, 1, 4] n 4
/-- The PTP record where PTP runs on port `n` (R288). -/
def Mod.ptpOn (m : Mod) (n : Nat) : Option PtpCfg :=
  match m.cfg.netc.ptp with
  | some c => if m.live && m.cas.running && c.ports.getLsbD n then some c else none
  | none => none
/-- The UTC offset and what goes with it come from the parent (R285). -/
def Mod.takeUtc (m : Mod) (a : Announce) : Mod :=
  let p := { m.ptp with traceable := a.traceable, leap := if a.leap61 then 1 else if a.leap59 then -1 else 0 }
  if a.utcValid then
    { m with ptp := { p with utc := a.utcOffset, utcValid := true },
             bkp := if m.bkp.locked then m.bkp else { m.bkp with utcOffset := a.utcOffset } }
  else { m with ptp := p }
/-- The best master clock algorithm runs (R286, R287); a parent newly chosen brings its UTC offset (R285). -/
def Mod.chooseMaster (m : Mod) (c : PtpCfg) : Mod :=
  let own := ownDataset c (Config.clockIdentity m.otp.serial) m.tan.slotB
  let k : Mod := { m with ptp := m.ptp.choose (bmca c own m.ptp.foreign) m.mono }
  let key (p : Option Announce) : Option (BitVec 64 × Nat) := p.map fun a => (a.senderId, a.port.val)
  match k.ptp.parent with
  | some a => if key m.ptp.parent = key k.ptp.parent then k else k.takeUtc a
  | none => k
/-- `portState` of IEEE 1588-2019 (R310). -/
def Mod.portState (m : Mod) (n : Nat) : Nat :=
  match m.ptpOn n with
  | none => 3
  | some c =>
    if m.ptp.gmSelf then 6
    else match m.ptp.parent with
      | some a => if a.port.val = n then 9 else if c.boundary then 6 else 7
      | none => 4
/-- A Sync of the parent with its offset (R280, R282): a step, or a rate within R277 that the servo chooses (free; log entry 1). -/
def Mod.ptpSync (m : Mod) (c : PtpCfg) (offset : Int) (delay : Nat) : Mod :=
  let r := m.ptp.sync c offset delay
  let m1 := { m with ptp := { r.1 with shift := none } }
  if r.2 then m1.timeStep ((m.tb.now : Int) - offset * (unitsPerNs : Nat)).toNat
  else if c.stepLimit < offset.natAbs then m1
  else { m1 with tb := { m1.tb with addend := clampAddend (Config.servoAddend offset m1.tb.addend.toNat) } }
/-- A received message belongs to the module's own PTP clock on port `n` (R286): its domain is that of the record; IEEE 802.1AS knows no UDP
(PRESUMED, log entry 11). -/
def Mod.ptpTakes (m : Mod) (n : Nat) (h : PtpRx) : Option PtpCfg :=
  (m.ptpOn n).bind fun c => if h.domain = c.domain ∧ !(c.profile == 2 && h.udp) then some c else none
/-- A PTP message leaves port `n` (R286, R396): an event message with its transmit timestamp, one-step where the record says so (R288,
R296). `since` is the instant from which a one-step response counts its turnaround. -/
def Mod.sendPtp (m : Mod) (c : PtpCfg) (n : Nat) (g : PtpMsg) (since : Option (BitVec 96)) : Mod :=
  let paired := g.type = 0 ∨ g.type = 3
  let one := paired ∧ c.stepMode.getLsbD n
  let h := { g with twoStep := decide (paired ∧ ¬ one) }
  m.place { port := ptpPort n, q := 7, len := ptpLen h, data := .ptp h, hdr := m.headOf (ptpPort n) none (.ptp h), tsReq := decide (g.type ≤ 3 ∧ ¬ one),
            oneStep := decide one, stamp := since }
/-- The transparent clock between P1 and P2 (R286, IEEE 1588-2019): a message goes on from the other port, an event message with its residence
in the correction, the peer-to-peer clock with the delay of the link it came over as well; that clock keeps delay messages to itself, and a
boundary clock passes on none of its own domain (DEDUCED, log entry 135). `g` is the message without transport and correction. -/
def Mod.ptpForward (m : Mod) (n : Nat) (h : PtpRx) (g : PtpMsg) : Mod :=
  m.netOf <| match m.ptpOn n with
  | none => m
  | some c =>
    if !(c.transparent && decide (n < 2) && (m.ptpOn (1 - n)).isSome) || (c.boundary && h.domain == c.domain) ||
        (c.profile != 0 && [1, 2, 3, 9, 10].contains g.type) then m
    else
      let dest := 1 - n
      let event := decide (g.type ≤ 3)
      let two := g.type == 0 && !c.stepMode.getLsbD dest
      let link : Int := if c.profile ≠ 0 ∧ g.type = 0 then (at_ m.ptp.linkDelay n 0 : Nat) * 65536 else 0
      let w := { g with domain := h.domain, seq := h.seq, sender := h.sender, udp := h.udp, origin := h.origin, correction := h.correction + link,
                        twoStep := two }
      m.place { port := ptpPort dest, q := 7, len := ptpLen w, data := .ptp w, hdr := m.headOf (ptpPort dest) none (.ptp w), tsReq := two,
                oneStep := event && !two, stamp := if event then some (m.dtAt h.phase) else none }
/-- A Sync of the parent (R280, R502): in `DEGRADED` the offset is measured and not applied; one of another clock changes nothing. -/
def Mod.syncCame (m : Mod) (h : PtpRx) (x : PtpOffset) : Mod :=
  match m.ptp.parent, m.ptpTakes x.port h with
  | some a, some c =>
    if a.port ≠ x.port ∨ a.senderId ≠ h.sender then m
    else if m.ptp.quality = .degraded then { m with ptp := { m.ptp with offset := x.offsetNs, pathDelay := x.pathDelay } }
    else m.ptpSync c x.offsetNs x.pathDelay
  | _, _ => m
/-- `PTP_SYNC` (R280, R286), a two-step one with its Follow_Up: the offset and the path delay are what the timestamps give (IEEE 1588-2019;
log entry 11). -/
def execPtpSync (h : PtpRx) (x : PtpOffset) (s : State) : Host.Outcome State Fault Refusal :=
  s.run fun m => (m.ptpForward x.port h { type := 0, domain := 0, seq := 0, sender := 0 }).syncCame h x
/-- An Announce message (R285, R286). -/
def Mod.announceCame (m : Mod) (h : PtpRx) (a : Announce) : Mod :=
  match m.ptpTakes a.port h with
  | none => m
  | some c =>
    let m1 := ({ m with ptp := m.ptp.hear a m.mono } : Mod).chooseMaster c
    if m1.ptp.parent = some a then m1.takeUtc a else m1
/-- `PTP_ANNOUNCE`. -/
def execPtpAnnounce (a : AnnounceRx) (s : State) : Host.Outcome State Fault Refusal :=
  s.run fun m => (m.ptpForward a.ann.port a.h { type := 11, domain := 0, seq := 0, sender := 0, ann := some a.ann }).announceCame a.h a.ann
/-- An own message with the number and transport of what it answers (R286). -/
def Mod.ptpAnswer (m : Mod) (c : PtpCfg) (h : PtpRx) (type : Nat) (origin : BitVec 96) (correction : Int) : PtpMsg :=
  { type := type, domain := c.domain, seq := h.seq, sender := Config.clockIdentity m.otp.serial, udp := h.udp, origin := origin,
    correction := correction, requester := h.sender }
/-- A delay or peer-delay message (R286): a request is answered where the port's role answers it, with the instant of its reception; a
response gives the delay of the path, or of the link. -/
def Mod.delayCame (m : Mod) (n : Nat) (h : PtpRx) (peer request : Bool) (delayNs : Nat) : Mod :=
  match m.ptpTakes n h with
  | none => m
  | some c =>
    let rx := m.dtAt h.phase
    let parentHere := m.portState n = 9
    if peer then
      if c.profile = 0 then m
      else if request then
        if c.stepMode.getLsbD n then m.sendPtp c n (m.ptpAnswer c h 3 0 h.correction) (some rx) else m.sendPtp c n (m.ptpAnswer c h 3 rx h.correction) none
      else { m with ptp := { m.ptp with linkDelay := put m.ptp.linkDelay n delayNs, pathDelay := if parentHere then delayNs else m.ptp.pathDelay } }
    else if c.profile ≠ 0 then m
    else if request then (if m.portState n = 6 then m.sendPtp c n (m.ptpAnswer c h 9 rx h.correction) none else m)
    else if parentHere then { m with ptp := { m.ptp with pathDelay := delayNs } } else m
/-- `PTP_DELAY_MESSAGE` (R286); a response comes with the follow-up of a two-step one (log entry 11). -/
def execPtpDelayMessage (port : Fin 3) (peer request : Bool) (h : PtpRx) (delayNs : Nat) (s : State) :
    Host.Outcome State Fault Refusal :=
  s.run fun m => (m.ptpForward port h { type := (if peer then (if request then 2 else 3) else if request then 1 else 9), domain := 0, seq := 0,
                                        sender := 0 }).delayCame port h peer request delayNs
/-- A management message (R286): a GET is answered; a SET is refused by a management error. -/
def Mod.managementCame (m : Mod) (n : Nat) (h : PtpRx) (get : Bool) : Mod :=
  match m.ptpTakes n h with
  | none => m
  | some c => m.sendPtp c n { m.ptpAnswer c h 13 0 0 with refused := !get } none
/-- `PTP_MANAGEMENT`. -/
def execPtpManagement (port : Fin 3) (get : Bool) (h : PtpRx) (s : State) : Host.Outcome State Fault Refusal :=
  s.run fun m => (m.ptpForward port h { type := 13, domain := 0, seq := 0, sender := 0 }).managementCame port h get
/-- The number of a kind of message among those that the module sends. -/
def ptpKindNo : PtpKind → Nat
  | .sync => 0
  | .announce => 1
  | .delayReq => 2
  | .pdelayReq => 3
/-- `messageType` of a kind (IEEE 1588-2019). -/
def ptpKindType : PtpKind → Nat
  | .sync => 0
  | .announce => 11
  | .delayReq => 1
  | .pdelayReq => 2
/-- The data set that the module announces on port `n` (R286, R287): its own as grandmaster, with priority2 + 1 in slot B; as a boundary clock
that of its parent, one step further. -/
def Mod.announced (m : Mod) (c : PtpCfg) (n : Fin 3) : Announce :=
  let own := Config.clockIdentity m.otp.serial
  match m.ptp.parent with
  | some a => { a with port := n, senderId := own, stepsRemoved := a.stepsRemoved + 1 }
  | none => { ownDataset c own m.tan.slotB with port := n, utcOffset := m.ptp.utc, utcValid := m.ptp.utcValid, leap61 := m.ptp.leap == 1,
                                                leap59 := m.ptp.leap == -1 }
/-- The module's role on a port calls for its own messages of a kind (R286): a master sends Sync and Announce, a slave Delay_Req under
the delay request-response profile, every port Pdelay_Req under the peer-to-peer profiles. -/
def Mod.ptpSends (m : Mod) (c : PtpCfg) (n : Nat) : PtpKind → Bool
  | .sync => m.portState n == 6
  | .announce => m.portState n == 6
  | .delayReq => c.profile == 0 && m.portState n == 9
  | .pdelayReq => c.profile != 0
/-- `PTP_MESSAGE_INTERVAL` (R286): own messages leave on layer 2 (DESIGN CHOICE, log entry 11). -/
def execPtpMessageInterval (port : Fin 3) (kind : PtpKind) (s : State) : Host.Outcome State Fault Refusal :=
  s.run fun m => match m.ptpOn port with
    | none => m
    | some c =>
      let i := port.val * 4 + ptpKindNo kind
      let q := at_ m.ptp.seqs i 0
      if m.ptpSends c port kind then
        ({ m with ptp := { m.ptp with seqs := put m.ptp.seqs i (q + 1) } } : Mod).sendPtp c port
          { type := ptpKindType kind, domain := c.domain, seq := q, sender := Config.clockIdentity m.otp.serial,
            ann := if kind = .announce then some (m.announced c port) else none } none
      else m

/-- The elapsed instant at which the parent's Announce messages have been missing for announceReceiptTimeout; without a
parent, that of the first choice after the start (R280, R286, R288). -/
def Mod.announceDue (m : Mod) (c : PtpCfg) : Option Nat :=
  match m.ptp.parent with
  | none => if m.ptp.gmSelf then none else some (m.boot.t0 + phMs m.boot.startMs + c.annTmo * annInterval c)
  | some a => (m.ptp.foreign.find? fun f => f.ann.port == a.port && f.ann.senderId == a.senderId).map fun f => f.at_ + c.annTmo * annInterval c
/-- `ANNOUNCE_RECEIPT_TIMEOUT` (R280): masters heard no more leave, and the choice is made again. -/
def execAnnounceReceiptTimeout (s : State) : Host.Outcome State Fault Refusal :=
  s.run fun m => match m.cfg.netc.ptp with
    | none => m
    | some c =>
      if m.live && m.cas.running then
        m.onDue (m.announceDue c) fun m =>
          ({ m with ptp := { m.ptp with foreign := m.ptp.foreign.filter fun f => decide (m.mono < f.at_ + c.annTmo * annInterval c) } } : Mod).chooseMaster c
      else m
/-- `HOLDOVER_LIMIT` (R279, R280): the estimated error exceeds `HOLD_LIMIT`. -/
def execHoldoverLimit (s : State) : Host.Outcome State Fault Refusal :=
  s.run fun m => match m.cfg.netc.ptp with
    | none => m
    | some c =>
      if m.live && m.ptp.quality == .holdover then
        let ph := if c.holdLimit < 50 then 0 else (c.holdLimit - 50) * phS 1 / Nat.max 1 c.holdDrift + 1
        let m1 := m.to (m.ptp.holdFrom + ph)
        { m1 with ptp := m1.ptp.toQuality .free }
      else m
/-- The end of the present UTC day in device time (R285): a leap lengthens or shortens the day. -/
def Mod.utcDayEnd (m : Mod) : Nat :=
  let sec : Int := ((m.tb.now / (unitsMs 1000) : Nat) : Int) - m.ptp.utc
  ((sec / 86400 + 1) * 86400 + m.ptp.utc + m.ptp.leap).toNat * unitsMs 1000
/-- `LEAP_SECOND` (R285). -/
def execLeapSecond (s : State) : Host.Outcome State Fault Refusal :=
  s.run fun m => m.whenLive fun m =>
    if m.ptp.leap = 0 then m
    else
      let m1 := m.toNow m.utcDayEnd
      let u := m1.ptp.utc + m1.ptp.leap
      { m1 with ptp := { m1.ptp with utc := u, leap := 0 }, bkp := if m1.bkp.locked then m1.bkp else { m1.bkp with utcOffset := u } }

/-! Time commands. -/

/-- `TIME_SET` (R275, R284). -/
def execTimeSet (rq : Req) (v : BitVec 96) (s : State) : Host.Outcome State Fault Refusal :=
  s.run fun m => m.command rq 7 3 false false fun _ m =>
    if !dtValid v then { m := m, status := stRange }
    else if m.ptp.quality ≠ .free ∧ m.ptp.quality ≠ .degraded then { m := m, status := stPtpOwns }
    else
      let m1 := { m with ptp := { m.ptp with timeUnset := false }, bkp := { m.bkp with setAt := some 0 } }
      { m := m1.timeStep ((dtSec v * 1000000000 + dtNsec v) * unitsPerNs) }
/-- `TIME_SHIFT` (R284): a slew of a signed number of ns; it replaces one that still runs. -/
def execTimeShift (rq : Req) (ns : BitVec 32) (s : State) : Host.Outcome State Fault Refusal :=
  s.run fun m => m.command rq 7 3 false false fun _ m =>
    if 1000000000 < ns.toInt.natAbs then { m := m, status := stRange }
    else if m.ptp.quality ≠ .free then { m := m, status := stPtpOwns }
    else
      { m := { m with ptp := { m.ptp with timeUnset := false, shift := if ns = 0 then none else some { ns := ns.toInt, fromRoot := m.tb.root } },
                      tb := { m.tb with addend := slewAddend ns.toInt } } }
/-- `TIME_SHIFT_COMPLETE` (R284): the offset is removed, and the addend returns to its nominal value. -/
def execTimeShiftComplete (s : State) : Host.Outcome State Fault Refusal :=
  s.run fun m => m.whenLive fun m => match m.ptp.shift with
    | none => m
    | some h =>
      let m1 := m.pass (h.fromRoot + slewCycles h.ns m.tb.addend - m.tb.root)
      { m1 with ptp := { m1.ptp with shift := none }, tb := { m1.tb with addend := 0xA0000000 } }
/-- `UTC_OFFSET` (R285): a parent that flags its offset valid owns it. -/
def execUtcOffset (rq : Req) (secs : BitVec 16) (s : State) : Host.Outcome State Fault Refusal :=
  s.run fun m => m.command rq 7 3 false false fun _ m =>
    if (match m.ptp.parent with | some a => a.utcValid | none => false) then { m := m, status := stPtpOwns }
    else
      { m := { m with ptp := { m.ptp with utc := secs.toInt, utcValid := true },
                      bkp := if m.bkp.locked then m.bkp else { m.bkp with utcOffset := secs.toInt } } }

/-! Timed outputs and captures. -/

/-- `TOU_FIRE` (R292): time runs on to the ROOT cycle in which device time meets the unit's target, and the edge falls on the first phase at
or after it. -/
def execTouFire (u : Fin 32) (s : State) : Host.Outcome State Fault Refusal :=
  s.run fun m => m.whenLive fun m => match m.touCfg u with
    | none => m
    | some c =>
      let k := at_ m.tous u {}
      if k.armed then
        let due := m.tb.phaseAt ((ticksOf m.tb.now + (shortDiff k.target (m.touNow c)).toNat) * 2 ^ 14)
        let m1 := m.pass due.1
        let r := k.fire c .fired m1.ptp.quality (shortAdd (shortOf (m1.dtAt due.2)) (m1.touLat c)) (m1.mono + due.2)
        let m2 := m1.updTou u fun _ => r.1
        if r.2 then m2.touEdge u c else m2
      else m
/-- `TOU_PULSE_END` (R294): the trailing edge, on its phase. -/
def execTouPulseEnd (u : Fin 32) (s : State) : Host.Outcome State Fault Refusal :=
  s.run fun m => m.whenLive fun m => match (at_ m.tous u {}).pulseEnd with
    | none => m
    | some d =>
      let due := m.tb.phaseOn d
      let m0 := m.pass due.1
      let m1 := m0.updTou u fun k => k.trail (m0.mono + due.2)
      match m1.touCfg u with
      | some c => m1.touEdge u c
      | none => m1

/-- `TCU_CAPTURE` (R302, R303, R136): an edge at a phase of the present ROOT cycle, which has none in the override (R502); the receiver's delay is taken off. -/
def execTcuCapture (u : Fin 32) (rising : Bool) (phase : Fin 4) (s : State) : Host.Outcome State Fault Refusal :=
  s.run fun m => m.whenLive fun m => match m.tcuCfg u with
    | none => m
    | some c =>
      if c.src = 0xFF then m
      else
        let ph := if m.tb.slow then 0 else phase.val
        let ts := dtOfTicks (dtTicks (m.dtAt ph) - Config.receiverDelay c.src)
        let r := (at_ m.tcus u {}).capture c rising ts m.tq (m.mono + ph)
        let m1 := m.updTcu u fun _ => r.1
        if r.2 then m1.trigger 4 u fun _ => true else m1
/-- `TCU_POP` of unit `u` is read (R303). -/
def Mod.readTcuPop (m : Mod) (u : Nat) : Mod × Nat × Bytes :=
  let r := (at_ m.tcus u {}).pop
  (m.updTcu u fun _ => r.2, stOk, r.1)
/-- `TCU_POP`. -/
def execTcuPop (rq : Req) (u : Fin 32) (s : State) : Host.Outcome State Fault Refusal :=
  s.run fun m => m.readClear rq fun m => m.readTcuPop u

/-! Act-at-time. -/

/-- One unit is armed by a message (R305, R306). -/
def Mod.aatArm (m : Mod) (t : BitVec 96) (e : ActionCfg) : Mod :=
  let per := match m.touCfg e.unit with | some c => c.period | none => 0
  let r := m.armTou e.unit t per e.latePol e.lockReq false
  let a := r.1.aat
  { r.1 with aat := match r.2 with
    | .late => { a with late := a.late + 1 }
    | .discarded => { a with discarded := a.discarded + 1 }
    | .notLocked => { a with notLocked := a.notLocked + 1 }
    | _ => a }
/-- A message is handled in the order of R306. One whose `T` is no DTIME is refused, and counts in `RX` alone (R275; log entry 134). -/
def Mod.actAtMessage (m : Mod) (msg : Bytes) : Mod :=
  let a := parseActMsg msg
  let key := m.cfg.cred.actkey
  if a.dest ≠ 0 ∧ a.dest ≠ m.cfg.ident.node then m
  else
    let m1 := { m with aat := { m.aat with rx := m.aat.rx + 1 } }
    if msg.length ≠ 40 ∨ key.all (· == 0) ∨ slice msg 32 8 ≠ actTag key (slice msg 0 32) then
      { m1 with aat := { m1.aat with tagFail := m1.aat.tagFail + 1 } }
    else
      let k := m1.aat.heard a.src a.iid
      if !dtValid a.t then { m1 with aat := k }
      else if (k.pairs a.src a.iid).contains (a.seq, a.t.toNat) then { m1 with aat := { k with duplicate := k.duplicate + 1 } }
      else match m1.cfg.netc.acts.filter fun e => e.action == a.action with
      | [] => { m1 with aat := { k with unmapped := k.unmapped + 1 } }
      | es =>
        let k1 := k.remember a.src a.iid a.seq a.t.toNat
        es.foldl (fun w e => w.aatArm a.t e) { m1 with aat := { k1 with accepted := k1.accepted + 1 } }
/-- `ACT_AT_MESSAGE` (R306): whatever the module's ACT. -/
def execActAtMessage (msg : Bytes) (s : State) : Host.Outcome State Fault Refusal :=
  s.run fun m => if m.live && m.cas.running then m.actAtMessage msg else m

end Sys2Proof.Machine
end

