-- ==== Sys2Proof/Machine/Clocks.lean ====
section
/-! DEFINITION. The commands of the clocks, of the supply supervisor and of the backup domain (16_clocks_supply_backup.md). -/

namespace Sys2Proof.Machine

/-! Clocks. -/

/-- What the forced override does besides the clocks themselves (R502): the quality is `DEGRADED`, the servo and a slew stop, ports at
1000 Mbit/s and the twin-link lanes go down, the output stages follow at once. -/
def Mod.overrideOn (m : Mod) (cause : Nat) : Mod :=
  let m1 : Mod := { m with
    clk := m.clk.force cause
    tb := { m.tb with slow := true }
    ptp := { m.ptp.toQuality .degraded with shift := none, slewing := false }
    eth := { m.eth with ports := m.eth.ports.map fun p =>
      if p.link && p.speed == 2 then { p with link := false, tx := none, downs := Nat.min 255 (p.downs + 1) } else p }
    cans := m.cans.map fun k => { k with onBus := none, busBusy := false } }
  (m1.updTan fun t => { t with lane0 := false, lane1 := false, lane0At := if t.lane0 then m.mono else t.lane0At,
                               lane1At := if t.lane1 then m.mono else t.lane1At }).restage
/-- `CLOCK_FAULT` (R25, R502). -/
def Mod.clockFaults (m : Mod) (cause : Nat) : Mod :=
  let m1 := m.overrideOn cause
  if m1.live then m1.fatal 3 0 none else m1
/-- `CMON_WINDOW` (R500 to R502): discarded while CMON is inhibited; a window out of range is a fault while the domains run on the PLL. -/
def execCmonWindow (count : Nat) (s : State) : Host.Outcome State Fault Refusal :=
  s.run fun m =>
    if !m.clk.cmonEn then m
    else
      let ok := cmonPasses count
      let m1 := { m with clk := { m.clk with cmonCount := count, clkinOk := ok } }
      if ok || m.clk.override then m1 else m1.clockFaults 1
/-- `PLL_UNLOCK` (R499): while the domains run on the PLL. -/
def execPllUnlock (s : State) : Host.Outcome State Fault Refusal :=
  s.run fun m => if m.clk.pllLocked && !m.clk.override then m.clockFaults 2 else m
/-- `QUALIFICATION_GATE` (R505, R503): a qualified `CLKIN` sends the domains back to the PLL. -/
def execQualificationGate (count : Nat) (s : State) : Host.Outcome State Fault Refusal :=
  s.run fun m =>
    let c := m.clk.gate count
    { m with clk := if c.qualified then c.toPll m.mono else c }
/-- The domains are back on the PLL (R280, R503): the quality becomes `FREE`, and the best master clock algorithm chooses again; a start held
in reset goes on. -/
def Mod.overrideOff (m : Mod) : Mod :=
  let m0 := if m.ptp.quality == .degraded then { m with ptp := m.ptp.toQuality .free } else m
  let m1 := match m.cfg.netc.ptp with
    | some c => if m0.live && m0.cas.running && (m0.ptp.gmSelf || m0.ptp.parent.isSome) then m0.chooseMaster c else m0
    | none => m0
  let m2 := m1.restage
  match m2.boot.held with
  | some obs => m2.startGoesOn obs
  | none => m2
/-- `DERAILLEUR_SWITCH` (R506, R507): a domain runs from its new source. -/
def execDerailleurSwitch (d : Domain) (s : State) : Host.Outcome State Fault Refusal :=
  s.run fun m =>
    let c := m.clk.switched (domNo d)
    let m1 := { m with clk := c, tb := { m.tb with slow := if c.switching = m.clk.switching then m.tb.slow else at_ c.src 1 true } }
    if m.clk.override && !c.override then m1.overrideOff else m1
/-- The clock in Hz of a domain from a source (R18, R502). -/
def domHz (d : Nat) (osc : Bool) : Nat := srcHz osc (d + 2)
/-- `DERAILLEUR_STALL` (R507): 4,096 cycles of the new clock after a request that has not completed. -/
def execDerailleurStall (d : Domain) (s : State) : Host.Outcome State Fault Refusal :=
  s.run fun m =>
    let due := (m.clk.switching.find? fun w => w.1 == domNo d).map fun w => w.2.2 + ceilDiv (4096 * 1600000000) (domHz w.1 w.2.1)
    m.onDue due fun m =>
      ({ m with clk := { m.clk with stall := true, stalls := m.clk.stalls + 1 } } : Mod).clockFaults 3
/-- A write of `CLK_SWITCH` (R506, R521): only in `MAINTENANCE`; while the override lasts no domain goes to the PLL by command (R503). -/
def Mod.writeClkSwitch (m : Mod) (v : BitVec 16) : Mod × Nat :=
  let d := v.toNat % 256
  let src := v.toNat / 256
  if !m.maint then (m, stCondition)
  else if 4 < d ∨ 1 < src then (m, stRange)
  else if src = 0 ∧ m.clk.override then (m, stCondition)
  else
    let rest := m.clk.switching.filter fun w => w.1 ≠ d
    ({ m with clk := { m.clk with switching := if at_ m.clk.src d false = decide (src = 1) then rest else rest ++ [(d, decide (src = 1), m.mono)] } },
     stOk)
/-- `CLK_SWITCH` (R506): role `SERVICE`. -/
def execClkSwitch (rq : Req) (v : BitVec 16) (s : State) : Host.Outcome State Fault Refusal :=
  s.run fun m => m.writeOne rq 4 true fun _ m => m.writeClkSwitch v
/-- The block that drives a frequency counter's source, where it can be gated, is gated: of the sources none is; the counter itself can
be (R504, R508). -/
def Mod.writeFmc (m : Mod) (v : BitVec 64) : Mod × Nat :=
  let b := v.toNat
  let meas := b % 256
  let ref := b / 256 % 256
  let gate := b / 2 ^ 32
  if 7 < meas ∨ 7 < ref ∨ gate < 16 ∨ 16777216 < gate then (m, stRange)
  else if m.clk.gated.contains .fmc then ({ m with clk := { m.clk with fmc := { m.clk.fmc with status := 4 } } }, stOk)
  else ({ m with clk := m.clk.fmcStart meas ref gate m.mono }, stOk)
/-- `FMC_REQ` (R504): role `ENGINEER`. -/
def execFmcReq (rq : Req) (v : BitVec 64) (s : State) : Host.Outcome State Fault Refusal :=
  s.run fun m => m.writeOne rq 3 false fun _ m => m.writeFmc v
/-- `FMC_DONE` (R504). -/
def execFmcDone (count : BitVec 32) (s : State) : Host.Outcome State Fault Refusal :=
  s.run fun m => m.whenLive fun m => m.onDue m.clk.fmc.due fun m =>
    { m with clk := { m.clk with fmc := { m.clk.fmc with status := 2, count := count, due := none } } }
/-- `GATE_QUIESCE_ACK` (R508): within the block's 1,024 cycles. -/
def execGateQuiesceAck (b : GateBlk) (s : State) : Host.Outcome State Fault Refusal :=
  s.run fun m => m.whenLive fun m => { m with clk := m.clk.ack b }
/-- `GATE_REFUSED` (R508): 1,024 cycles have passed. -/
def execGateRefused (b : GateBlk) (s : State) : Host.Outcome State Fault Refusal :=
  s.run fun m => m.whenLive fun m =>
    m.onDue ((m.clk.gating.find? fun g => g.1 == b).map (·.2)) fun m => { m with clk := m.clk.refuse b }

/-! Supply. -/

/-- V_OR measured, by the supply supervisor and by the island's supply monitor (R358, R509). -/
def Mod.measureVor (m : Mod) (mv : Nat) : Mod := { m with sup := m.sup.vor mv, si := m.si.supply mv m.mono }
/-- `SUPPLY_THRESHOLD_CROSSING` (R358, R509). -/
def execSupplyThresholdCrossing (n : SupNode) (mv : Nat) (s : State) : Host.Outcome State Fault Refusal :=
  s.run fun m => match n with
    | .vor => m.measureVor mv
    | .vin1 => { m with sup := m.sup.vin false mv }
    | .vin2 => { m with sup := m.sup.vin true mv }
/-- The analogue section is shed (R486). -/
def Mod.shedAnalogue (m : Mod) : Mod :=
  { m with an := { m.an with supplyOk := false, shed := true, ai := m.an.ai.map fun h => { h with keeper := true, lsOn := false, lsMv := 0 } } }
/-- Supply failure (R25, R510): the claim is released, the role is `FAILED` until the reset of R511, the analogue section is shed and
the instant goes into `PF_TIME`. -/
def Mod.supplyFails (m : Mod) (mv : Nat) : Mod :=
  let m0 := m.measureVor mv
  let m1 : Mod := { m0 with
    sup := { m0.sup with holdupFrom := some m.mono }
    bkp := if m.bkp.locked then m.bkp else { m.bkp with pfTime := m.bkp.tai m.mono } }
  let m2 := m1.shedAnalogue
  if m2.live then (m2.releaseClaim.toFailed 6).updTan fun t => { t with failedAt := none } else m2
/-- `SUPPLY_FAILURE` (R510): V_OR below `BROWNOUT`, or a core rail. -/
def execSupplyFailure (mv : Nat) (railFault : Bool) (s : State) : Host.Outcome State Fault Refusal :=
  s.run fun m => if (decide (mv < 5400) || railFault) && m.sup.holdupFrom.isNone && !m.sup.resetAsserted then m.supplyFails mv else m
/-- `HOLDUP_READY` (R510): the store is charged. -/
def execHoldupReady (s : State) : Host.Outcome State Fault Refusal :=
  s.run fun m => if m.sup.holdupFrom.isSome then m else { m with sup := { m.sup with holdupReady := true, storeMv := 38000 } }
/-- `SUPPLY_FAIL_RESET` (R511, R526): the writes in flight are complete; operating time stops. -/
def execSupplyFailReset (s : State) : Host.Outcome State Fault Refusal :=
  s.run fun m =>
    if m.sup.holdupFrom.isSome && !m.sup.resetAsserted then
      ({ m with sup := { m.sup with resetAsserted := true }, er := m.er.opStop m.mono,
                boot := { m.boot with order := none, pressAt := none, held := none } } : Mod).enterReset
    else m
/-- The digital core loses power (R29, R511, R531): what only power keeps is lost, the stages are OFF, the next start is `POWER_ON`. The
flags `RESET_STUCK_SEEN` and `BANK_FALLBACK`, kept over resets (R14, R82), are lost with it (DESIGN CHOICE, log entry 131). -/
def Mod.corePowerLost (m : Mod) : Mod :=
  { m with
    sup := { m.sup with coreLost := true, holdupReady := false, storeMv := 0, vorMin := 65535 }
    clk := {}
    er := { m.er with queue := [] }
    tan := { m.tan with ilk := { m.tan.ilk with peer := .open_, peerSince := m.mono, powerReset := true } }
    si := m.si.unpower m.mono
    boot := { m.boot with stuckSeen := false, bankFallback := false, pinIgnored := none }
    dio := { m.dio with ch := m.dio.ch.map fun h => { h with out := { st := .off } } }
    an := { m.an with ao := m.an.ao.map fun h => { h with out := { st := .off } } } }
/-- `HOLDUP_STORE_EXHAUSTED` (R511): no earlier than 100 ms after the supply failure. -/
def execHoldupStoreExhausted (s : State) : Host.Outcome State Fault Refusal :=
  s.run fun m => if m.sup.resetAsserted && !m.sup.coreLost then m.onDue (m.sup.holdupFrom.map (· + phMs 100)) Mod.corePowerLost else m
/-- `VOR_MIN` is read: the least value starts again from the present one (R521). -/
def Mod.readVorMin (m : Mod) : Mod × Nat × Bytes :=
  ({ m with sup := { m.sup with vorMin := m.sup.vorMv } }, stOk, natLe 2 m.sup.vorMin)
/-- `VOR_MIN`: in `MAINTENANCE` as well (R69); the access takes one ROOT cycle (R15, log entry 105). -/
def execVorMin (rq : Req) (s : State) : Host.Outcome State Fault Refusal :=
  s.run fun m => m.serve rq fun _ m => let r := m.readVorMin; { m := r.1.pass 1, ans := some (stOk, readResult r.2.1 r.2.2) }

/-! Backup domain. -/

/-- The domain runs from VBAT, or from its capacitor, which it notes (R512). -/
def Bkp.onBattery (b : Bkp) : Bkp :=
  if 2000 ≤ b.vbatMv then { b with source := 1 } else { b with source := 2, capUsed := true }
/-- `BACKUP_LOCKOUT` (R513). -/
def execBackupLockout (s : State) : Host.Outcome State Fault Refusal :=
  s.run fun m => { m with bkp := { m.bkp with locked := true }.onBattery }
/-- `BACKUP_UNLOCK` (R513). -/
def execBackupUnlock (s : State) : Host.Outcome State Fault Refusal :=
  s.run fun m => if m.bkp.locked then { m with bkp := { m.bkp with locked := false, source := 0 } } else m
/-- `BACKUP_POR` (R514). -/
def execBackupPor (s : State) : Host.Outcome State Fault Refusal := s.run fun m => { m with bkp := m.bkp.powerOn m.mono }
/-- `VBAT_CHANGEOVER` (R512): without the main feed. -/
def execVbatChangeover (mv : Nat) (s : State) : Host.Outcome State Fault Refusal :=
  s.run fun m =>
    let b := { m.bkp with vbatMv := mv }
    { m with bkp := if b.source = 0 then b else b.onBattery }
/-- `RTC_COMPENSATION` (R516): at the next second that is a multiple of 16. -/
def execRtcCompensation (tempC : Int) (s : State) : Host.Outcome State Fault Refusal :=
  s.run fun m =>
    let m1 := m.to (m.bkp.reaches (m.bkp.nextComp m.mono))
    { m1 with bkp := m1.bkp.compensate tempC m1.mono }
/-- `VBAT_MEASURE` (R512): the rise of `VBAT_LOW` is recorded. -/
def execVbatMeasure (mv : Nat) (s : State) : Host.Outcome State Fault Refusal :=
  s.run fun m =>
    let r := m.bkp.vbat mv
    let m1 := { m with bkp := r.1 }
    if r.2 && m1.live then m1.log 1 3 8 0 [] else m1
/-- The RTC against device time at a second boundary (R518). -/
def Mod.discipline (m : Mod) : Mod :=
  let sec := m.tb.now / (1000000000 * unitsPerNs)
  let d : Int := (m.bkp.count m.mono : Int) - sec * 32768
  let b := { m.bkp with capAt := some (sec * (1000000000 * unitsPerNs)), disciplinedAt := some m.mono }
  let b1 := if 2 ≤ d.natAbs ∧ d.natAbs ≤ 32767 then { (b.shift (-d) m.mono).1 with shifts := Nat.min 65535 (b.shifts + 1) } else b
  { m with bkp := if 32767 < d.natAbs ∨ b.osf then { b1 with setAt := some (nextSecond m.tb.now) } else b1 }
/-- The next capture (R518): 16 s after the last, at a device-time second boundary. -/
def Mod.disciplineDue (m : Mod) : Nat :=
  match m.bkp.capAt with
  | some a => Nat.max (a + 16 * (1000000000 * unitsPerNs)) (nextSecond (m.tb.now - 1))
  | none => nextSecond (m.tb.now - 1)
/-- `RTC_DISCIPLINE` (R518): while `LOCKED`, the interface unlocked. -/
def execRtcDiscipline (s : State) : Host.Outcome State Fault Refusal :=
  s.run fun m => m.whenLive fun m =>
    if m.ptp.quality == .locked && !m.bkp.locked then (m.toNow m.disciplineDue).discipline else m
/-- A write of the backup range: refused while the interface is locked (R513, R524). -/
def Mod.bkpWrite (m : Mod) (f : Bkp → Bkp) : Mod × Nat := if m.bkp.locked then (m, stBkpLocked) else ({ m with bkp := f m.bkp }, stOk)
/-- A write of `RTC_SHIFT` (R517). -/
def Mod.writeRtcShift (m : Mod) (n : BitVec 16) : Mod × Nat :=
  if n = 0x8000 then (m, stRange) else m.bkpWrite fun b => (b.shift n.toInt m.mono).1
/-- `RTC_SHIFT` (R517): role `ENGINEER`. -/
def execRtcShift (rq : Req) (n : BitVec 16) (s : State) : Host.Outcome State Fault Refusal :=
  s.run fun m => m.writeOne rq 3 false fun _ m => m.writeRtcShift n
/-- A write of `RTC_SET` (R518). -/
def Mod.writeRtcSet (m : Mod) (v : BitVec 64) : Mod × Nat :=
  if m.bkp.locked then (m, stBkpLocked)
  else if m.ptp.quality = .locked then (m, stPtpOwns) else m.bkpWrite fun b => (b.setSec v.toNat m.mono).1
/-- `RTC_SET` (R518): role `ENGINEER`. -/
def execRtcSet (rq : Req) (v : BitVec 64) (s : State) : Host.Outcome State Fault Refusal :=
  s.run fun m => m.writeOne rq 3 false fun _ m => m.writeRtcSet v
/-- A write of `ALM0` or `ALM1` (R519). -/
def Mod.writeAlm (m : Mod) (n : Nat) (v : BitVec 64) : Mod × Nat :=
  m.bkpWrite fun b => (b.arm n (v.toNat % 2 ^ 40) (bitOf v.toNat 40) m.mono).1
/-- `ALM_ARM` (R519): role `ENGINEER`. -/
def execAlmArm (rq : Req) (n : Fin 2) (v : BitVec 64) (s : State) : Host.Outcome State Fault Refusal :=
  s.run fun m => m.writeOne rq 3 false fun _ m => m.writeAlm n v
/-- `RTC_ALARM_FIRE` (R519): the seconds count reaches the target. -/
def execRtcAlarmFire (n : Fin 2) (s : State) : Host.Outcome State Fault Refusal :=
  s.run fun m =>
    let a := at_ m.bkp.alms n {}
    m.onDue (if a.armed then some (m.bkp.reaches (a.target * 32768)) else none) fun m => { m with bkp := (m.bkp.fire n m.mono).1 }
/-- `PWRON_TIMEOUT` (R520): 60 s of RTC time after the assertion. -/
def execPwronTimeout (s : State) : Host.Outcome State Fault Refusal :=
  s.run fun m =>
    m.onDue (m.bkp.pwronFrom.map fun a => a + ceilDiv (60 * cycleUnit) (100000000 + m.bkp.e).toNat) fun m => { m with bkp := { m.bkp with pwronFrom := none } }
/-- `PWRON_ACT` (R520, R525): a write of 1; role `OPERATE`. -/
def execPwronAct (rq : Req) (s : State) : Host.Outcome State Fault Refusal :=
  s.run fun m => m.writeOne rq 2 false fun _ m => m.bkpWrite fun b => { b with pwronFrom := none }

end Sys2Proof.Machine
end

