-- ==== Sys2Proof/Machine/Commands.lean ====
section
/-! DEFINITION. Commands of the engineering access protocol that restart, activate, roll back, reset faults, select firmware and
handle the owner key (19_engineering_access.md R575 to R578, 02_cassette_and_startup.md R47, R48, R53, R59, R64 to R68). -/

namespace Sys2Proof.Machine

/-! Restarts. -/

/-- A restart would leave the tandem without a holder of ACT (R576). -/
def Mod.alone (m : Mod) : Bool := m.act && !(m.tan.partnerStandby m.mono && m.tan.partnerFit)
/-- A restart command (R577, R147, R152, R183, R576): the reset follows the response by 50 ms. -/
def Mod.restartCmd (m : Mod) (s : Session) (o : ResetOrder) (force : Bool) : CmdAns :=
  if m.maint && decide (s.role < 4) then { m := m, status := stRole }
  else if m.changing then { m := m, status := stBusy }
  else if m.alone && !force then { m := m, status := stNoPartner }
  else { m := m.orderStart { o with due := m.mono + phMs 50 } }
/-- `RESTART_COLD` (R577). -/
def execRestartCold (rq : Req) (readmit force : Bool) (s : State) : Host.Outcome State Fault Refusal :=
  s.run fun m => m.command rq 0 3 false true fun k m => m.restartCmd k { cause := 3, cold := some true, readmit := readmit } force
/-- `RESTART_WARM` (R577). -/
def execRestartWarm (rq : Req) (readmit force : Bool) (s : State) : Host.Outcome State Fault Refusal :=
  s.run fun m => m.command rq 0 3 false true fun k m => m.restartCmd k { cause := 3, cold := some false, readmit := readmit } force
/-- `RESTART_MAINTENANCE` (R577, R72). -/
def execRestartMaintenance (rq : Req) (readmit force : Bool) (s : State) : Host.Outcome State Fault Refusal :=
  s.run fun m => m.command rq 0 3 false true fun k m =>
    m.restartCmd k { cause := 3, cold := some true, maint := true, readmit := readmit } force

/-! Activation and rollback. -/

/-- The tandem forbids a change of image through this session (R65, R576): only the holder of ACT takes it, through the station
address, while one of the two is `STANDBY` or `CATCHING_UP`. -/
def Mod.tandemForbids (m : Mod) (s : Session) : Bool :=
  (m.partnerFollows || decide (m.tan.role = .standby) || decide (m.tan.role = .catchingUp)) && !(s.station && m.act)
/-- Activation needs the partner's slot too (R65): not against one that is `DETACHED` for another image. -/
def Mod.needsBoth (m : Mod) : Bool :=
  m.partnerFollows || m.tan.partnerRole m.mono == 5 && (match m.tan.partnerHello with | some h => h.icrc.toNat == m.icrc | none => false)
/-- The partner is known to hold the image of slot `n` (R65). -/
def Mod.partnerHolds (m : Mod) (n : Nat) : Bool :=
  m.eap.acks.any fun a => (match a.1 with | .slot k => k.val == n | .ctab _ => false) && a.2.toNat == (m.cas.hdr.slot n).icrc
/-- The image in slot `n` against all steps of R54: the step that fails, with the planner's report. -/
def Mod.judgeSlot (m : Mod) (n : Nat) : Option ImgFail :=
  let img := m.slotImage n
  match imgCheck m.bank.main m.cas.ownerKey img with
  | some f => some f
  | none =>
    if !checkReqs img m.fwMain m.bank.si.version m.otp.hwRev m.otp.variantE then some .requirements
    else match planImage img (parseCfg img) m.fwMain m.boot.excl [] m.otp.tandem m.pmc.sel none with
      | .inl _ => none
      | .inr r => some (.plan r)
/-- The planner's code of a failure. -/
def ImgFail.rej : ImgFail → Nat
  | .plan r => r.code
  | _ => 0
/-- What the planner reports of a failure is kept (R185, R186). -/
def Mod.noteFail (m : Mod) : ImgFail → Mod
  | .plan r => m.planRejected r
  | _ => m
/-- A switch under R53 is made online: the module executes an image, and only sections marked Online differ. -/
def Mod.switchOnline (m : Mod) (n : Nat) : Bool := m.executing && isOnline m.cfg.secs (parseCfg (m.slotImage n)).secs
/-- A switch by restart (R53, R65): the header is written, the partner hears of the image in its `HELLO`, and the start is ordered. A
header that could not be written is reported as failed (R46; log entry 101). -/
def Mod.switchByRestart (m : Mod) (h : Hdr) (ok : Nat) : CmdAns :=
  let k := m.newActive h
  if k.hdrLost then
    { m := k, status := if ok = stAccepted then ok else stCondition, ended := if ok = stAccepted then some stCondition else none }
  else
    { m := (k.announce (h.slot h.active).icrc m.planHash).orderStart { cause := 4, cold := some true }, status := ok,
      ended := if ok = stAccepted then some stOk else none }
/-- `ACTIVATE` (R577, R47, R53, R59, R65, R152, R164, R170). -/
def Mod.activateCmd (m : Mod) (s : Session) (n : Nat) (byRestart : Bool) : CmdAns :=
  if m.maint && (decide (s.role < 4) || s.port != 2) then { m := m, status := stRole }
  else if m.changing then
    { m := m.busyChange, status := stBusy }
  else if m.maint && !m.cas.hdr.unconfigured || m.tandemForbids s then { m := m, status := stCondition }
  else if 8 ≤ n ∨ (m.cas.hdr.slot n).st ≠ 2 then { m := m, status := stAbsent }
  else if n = m.cas.hdr.active ∨ m.needsBoth ∧ !m.partnerHolds n then { m := m, status := stCondition }
  else if !m.maint && !byRestart && m.switchOnline n then { m := m.beginChange n 0, status := stAccepted }
  else match m.judgeSlot n with
    | some f =>
      { m := (m.noteFail f).refuseChange f.step f.rej, status := stAccepted, ended := some stImg, detail := f.step, value := f.rej }
    | none => m.switchByRestart (m.cas.hdr.activate n) stAccepted
/-- `ACTIVATE`. -/
def execActivate (rq : Req) (slot : BitVec 8) (byRestart : Bool) (s : State) : Host.Outcome State Fault Refusal :=
  s.run fun m => m.command rq 1 3 false true fun k m => m.activateCmd k slot.toNat byRestart
/-- `ROLLBACK` (R577, R64, R152, R161). -/
def Mod.rollbackCmd (m : Mod) (s : Session) : CmdAns :=
  let p := m.cas.hdr.previous
  if m.changing then { m := m, status := stBusy }
  else if m.tandemForbids s then { m := m, status := stCondition }
  else if 8 ≤ p ∨ (m.cas.hdr.slot p).st ≠ 2 then { m := m, status := stNoPrevious }
  else if m.switchOnline p then { m := m.beginChange p 1, status := stAccepted }
  else if (m.judgeSlot p).isSome then { m := m, status := stCondition }
  else m.switchByRestart m.cas.hdr.exchange stOk
/-- `ROLLBACK`. -/
def execRollback (rq : Req) (s : State) : Host.Outcome State Fault Refusal :=
  s.run fun m => m.command rq 2 3 false false fun k m => m.rollbackCmd k

/-! Fault resets (R578). -/

/-- A halted task is released again (R141). -/
def Mod.resetTask (m : Mod) (t : Nat) : CmdAns :=
  if 16 ≤ t then { m := m, status := stRange }
  else if !(m.task t).halted then { m := m, status := stCondition }
  else { m := m.updTask t fun k => { k with halted := false, consec := 0 } }
/-- A controller is named (R443, R444): it is bus-off or waits after `AUTOREC_SUSP`, or its rate is detected. -/
def Mod.resetCan (m : Mod) (c : Nat) : CmdAns :=
  if 4 ≤ c then { m := m, status := stRange }
  else if (m.can c).st ≠ .busOff ∧ !(m.can c).autorecSusp ∧ !((m.canCfg c).cen && (m.canCfg c).nbr == 0) then { m := m, status := stCondition }
  else { m := m.updCan c fun k => k.faultReset (m.canCfg c) }
/-- A channel's thermal latch is cleared (R460). -/
def Mod.resetDio (m : Mod) (ch : Nat) : CmdAns :=
  if 32 ≤ ch then { m := m, status := stRange }
  else if !(m.dioCh ch).latched then { m := m, status := stCondition }
  else { m := m.updDio ch fun h => { h with latched := false, thermAt := [] } }
/-- Reason `RESYNC_FAILED` is cleared (R320). -/
def Mod.resetResync (m : Mod) (unit : Nat) : CmdAns :=
  if unit ≠ 0 then { m := m, status := stRange }
  else if m.tan.role ≠ .detached ∨ m.tan.detach ≠ 8 then { m := m, status := stCondition }
  else { m := m.rejoin }
/-- A module held in `FAILED` restarts (R319). -/
def Mod.resetFailed (m : Mod) (unit : Nat) : CmdAns :=
  if unit ≠ 0 then { m := m, status := stRange }
  else if m.tan.role ≠ .failed then { m := m, status := stCondition }
  else { m := m.orderStart { cause := 3, cold := some true } }
/-- Scopes applied one after the other: accepted where the condition of one is present. -/
def applyScopes (m : Mod) (fs : List (Mod → CmdAns)) : CmdAns :=
  let r := fs.foldl (fun (a : Mod × Bool) f => let c := f a.1; if c.status = stOk then (c.m, true) else a) (m, false)
  { m := r.1, status := if r.2 then stOk else stCondition }
/-- Every scope whose condition is present (R578): a controller where it is bus-off or `AUTOREC_SUSP` is set. -/
def Mod.resetAll (m : Mod) (unit : Nat) : CmdAns :=
  if unit ≠ 0xFFFF then { m := m, status := stRange }
  else
    let cans := (List.range 4).filter fun c => decide ((m.can c).st = .busOff) || (m.can c).autorecSusp
    applyScopes m ((List.range 16).map (fun t k => k.resetTask t) ++ cans.map (fun c k => k.resetCan c) ++
      (List.range 32).map (fun d k => k.resetDio d) ++ [fun k => k.resetResync 0, fun k => k.resetFailed 0])
/-- `FAULT_RESET_ALL`. -/
def execFaultResetAll (rq : Req) (unit : BitVec 16) (s : State) : Host.Outcome State Fault Refusal :=
  s.run fun m => m.command rq 5 2 false false fun _ m => m.resetAll unit.toNat
/-- `FAULT_RESET_TASK`. -/
def execFaultResetTask (rq : Req) (unit : BitVec 16) (s : State) : Host.Outcome State Fault Refusal :=
  s.run fun m => m.command rq 5 2 false false fun _ m => m.resetTask unit.toNat
/-- `FAULT_RESET_CAN`. -/
def execFaultResetCan (rq : Req) (unit : BitVec 16) (s : State) : Host.Outcome State Fault Refusal :=
  s.run fun m => m.command rq 5 2 false false fun _ m => m.resetCan unit.toNat
/-- `FAULT_RESET_DIO`. -/
def execFaultResetDio (rq : Req) (unit : BitVec 16) (s : State) : Host.Outcome State Fault Refusal :=
  s.run fun m => m.command rq 5 2 false false fun _ m => m.resetDio unit.toNat
/-- `FAULT_RESET_RESYNC`. -/
def execFaultResetResync (rq : Req) (unit : BitVec 16) (s : State) : Host.Outcome State Fault Refusal :=
  s.run fun m => m.command rq 5 2 false false fun _ m => m.resetResync unit.toNat
/-- `FAULT_RESET_FAILED`. -/
def execFaultResetFailed (rq : Req) (unit : BitVec 16) (s : State) : Host.Outcome State Fault Refusal :=
  s.run fun m => m.command rq 5 2 false false fun _ m => m.resetFailed unit.toNat

/-! Firmware banks and the owner key. -/

/-- The sequence of the bank chosen is raised above the other's (R66). -/
def Mod.selectBank (m : Mod) (bankB : Bool) : Mod :=
  if bankB then (if m.bankA.seq < m.bankB.seq then m else { m with bankB := { m.bankB with seq := m.bankA.seq + 1 } })
  else if m.bankB.seq < m.bankA.seq then m else { m with bankA := { m.bankA with seq := m.bankB.seq + 1 } }
/-- `BANK` (R577, R66, R68, R576). -/
def Mod.bankCmd (m : Mod) (bankB now force : Bool) : CmdAns :=
  let b := if bankB then m.bankB else m.bankA
  if !(b.boot.good && b.main.good && b.si.good) then { m := m, status := stImg }
  else if !m.maint && !b.valid m.otp.hwRev then { m := m, status := stFwIncompatible }
  else if now && m.alone && !force then { m := m, status := stNoPartner }
  else
    let k := m.selectBank bankB
    let k1 : Mod := { k with boot := { k.boot with bankSwitch := if bankB = m.onB then none else some bankB } }
    { m := if now then k1.orderStart { cause := 8 } else k1 }
/-- `BANK`. -/
def execBank (rq : Req) (bankB now force : Bool) (s : State) : Host.Outcome State Fault Refusal :=
  s.run fun m => m.command rq 10 4 false true fun _ m => m.bankCmd bankB now force
/-- `OWNER_KEY` enrol (R48, R577): into an empty record; not while the supply forbids programming (R77). -/
def Mod.enrolKey (m : Mod) (pub : Bytes) : CmdAns :=
  if !m.cas.present || !m.cas.keyErased then { m := m, status := stCondition }
  else if !m.sup.mayWrite then { m := m, status := stSupplyLow }
  else { m := { m with cas := m.cas.program 0x20000 (keyRec pub) } }
/-- `OWNER_KEY_ENROL`. -/
def execOwnerKeyEnrol (rq : Req) (pubkey : Bytes) (s : State) : Host.Outcome State Fault Refusal :=
  s.run fun m => m.command rq 11 4 true true fun _ m => m.enrolKey pubkey
/-- `OWNER_KEY` erase (R48, R577): in `MAINTENANCE`; not while the supply forbids erasing (R77). -/
def Mod.eraseKey (m : Mod) : CmdAns :=
  if !m.maint || !m.cas.present then { m := m, status := stCondition }
  else if !m.sup.mayErase then { m := m, status := stSupplyLow }
  else { m := { m with cas := m.cas.eraseRange 0x20000 0x30000 } }
/-- `OWNER_KEY_ERASE`. -/
def execOwnerKeyErase (rq : Req) (s : State) : Host.Outcome State Fault Refusal :=
  s.run fun m => m.command rq 11 4 true true fun _ m => m.eraseKey

end Sys2Proof.Machine
end

