-- ==== Sys2Proof/Machine/DioCmds.lean ====
section
/-! DEFINITION. The commands of the digital channels, pulse and encoder inputs (14_digital_and_pulse_io.md). -/

namespace Sys2Proof.Machine

/-- The value that a channel's stage presents (R29, R455, R459, R460). -/
def Mod.dioDriven (m : Mod) (ch : Nat) : Bool := (m.dioCh ch).driven (m.dioCfg ch) (m.dio.supplied ch)

/-! Inputs. -/

/-- The releases of the `EVENT` tasks of a channel after `n` filtered changes of which the last led to the present level (R457). -/
def Mod.dioTriggers (m : Mod) (ch : Nat) : Nat → Mod
  | 0 => m
  | n + 1 =>
    let up := (m.dioCh ch).level != (n % 2 == 1)
    Mod.dioTriggers (m.trigger 1 ch fun q => q == 3 || q == 1 && up || q == 2 && !up) ch n
/-- Samples of a channel are taken, 10 µs apart (R456, R457, R461); the input of an unused channel is ignored (R455). -/
def Mod.diSamples (m : Mod) (ch : Nat) (samples : List Bool) : Mod :=
  let m1 := m.to (lastSample m.mono + samples.length * samplePh)
  let r := (m1.dioCh ch).samples (m1.dioCfg ch) m1.tb samples
  if (m1.dioCfg ch).use = 0 then m1 else (m1.updDio ch fun _ => r.1).dioTriggers ch r.2
/-- `DI_FILTER_CHANGE` (R456, R457). -/
def execDiFilterChange (ch : Fin 32) (samples : List Bool) (s : State) : Host.Outcome State Fault Refusal :=
  s.run fun m => m.whenLive fun m => m.diSamples ch samples
/-- `DI_FLICKER` (R458). -/
def execDiFlicker (ch : Fin 32) (s : State) : Host.Outcome State Fault Refusal :=
  s.run fun m => m.whenLive fun m => m.onDue ((m.dioCh ch).flickerDue (m.dioCfg ch)) fun m =>
    m.updDio ch fun h => { h with flicker := true }
/-- `DI_CHATTER_EVALUATION` (R458): every 1 s. -/
def execDiChatterEvaluation (ch : Fin 32) (s : State) : Host.Outcome State Fault Refusal :=
  s.run fun m => m.whenLive fun m =>
    let m1 := m.to ((m.dioCh ch).evalAt + phS 1)
    m1.updDio ch fun h => h.evaluate (m1.dioCfg ch) m1.mono
/-- `DI_STUCK_ON` (R458). -/
def execDiStuckOn (ch : Fin 32) (s : State) : Host.Outcome State Fault Refusal :=
  s.run fun m => m.whenLive fun m => m.onDue ((m.dioCh ch).stuckDue (m.dioCfg ch)) fun m =>
    m.updDio ch fun h => { h with stuckOn := true }
/-- A group's field supply has a new level (R455): its loss is a demand on the group's stages and a switch-off (R461, R466). -/
def Mod.ufLevel (m : Mod) (grp mv : Nat) : Mod :=
  let was := at_ m.dio.ufOk grp false
  let ok := ufPresent was mv
  { m with dio := { m.dio with
      ufMv := put m.dio.ufMv grp mv, ufOk := put m.dio.ufOk grp ok
      ch := if was = ok then m.dio.ch
            else mapFrom (fun i h => if dioGroup i ≠ grp then h else if ok then h.rested m.mono else { h.demand with offAt := m.mono }) 0 m.dio.ch } }
/-- `UF_SUPPLY_CHANGE` (R455): a level at the terminals, also while the main side is held in reset. -/
def execUfSupplyChange (grp : Fin 2) (mv : Nat) (s : State) : Host.Outcome State Fault Refusal :=
  s.run fun m => m.ufLevel grp mv

/-! Output diagnostics. -/

/-- `DO_OVERLOAD` (R460): of a stage that is on. -/
def execDoOverload (ch : Fin 32) (s : State) : Host.Outcome State Fault Refusal :=
  s.run fun m => m.whenLive fun m => if m.dioDriven ch then m.updDio ch fun h => { h with overload := true } else m
/-- `DO_THERMAL_SHUTDOWN` (R460). -/
def execDoThermalShutdown (ch : Fin 32) (s : State) : Host.Outcome State Fault Refusal :=
  s.run fun m => m.whenLive fun m => if m.dioDriven ch then m.updDio ch fun h => h.shutdown m.mono else m
/-- `DO_THERMAL_RECOVERY` (R460). -/
def execDoThermalRecovery (ch : Fin 32) (s : State) : Host.Outcome State Fault Refusal :=
  s.run fun m => m.whenLive fun m => m.updDio ch fun h => { h with thermal := false }
/-- `THERMAL_LATCH_RELEASE` (R460): the commanded value has been FALSE for 10 ms. -/
def execThermalLatchRelease (ch : Fin 32) (s : State) : Host.Outcome State Fault Refusal :=
  s.run fun m => m.whenLive fun m =>
    m.onDue (if (m.dioCh ch).latched && !(m.dioCh ch).cmd then some ((m.dioCh ch).cmdFalseFrom.getD 0 + phMs 10) else none) fun m =>
      m.updDio ch fun h => { h with latched := false, thermAt := [] }
/-- `DO_OPEN_LOAD` (R460): with `OPENLOAD`, of a stage that is on. -/
def execDoOpenLoad (ch : Fin 32) (s : State) : Host.Outcome State Fault Refusal :=
  s.run fun m => m.whenLive fun m =>
    if (m.dioCfg ch).openload && m.dioDriven ch then m.updDio ch fun h => { h with openLoad := true } else m
/-- A readback high against an expected low level, or while the stage's value is OFF (R461, R464). -/
def Mod.extDriveSeen (m : Mod) (ch : Nat) : Bool :=
  let h := m.dioCh ch
  h.level && (m.dioCfg ch).isOutput && (if m.parallel ch then !h.expected else h.valueOff (m.dioCfg ch) (m.dio.supplied ch))
/-- `EXT_DRIVE` (R461, R464): 1 ms after the masking time of 1 ms. -/
def execExtDrive (ch : Fin 32) (s : State) : Host.Outcome State Fault Refusal :=
  s.run fun m => m.whenLive fun m =>
    let m1 := if m.parallel ch then m.noteExpected ch else m
    let h := m1.dioCh ch
    let due := if m1.parallel ch then h.maskFrom + phMs 1 else Nat.max (h.offAt + phMs 1) (h.trueFrom.getD 0) + phMs 1
    m1.onDue (if m1.extDriveSeen ch then some due else none) fun m =>
      m.updDio ch fun h => { h with extDrive := true, extSeen := true }
/-- `EXT_DRIVE_CLEAR` (R461): the readback has been low for 1 s. -/
def execExtDriveClear (ch : Fin 32) (s : State) : Host.Outcome State Fault Refusal :=
  s.run fun m => m.whenLive fun m =>
    let h := m.dioCh ch
    m.onDue (if h.extDrive && !h.level then some (h.falseFrom + phS 1) else none) fun m =>
      m.updDio ch fun h => { h with extDrive := false }
/-- `PARTNER_NO_DRIVE` (R464). -/
def execPartnerNoDrive (ch : Fin 32) (s : State) : Host.Outcome State Fault Refusal :=
  s.run fun m => m.whenLive fun m =>
    let m1 := if m.parallel ch then m.noteExpected ch else m
    let h := m1.dioCh ch
    m1.onDue (if m1.parallel ch && h.expected && !h.level then some (h.maskFrom + phMs 1) else none) fun m =>
      m.updDio ch fun h => { h with partnerNoDrive := true }

/-! Dark tests. -/

/-- A dark test may start on a channel now (R465). -/
def Mod.darkAllowed (m : Mod) (ch : Nat) : Bool :=
  let h := m.dioCh ch
  let g := dioGroup ch
  let soon (u : Nat) : Bool := decide (u < m.tb.now + 300000 * unitsPerNs) && decide (m.tb.now ≤ u)
  let near (t : Nat) : Bool :=
    let c := m.taskCfg t
    ((m.task t).pend.any fun p => soon p.at_) ||
      c.kind == 1 && soon (nextRelease c m.tb.nextTick * tickUnits + c.oofs * 1000 * unitsPerNs)
  h.darkReady (m.dioCfg ch) (m.touOwner ch).isSome (decide (m.tan.partnerRole m.mono ≠ 7)) (m.dio.supplied ch) m.mono
    && decide (at_ m.dio.dtLast g 0 + phMs 10 ≤ m.mono)
    && !(((enumFrom 0 m.dio.ch).any fun e => dioGroup e.1 == g && e.2.testFrom.isSome)) && !(m.dioTasks ch).any near
/-- `DARK_TEST_START` (R465). -/
def execDarkTestStart (ch : Fin 32) (s : State) : Host.Outcome State Fault Refusal :=
  s.run fun m => m.whenLive fun m =>
    if m.darkAllowed ch then
      let m1 := m.updDio ch fun h => { h with testFrom := some m.mono, dtNext := m.mono + phS (m.dioCfg ch).dtest }
      { m1 with dio := { m1.dio with dtLast := put m1.dio.dtLast (dioGroup ch) m.mono } }
    else m
/-- `DARK_TEST_END` (R465): at once where the readback has fallen, after 250 µs otherwise. -/
def execDarkTestEnd (ch : Fin 32) (below5V : Bool) (s : State) : Host.Outcome State Fault Refusal :=
  s.run fun m => m.whenLive fun m => match (m.dioCh ch).testFrom with
    | none => m
    | some a => (if below5V then m else m.to (a + phUs 250)).updDio ch fun h =>
        { h with testFrom := none, darkFail := !below5V, darkSeen := h.darkSeen || !below5V }

/-! Pulse and encoder inputs. -/

/-- `PI_EDGE` (R467). -/
def execPiEdge (p : Fin 8) (rising : Bool) (widthNs : Nat) (s : State) : Host.Outcome State Fault Refusal :=
  s.run fun m => m.whenLive fun m =>
    if (m.piCfg p).use = 1 then m.updPi p fun c => c.edge (m.piCfg p) rising widthNs m.dt m.mono else m
/-- `PI_FREQ_TIMEOUT` (R467): 10 s without an edge. -/
def execPiFreqTimeout (p : Fin 8) (s : State) : Host.Outcome State Fault Refusal :=
  s.run fun m => m.whenLive fun m => m.onDue ((at_ m.dio.pi p {}).newest.map (· + phS 10)) fun m =>
    m.updPi p fun c => { c.settle (m.piCfg p) m.mono with f := 0 }
/-- `ENC_COUNT_STEP` (R470): a valid step of an incremental encoder. -/
def execEncCountStep (e : Fin 4) (up : Bool) (s : State) : Host.Outcome State Fault Refusal :=
  s.run fun m => m.whenLive fun m => if (m.encCfg e).kind = 1 then m.updEnc e fun c => c.step (m.encCfg e) up m.mono else m
/-- `ENC_Z_EDGE` (R470). -/
def execEncZEdge (e : Fin 4) (s : State) : Host.Outcome State Fault Refusal :=
  s.run fun m => m.whenLive fun m => if (m.encCfg e).kind = 1 then m.updEnc e fun c => c.zEdge (m.encCfg e) m.mono else m
/-- `ENC_INVALID_STEP` (R470). -/
def execEncInvalidStep (e : Fin 4) (s : State) : Host.Outcome State Fault Refusal :=
  s.run fun m => m.whenLive fun m => if (m.encCfg e).kind = 1 then m.updEnc e fun c => c.invalid m.mono else m
/-- `ENC_FAULT_EXPIRY` (R470): 100 ms after the last invalid step. -/
def execEncFaultExpiry (e : Fin 4) (s : State) : Host.Outcome State Fault Refusal :=
  s.run fun m => m.whenLive fun m => m.onDue ((at_ m.dio.enc e {}).invalidAt.map (· + phMs 100)) fun m =>
    m.updEnc e fun c => { c with encFault := false, invalidAt := none }
/-- `SSI_TELEGRAM_COMPLETE` (R471). -/
def execSsiTelegramComplete (e : Fin 4) (raw : BitVec 32) (startLow monoHigh : Bool) (s : State) : Host.Outcome State Fault Refusal :=
  s.run fun m => m.whenLive fun m =>
    let c := m.encCfg e
    m.onDue ((at_ m.dio.enc e {}).ssiFrom.map (· + c.telegramNs * 8 / 5)) fun m =>
      m.updEnc e fun k => k.telegram c raw.toNat startLow monoHigh m.mono
/-- `ENC_SUPPLY_OVERLOAD` (R468). -/
def execEncSupplyOverload (s : State) : Host.Outcome State Fault Refusal :=
  s.run fun m => m.whenLive fun m => { m with dio := { m.dio with encSupFault := true, encSupSeen := true } }

end Sys2Proof.Machine
end

