-- ==== Sys2Proof/Machine/Files.lean ====
section
/-! DEFINITION. The FILE service and the files relayed between the modules of a tandem (19_engineering_access.md R571 to R573,
02_cassette_and_startup.md R47, R55, R58, R65, R66, 07_compensation_handover_trace.md R228, R229). -/

namespace Sys2Proof.Machine

/-! Contents. -/

/-- A channel's result in `TRC_RES` (R244): `F_FIRST` is the frame of the oldest sample. -/
def TrcBuf.result (b : TrcBuf) : Bytes :=
  natLe 4 b.buf.length ++ natLe 4 b.trigIdx ++ natLe 8 ((b.buf.head?.map (·.2)).getD 0)
/-- The `TRACE` file (R243). -/
def Trace.file (t : Trace) : Bytes :=
  (t.bufs.map TrcBuf.result).flatten ++
    ((t.chs.zip t.bufs).map fun ((h, b) : TrcCh × TrcBuf) =>
      if h.src = 0 then [] else (b.buf.map fun e => natLe 2 e.1.toNat).flatten).flatten
/-- The `ALMSNAP` file (R264). -/
def Mod.almSnap (m : Mod) : Bytes :=
  let pts := (m.ae.cfg.points.zip m.ae.pts).mergeSort fun a b => decide (a.1.pnum ≤ b.1.pnum)
  [0x48, 0x41, 0x53, 0x31] ++ natLe 4 m.ae.seq.toNat ++ natLe 2 pts.length ++ natLe 2 (b2n m.ae.flood + 2 * b2n (!m.act)) ++
    natLe 12 m.ae.lastEval.toNat ++ List.replicate 8 0 ++
    (pts.map fun e => natLe 4 e.1.pid.toNat ++ natLe 2 e.1.pnum ++ [0, 0] ++ natLe 4 e.2.stat).flatten
/-- The held records, oldest first (R528). -/
def Er.inOrder (e : Er) : List ErRec := (e.held.map (·.2)).mergeSort fun a b => !b.older a
/-- The `ER` file (R535). -/
def Mod.erFile (m : Mod) : Bytes :=
  let rs := m.er.inOrder
  [0x48, 0x45, 0x52, 0x31] ++ natLe 4 rs.length ++ natLe 5 m.optime ++ [0, 0, 0] ++ (rs.map ErRec.bytes).flatten
/-- The entry of the `COSTS` file for a type and its version: the base and per-port cost of this firmware, and
    the data size of R105 with CHAR at N = 0 (R602). -/
def costBytes (fw code ver : Nat) : Bytes :=
  let c := Config.costEntry (BitVec.ofNat 32 fw) code ver
  natLe 2 code ++ natLe 2 ver ++ natLe 4 c.1 ++ natLe 2 c.2 ++
    natLe 2 (match libRow code with | some r => libSize r ver 0 | none => 0)
/-- The `COSTS` file (R602, R166). -/
def costsFile (fw : Nat) : Bytes :=
  let rows := (libA ++ libB ++ libC).mergeSort fun a b => decide (a.code ≤ b.code)
  let ents := (rows.map fun r => r.vers.map fun v => (r.code, v)).flatten
  [0x48, 0x43, 0x53, 0x54] ++ natLe 4 fw ++ natLe 4 ents.length ++ [0, 0, 0, 0] ++
    (ents.map fun e => costBytes fw e.1 e.2).flatten
/-- The content of a file that is opened for reading, or the refusal (R571). -/
def Mod.fileContent (m : Mod) (s : Session) (n : FileName) : Nat ⊕ Bytes :=
  if m.maint && (match n with | .er => false | .slot _ => false | _ => true) then .inl stCondition
  else match n with
  | .plan => match m.plan.plan with | some p => .inr p.file | none => .inl stAbsent
  | .trace => if m.ce.trc.state = 3 ∨ m.ce.trc.state = 4 then .inr m.ce.trc.file else .inl stCondition
  | .almsnap => .inr m.almSnap
  | .er => .inr m.erFile
  | .pmcring => .inr (m.pmc.ring.map PmcSnap.bytes).flatten
  | .costs => .inr (costsFile m.fwMain)
  | .slot k =>
    if s.role < (if m.maint then 4 else 3) ∨ m.maint ∧ s.port ≠ 2 then .inl stRole
    else if (m.cas.hdr.slot k).st = 2 ∨ (m.cas.hdr.slot k).st = 3 then .inr (m.slotImage k) else .inl stAbsent
  | _ => .inl stAccess

/-! Opening. -/

/-- The lowest handle that no open file has (DESIGN CHOICE, log entry 17). -/
def Mod.freeFh (m : Mod) : BitVec 8 :=
  match (List.range 255).find? fun i => !m.eap.files.any fun f => f.fh == BitVec.ofNat 8 (i + 1) with
  | some i => BitVec.ofNat 8 (i + 1)
  | none => 0
/-- The body of a FILE response (R572): operation, handle, then `rest`. -/
def fileBody (fop : Nat) (fh : BitVec 8) (rest : Bytes) : Bytes := natLe 1 fop ++ [fh] ++ [0, 0] ++ rest
/-- Files that a session has open. -/
def Mod.openFiles (m : Mod) (sess : Nat) : Nat := (m.eap.files.filter fun f => f.sess == sess).length
/-- `FILE_OPEN_READ` (R571, R572, R535). -/
def Mod.openRead (m : Mod) (s : Session) (n : FileName) : Served :=
  if 2 ≤ m.openFiles s.id then { m := m, ans := some (stBusy, []) }
  else match m.fileContent s n with
  | .inl st => { m := m, ans := some (st, []) }
  | .inr b =>
    let f : FileOpen := { sess := s.id, fh := m.freeFh, name := n, write := false, total := b.length, data := b, lastAt := m.mono }
    { m := { m with eap := { m.eap with files := m.eap.files ++ [f] } },
      ans := some (stOk, fileBody 1 f.fh (natLe 4 b.length ++ natLe 4 (crc32 b))) }
/-- See `Mod.openRead`. -/
def execFileOpenRead (rq : Req) (name : FileName) (s : State) : Host.Outcome State Fault Refusal :=
  s.run fun m => m.serve rq fun k m => m.openRead k name

/-- A blank cassette is given an unconfigured header (R47), by the write of R46. -/
def Cas.init (c : Cas) : Cas :=
  let k := (c.eraseRange 0 0x20000).writeHdr {}
  if k.hdrFailed then { k with copy := none } else k
/-- Neither header copy is well formed (R47). -/
def Cas.blank (c : Cas) : Bool := (parseHdr (c.read 0 256)).isNone && (parseHdr (c.read 0x10000 256)).isNone
/-- The least role that may write a file; none where no role may (R571). -/
def writeRole : FileName → Option Nat
  | .ctab _ => some 3
  | .slot _ => some 3
  | .fwBoot => some 4
  | .fwMain => some 4
  | .fwSi => some 4
  | _ => none
/-- The relayed form of a file. -/
def relayOf : FileName → Option RelayFile
  | .ctab n => some (.ctab n)
  | .slot n => some (.slot n)
  | _ => none
/-- What is known of the partner's copy of a file is void: the file is written anew. -/
def Mod.dropAck (m : Mod) (f : Option RelayFile) : Mod :=
  match f with
  | some f => { m with eap := { m.eap with acks := m.eap.acks.filter fun a => a.1 != f } }
  | none => m
/-- The image of a bank changed. -/
def FwBank.set (b : FwBank) (kind : Nat) (d : FwDesc) : FwBank :=
  if kind = 1 then { b with boot := d } else if kind = 2 then { b with main := d } else { b with si := d }
/-- The image of a kind in the bank not running (R66) changed. -/
def Mod.setFw (m : Mod) (kind : Nat) (d : FwDesc) : Mod :=
  if m.onB then { m with bankA := m.bankA.set kind d } else { m with bankB := m.bankB.set kind d }
/-- The firmware kind of a file. -/
def fwKind : FileName → Option Nat
  | .fwBoot => some 1
  | .fwMain => some 2
  | .fwSi => some 3
  | _ => none
/-- What an open for writing needs of the cassette (R47, R58, R573), with the refusal where it is not met. -/
def Mod.prepareSlot (m : Mod) (s : Session) (k : Nat) : Mod × Nat :=
  if !m.cas.present then (m, stAbsent)
  else if m.cas.copy.isNone then
    if !(m.maint && s.role == 4 && s.port == 2 && m.cas.blank) then (m, stCondition)
    else if !m.sup.mayErase then (m, stSupplyLow)
    else
      let k0 : Mod := { m with cas := m.cas.init }
      if k0.cas.hdrFailed then (k0.log 1 4 6 0 [], stCondition)
      else
        let k1 := k0.setSlot k { st := 1 }
        (k1, if k1.hdrLost then stCondition else stOk)
  else if k = m.cas.hdr.active ∨ k = m.cas.hdr.previous then (m, stInUse)
  else
    let k1 := m.setSlot k { st := 1 }
    (k1, if k1.hdrLost then stCondition else stOk)
/-- What an open for writing does to the file's place (R572, R573, R66). -/
def Mod.prepareWrite (m : Mod) (s : Session) (n : FileName) (total : Nat) : Mod × Nat :=
  match n with
  | .slot k => if 6291456 < total then (m, stRange) else m.prepareSlot s k
  | .ctab _ => if total ≠ 2048 then (m, stLength) else (m, stOk)
  | n => match fwKind n with
    | some k => (m.setFw k { kind := k, good := false }, stOk)
    | none => (m, stAccess)
/-- `FILE_OPEN_WRITE` (R571, R572). -/
def Mod.openWrite (m : Mod) (s : Session) (n : FileName) (total : Nat) : Served :=
  match writeRole n with
  | none => { m := m, ans := some (stAccess, []) }
  | some r =>
    if m.maint && (match n with | .ctab _ => true | _ => false) then { m := m, ans := some (stCondition, []) }
    else if s.role < (if m.maint then 4 else r) ∨ m.maint ∧ s.port ≠ 2 then { m := m, ans := some (stRole, []) }
    else if 2 ≤ m.openFiles s.id ∨ m.eap.files.any (·.write) then { m := m, ans := some (stBusy, []) }
    else
      let p := m.prepareWrite s n total
      if p.2 ≠ stOk then { m := p.1, ans := some (p.2, []) }
      else
        let k := p.1.dropAck (relayOf n)
        let f : FileOpen := { sess := s.id, fh := k.freeFh, name := n, write := true, total := total, lastAt := k.mono }
        { m := { k with eap := { k.eap with files := k.eap.files ++ [f] } }, ans := some (stOk, fileBody 2 f.fh []) }
/-- See `Mod.openWrite`. -/
def execFileOpenWrite (rq : Req) (name : FileName) (total : Nat) (s : State) : Host.Outcome State Fault Refusal :=
  s.run fun m => m.serve rq fun k m => m.openWrite k name total

/-! Blocks. -/

/-- A sector of the cassette begins in the `len` bytes from `a` on: it is erased before they are programmed (R58, R78). -/
def sectorsIn (a len : Nat) : List Nat := ((List.range (len / 65536 + 1)).map fun i => (ceilDiv a 65536 + i) * 65536).filter fun b => decide (b < a + len)
/-- Bytes of an image reach a slot (R58): none beyond 6 MB, where the slot is reserved (R41). -/
def Cas.writeSlot (c : Cas) (n off : Nat) (b : Bytes) : Cas :=
  let a := slotBase n + off
  let b := b.take (6291456 - off)
  ((sectorsIn a b.length).foldl (fun (c : Cas) k => c.eraseRange k (k + 65536)) c).program a b
/-- The supply, or a header not yet written, holds the bytes back (R58, R77, R79). -/
def Mod.slotHeld (m : Mod) (n off len : Nat) : Bool :=
  !m.sup.mayWrite || m.cas.pendW.contains .header || !(sectorsIn (slotBase n + off) len).isEmpty && !m.sup.mayErase
/-- The file of a session is relayed to the partner (R65, R229). -/
def Mod.relays (m : Mod) (s : Session) : FileName → Bool
  | .slot _ => s.station && m.act && [2, 3, 5].contains (m.tan.partnerRole m.mono)
  | .ctab _ => m.act && m.partnerFollows
  | _ => false
/-- `RELAY` of R330. -/
def relayMsg (f : RelayFile) (off : Nat) (b : Bytes) : Bytes :=
  (match f with | .slot n => [1, BitVec.ofNat 8 n.val] | .ctab n => [2, BitVec.ofNat 8 n.val]) ++ natLe 4 off ++ b
/-- `RELAY_ACK` of R330. -/
def relayAckMsg (f : RelayFile) (crc : Nat) : Bytes :=
  (match f with | .slot n => [1, BitVec.ofNat 8 n.val] | .ctab n => [2, BitVec.ofNat 8 n.val]) ++ natLe 4 crc
/-- Bytes of a written file have reached their place, and go on to the partner. -/
def Mod.passOn (m : Mod) (s : Session) (f : FileOpen) (off : Nat) (b : Bytes) : Mod :=
  match relayOf f.name with
  | some r => if m.relays s f.name then m.control 9 (relayMsg r off b) else m
  | none => m
/-- An open file changed. -/
def Mod.updFile (m : Mod) (fh : BitVec 8) (g : FileOpen → FileOpen) : Mod :=
  { m with eap := { m.eap with files := m.eap.files.map fun f => if f.fh = fh then g f else f } }
/-- A write block (R572, R79). -/
def Mod.writeBlock (m : Mod) (s : Session) (f : FileOpen) (off : Nat) (b : Bytes) : Served :=
  if !f.write then { m := m, ans := some (stAccess, []) }
  else if 1024 < b.length then { m := m, ans := some (stLength, []) }
  else if off ≠ f.pos then { m := m, ans := some (stSequence, []) }
  else if f.total < off + b.length then { m := m, ans := some (stRange, []) }
  else
    let ok (k : Mod) (keep : Bool) : Served :=
      { m := (k.updFile f.fh fun g => { g with pos := g.pos + b.length, lastAt := k.mono,
                                               data := if keep then g.data ++ b else g.data }).passOn s f off b,
        ans := some (stOk, fileBody 3 f.fh []) }
    match f.name with
    | .slot n =>
      if m.slotHeld n off b.length then { m := m.updFile f.fh fun g => { g with lastAt := m.mono }, ans := some (stSupplyLow, []) }
      else ok { m with cas := m.cas.writeSlot n off b } false
    | _ => ok m true
/-- `FILE_BLOCK` (R572). -/
def Mod.block (m : Mod) (s : Session) (fh : BitVec 8) (op : BlockOp) : Served :=
  match m.eap.files.find? fun f => f.fh == fh && f.sess == s.id with
  | none => { m := m, ans := some (stCondition, []) }
  | some f => match op with
    | .read off n =>
      if f.write then { m := m, ans := some (stAccess, []) }
      else { m := m, ans := some (stOk, fileBody 3 fh (slice f.data off (Nat.min (Nat.min n 1024) (f.data.length - off)))) }
    | .write off b => m.writeBlock s f off b
/-- See `Mod.block`. -/
def execFileBlock (rq : Req) (fh : BitVec 8) (op : BlockOp) (s : State) : Host.Outcome State Fault Refusal :=
  s.run fun m => m.serve rq fun k m => m.block k fh op

/-! Closing. -/

/-- A file is no longer open. -/
def Mod.forgetFile (m : Mod) (fh : BitVec 8) : Mod := { m with eap := { m.eap with files := m.eap.files.filter fun f => f.fh != fh } }
/-- The partner is known to hold a file with a CRC-32. -/
def Mod.acked (m : Mod) (f : RelayFile) (crc : Nat) : Bool := m.eap.acks.any fun a => a.1 == f && a.2.toNat == crc
/-- The check of R55 over the `len` bytes written into slot `n`: the slot's entry, and the step and planner's code that R573 reports. -/
def Mod.completeSlot (m : Mod) (n len : Nat) : Mod × Nat × Nat × Nat :=
  let img := m.cas.read (slotBase n) len
  let ent (st : Nat) : SlotEnt := { st := st, version := field img 8 4, len := len, icrc := crc32 img }
  let k := m.setSlot n (ent 2)
  match k.judgeSlot n with
  | none => (k, crc32 img, 0, 0)
  | some f => if f.step ≤ 6 then (m.setSlot n (ent 3), crc32 img, f.step, 0) else (k.noteFail f, crc32 img, f.step, f.rej)
/-- The data of a table reaches its inactive bank (R228). -/
def Mod.completeTab (m : Mod) (n : Nat) (b : Bytes) : Mod :=
  let s := at_ m.ce.tabSt n {}
  let data := tabulate 1024 fun i => BitVec.ofNat 16 (field b (2 * i) 2)
  { m with ce := { m.ce.setBank n (!s.bank1) data with
    tabSt := upd m.ce.tabSt n fun s => { s with fresh := true, prep := false, partnerOk := false } } }
/-- The partner confirms a table's file; `same` where its CRC-32 is that of this module's inactive bank (R229). -/
def Mod.confirmTab (m : Mod) (n : Nat) (same : Bool) : Mod :=
  { m with ce := { m.ce with tabSt := upd m.ce.tabSt n fun s => { s with partnerOk := s.fresh && same } } }
/-- A written slot is closed (R573, R65); a mark that could not be written is reported (R46; log entry 101): through the station address of a tandem the answer waits for the partner. -/
def Mod.closeSlot (m : Mod) (s : Session) (rq : Req) (f : FileOpen) (n : Fin 8) : Served :=
  let c := (m.forgetFile f.fh).completeSlot n f.pos
  let body := fileBody 4 f.fh (natLe 1 c.2.2.1 ++ natLe 2 c.2.2.2)
  let k := c.1.joinImage
  if c.1.hdrLost then { m := k, ans := some (stCondition, body) }
  else if 1 ≤ c.2.2.1 ∧ c.2.2.1 ≤ 6 then { m := k, ans := some (stImg, body) }
  else if !m.relays s f.name ∨ m.acked (.slot n) c.2.1 then { m := k, ans := some (stOk, body) }
  else
    let w : RelayClose := { rq := rq, slot := n, crc := BitVec.ofNat 32 c.2.1, body := body, due := m.mono + phS 10 }
    { m := { k with eap := { k.eap with relayClose := some w } }, ans := none }
/-- `FILE_CLOSE` (R572, R573). -/
def Mod.closeFile (m : Mod) (s : Session) (rq : Req) (fh : BitVec 8) : Served :=
  match m.eap.files.find? fun f => f.fh == fh && f.sess == s.id with
  | none => { m := m, ans := some (stCondition, []) }
  | some f =>
    let m1 := m.forgetFile fh
    if !f.write then { m := m1, ans := some (stOk, fileBody 4 fh []) }
    else match f.name with
    | .slot n => m.closeSlot s rq f n
    | .ctab n =>
      if f.pos ≠ 2048 then { m := m1, ans := some (stLength, []) }
      else
        let k := m1.completeTab n f.data
        { m := if m.acked (.ctab n) (crc32 f.data) then k.confirmTab n true else k, ans := some (stOk, fileBody 4 fh []) }
    | n =>
      let d := parseFw f.data
      let good := d.good && fwKind n == some d.kind
      { m := match fwKind n with | some k => m1.setFw k { d with kind := k, good := good } | none => m1,
        ans := some (if good then stOk else stImg, fileBody 4 fh (if good then [0, 0, 0] else [3, 0, 0])) }
/-- See `Mod.closeFile`. -/
def execFileClose (rq : Req) (fh : BitVec 8) (s : State) : Host.Outcome State Fault Refusal :=
  s.run fun m => m.serve rq fun k m => m.closeFile k rq fh
/-- `FILE_ABANDON` (R572, R573). -/
def Mod.abandon (m : Mod) (s : Session) (fh : BitVec 8) : Served :=
  match m.eap.files.find? fun f => f.fh == fh && f.sess == s.id with
  | none => { m := m, ans := some (stCondition, []) }
  | some f => { m := m.dropFile f, ans := some (stOk, fileBody 5 fh []) }
/-- See `Mod.abandon`. -/
def execFileAbandon (rq : Req) (fh : BitVec 8) (s : State) : Host.Outcome State Fault Refusal :=
  s.run fun m => m.serve rq fun k m => m.abandon k fh
/-- `FILE_WRITE_TIMEOUT` (R572): 30 s without a block. -/
def execFileWriteTimeout (s : State) : Host.Outcome State Fault Refusal :=
  s.run fun m => m.whenLive fun m => match m.eap.files.find? (·.write) with
    | some f => (m.to (f.lastAt + phS 30)).dropFile f
    | none => m

/-! Relayed files. -/

/-- The answer of a close that waited for the partner; none where its session has ended. -/
def Mod.endClose (m : Mod) (w : RelayClose) (st : Nat) (body : Bytes) : Mod :=
  let m1 : Mod := { m with eap := { m.eap with relayClose := none } }
  if m.eap.sessions.any fun s => s.id == w.rq.sess then m1.respond w.rq st body else m1
/-- The partner confirms a relayed file (R330, R229, R573). -/
def Mod.relayAcked (m : Mod) (f : RelayFile) (crc : BitVec 32) : Mod :=
  let m1 := m.dropAck (some f)
  let m2 : Mod := { m1 with eap := { m1.eap with acks := m1.eap.acks ++ [(f, crc)] } }
  match f with
  | .slot n => match m.eap.relayClose with
    | some w => if w.slot = n ∧ w.crc = crc then m2.endClose w stOk w.body else m2
    | none => m2
  | .ctab n =>
    let s := at_ m.ce.tabSt n {}
    m2.confirmTab n (decide (crc32 (((m.ce.bank n (!s.bank1)).map fun q => natLe 2 q.toNat).flatten) = crc.toNat))
/-- `RELAY_ACK` (R330). -/
def execRelayAck (f : RelayFile) (crc : BitVec 32) (s : State) : Host.Outcome State Fault Refusal :=
  s.run fun m => m.whenLive fun m => m.relayAcked f crc
/-- `RELAY_CLOSE_TIMEOUT` (R573): 10 s without a matching `RELAY_ACK`. -/
def execRelayCloseTimeout (s : State) : Host.Outcome State Fault Refusal :=
  s.run fun m => m.whenLive fun m => match m.eap.relayClose with
    | some w => (m.to w.due).endClose w stPartner w.body
    | none => m
/-- What has come of a relayed file. -/
def Mod.relayed (m : Mod) (f : RelayFile) : Bytes := ((m.eap.relays.find? fun e => e.1 == f).map (·.2)).getD []
/-- The bytes of a relayed file that have come. -/
def Mod.setRelayed (m : Mod) (f : RelayFile) (b : Option Bytes) : Mod :=
  { m with eap := { m.eap with relays := m.eap.relays.filter (fun e => e.1 != f) ++ (b.map fun x => (f, x)).toList } }
/-- A relayed file is whole: it is confirmed with its CRC-32 (R330), which this module notes as the partner's too. -/
def Mod.relayDone (m : Mod) (f : RelayFile) (b : Bytes) : Mod :=
  let m1 := (m.setRelayed f none).dropAck (some f)
  ({ m1 with eap := { m1.eap with acks := m1.eap.acks ++ [(f, BitVec.ofNat 32 (crc32 b))] } } : Mod).control 10 (relayAckMsg f (crc32 b))
/-- A relayed block of an image (R58, R65): refused for the slot `ACTIVE` or `PREVIOUS`; the first marks the slot `WRITING`; the image is
whole at the length that its header gives, and is then checked under R55. -/
def Mod.relaySlot (m : Mod) (n : Fin 8) (all : Bytes) (off : Nat) (b : Bytes) : Mod :=
  let f : RelayFile := .slot n
  if !m.cas.present || m.cas.copy.isNone || decide (n.val = m.cas.hdr.active) || decide (n.val = m.cas.hdr.previous) then m
  else
    let m1 := if off = 0 then m.setSlot n { st := 1 } else m
    if m1.hdrLost || m1.slotHeld n off b.length || decide (6291456 < all.length) then m1
    else
      let m2 := ({ m1 with cas := m1.cas.writeSlot n off b } : Mod).setRelayed f (some all)
      if 16 ≤ all.length ∧ field all 12 4 ≤ all.length then ((m2.completeSlot n all.length).1.relayDone f all).joinImage else m2
/-- `RELAY` (R330): the block that follows on what has come; one at offset 0 begins the file anew. -/
def Mod.relayCame (m : Mod) (f : RelayFile) (off : Nat) (b : Bytes) : Mod :=
  let got := if off = 0 then [] else m.relayed f
  if off ≠ got.length then m
  else
    let all := got ++ b
    match f with
    | .slot n => m.relaySlot n all off b
    | .ctab n => if 2048 ≤ all.length then (m.completeTab n all).relayDone f (all.take 2048) else m.setRelayed f (some all)
/-- See `Mod.relayCame`. -/
def execRelay (f : RelayFile) (offset : Nat) (data : Bytes) (s : State) : Host.Outcome State Fault Refusal :=
  s.run fun m => m.whenLive fun m => if (m.tan.lane0 || m.tan.lane1) && !m.maint then m.relayCame f offset data else m

end Sys2Proof.Machine
end

