-- ==== Sys2Proof/Machine/Net.lean ====
section
/-! DEFINITION. The commands of the Ethernet ports and of the link tests (12_ethernet_and_spoke_link.md R391 to R399, R418 to
R426). -/

namespace Sys2Proof.Machine

/-! Spoke ports. -/

/-- A Spoke port changed. -/
def Mod.updSpoke (m : Mod) (sp : Nat) (f : SpokePort → SpokePort) : Mod :=
  { m with eth := { m.eth with spoke := upd m.eth.spoke sp f } }
/-- A Spoke port. -/
def Mod.spokePort (m : Mod) (sp : Nat) : SpokePort := at_ m.eth.spoke sp {}
/-- A request takes the next `MSEQ` (R409). -/
def SpokePort.asks (p : SpokePort) (hop cmd : Nat) : SpokePort :=
  { p with mseq := p.mseq + 1, asked := ({ mseq := p.mseq + 1, hop := hop, cmd := cmd } :: p.asked).take 16 }

/-! Frames. -/

/-- The head frame of a queue has reached its launch time as head: it is not late, whatever it still waits for (R297). -/
def Eth.launched (p q : Nat) : List PoolFrame → List PoolFrame
  | [] => []
  | f :: t => if f.port = p ∧ f.q = q then { f with launch := none } :: t else f :: Eth.launched p q t
/-- `FRAME_LAUNCH` (R296, R297): the head frame of a launch queue at its launch time; one that finds its gate closed waits. -/
def Mod.launchHead (m : Mod) (p q : Nat) : Mod :=
  match m.eth.head p q with
  | none => m
  | some f => match f.launch with
    | none => m
    | some t =>
      let m1 := m.toNow (m.unitsOfShort t)
      let due := decide (0 ≤ shortDiff t m.short)
      let gated := due && !gateFits m1.cfg.netc.gates f ((at_ m1.eth.ports p {}).speed == 2) m1.tb.now
      let k : Mod := if due then { m1 with eth := { m1.eth with pool := Eth.launched p q m1.eth.pool } } else m1
      let m2 : Mod := if gated then { k with eth := { k.eth with ports := upd k.eth.ports p fun h =>
        { h with cnt := { h.cnt with launchGated := h.cnt.launchGated + 1 } } } } else k
      m2.kick p
/-- See `Mod.launchHead`. -/
def execFrameLaunch (p : Port) (q : Fin 8) (s : State) : Host.Outcome State Fault Refusal :=
  s.run fun m => m.whenLive fun m => m.launchHead p q
/-- `FRAME_TX_COMPLETE` (R397). -/
def execFrameTxComplete (p : Port) (s : State) : Host.Outcome State Fault Refusal :=
  s.run fun m => m.whenLive fun m => ({ m with eth := m.eth.txDone p } : Mod).kick p
/-- `GATE_LIST_ENTRY` (R398): device time runs on to the end of the interval. -/
def Mod.gateNext (m : Mod) (p : Nat) : Mod :=
  match m.cfg.netc.gates.find? fun g => g.port == p with
  | none => m
  | some g => match g.pos m.tb.now with
    | none => m
    | some (_, rest) => (m.toNow (m.tb.now + rest)).kick p
/-- See `Mod.gateNext`. -/
def execGateListEntry (p : Port) (s : State) : Host.Outcome State Fault Refusal :=
  s.run fun m => m.whenLive fun m => m.gateNext p
/-- A port's counters changed. -/
def Mod.updCnt (m : Mod) (p : Nat) (f : PortCnt → PortCnt) : Mod :=
  { m with eth := { m.eth with ports := upd m.eth.ports p fun k => { k with cnt := f k.cnt } } }
/-- The longest frame that a port takes (R391). -/
def Mod.maxFrame (m : Mod) (p : Nat) : Nat := if p < 2 ∧ 1 ≤ m.cfg.netc.prmode then 1528 else 1522
/-- An HSR ring frame goes on from the other port, unless it is addressed to this module alone, or this module has sent it (R395). -/
def Mod.hsrForward (m : Mod) (f : RxFrame) : Mod :=
  let other := 1 - f.port.val
  if m.cfg.netc.prmode = 2 ∧ f.port.val < 2 ∧ (at_ m.eth.ports other {}).link ∧ f.dst ≠ m.otp.mac ∧ f.src ≠ m.otp.mac ∧
      !(m.act && (f.dst == stationMac m.cfg.ident.node || f.src == stationMac m.cfg.ident.node)) then
    m.send (.frame { port := other, q := 0, len := f.len, data := .rx f })
  else m
/-- The far end of a line (R404, R410): the module of a tandem without ACT answers `IDENT` and `DELAY` that reach it with `HOPS` 1, as the hop
beyond the last node, under no vendor and product (log entry 14). `ts` is the instant at which the request came. -/
def Mod.farEnd (m : Mod) (f : RxFrame) (ts : BitVec 96) : Mod :=
  let b := f.payload
  let cmd := field b 17 1
  if m.act ∨ !m.otp.tandem ∨ (spokeNodes m.cfg.netc (f.port.val - 2)).isEmpty ∨ field b 0 1 ≠ 4 ∨ field b 16 1 ≠ 1 ∨ (cmd ≠ 1 ∧ cmd ≠ 2) then m
  else
    let r := spokeFrame 5 (b2n !m.tan.slotB) 0 0 (mgmtBody 0 cmd (BitVec.ofNat 16 (field b 18 2)) (List.replicate (if cmd = 1 then 26 else 4) 0))
    m.place { port := f.port, q := 5, len := Nat.max 60 (14 + r.length), data := .spoke r, hdr := m.headOf f.port none (.spoke r),
              stamp := if cmd = 2 then some ts else none }
/-- A good frame (R19, R393 to R396, R419), with the time of its reception: ring forwarding, duplicate discard, the address, then its receive
queue. Fragments are dropped (R393); P3 and P4 take Spoke frames only (R391, R408). -/
def Mod.takeFrame (m : Mod) (f : RxFrame) : Mod :=
  let m1 := m.updCnt f.port fun c => { c with rxOk := c.rxOk + 1 }
  if f.port.val < 2 ∧ 1 ≤ m.cfg.netc.prmode ∧ m.eth.isDup f m.mono then m1.updCnt f.port fun c => { c with dupDiscard := c.dupDiscard + 1 }
  else
    let m2 := m1.hsrForward f
    let m3 : Mod := if f.port.val < 2 ∧ 1 ≤ m.cfg.netc.prmode then { m2 with eth := m2.eth.noteDup f m.mono } else m2
    if rxAccept f m.otp.mac (stationMac m.cfg.ident.node) m.act ∧ !f.frag ∧ (f.port.val < 2 ∨ f.port.val = 4 ∨ f.etherType = 0x88B5) then
      let m4 := m3.place { port := f.port, q := 8 + rxClass m.cfg.netc f, len := f.len, data := .rx f, stamp := some (m.dtAt f.phase) }
      if f.port.val = 2 ∨ f.port.val = 3 then m4.farEnd f (m.dtAt f.phase) else m4
    else m3
/-- A received frame (R391): none is received without link; one with a bad FCS or too long is dropped and counted. -/
def Mod.frameIn (m : Mod) (f : RxFrame) : Mod :=
  if !(at_ m.eth.ports f.port {}).link then m
  else if !f.fcsOk then m.updCnt f.port fun c => { c with rxFcs := c.rxFcs + 1 }
  else if m.maxFrame f.port < f.len then m.updCnt f.port fun c => { c with rxOversize := c.rxOversize + 1 }
  else m.takeFrame f
/-- `FRAME_RECEIVE` (R396). -/
def execFrameReceive (f : RxFrame) (s : State) : Host.Outcome State Fault Refusal :=
  s.run fun m => m.whenLive fun m => m.frameIn f

/-! Addresses. -/

/-- The address of a port: the module address of the slot on P1 and P2, the service address on P5 (R392). -/
def Mod.portIp (m : Mod) (p : Nat) : BitVec 32 :=
  if p = 4 then m.cfg.netc.svcIp else if m.tan.slotB then m.cfg.netc.modIpB else m.cfg.netc.modIpA
/-- The MAC address under which the module answers for an address on a port; none for one that is not its own (R392, R393). -/
def Mod.ownMac (m : Mod) (p : Nat) (ip : BitVec 32) : Option (BitVec 48) :=
  if p = 2 ∨ p = 3 then none
  else if p < 2 ∧ m.act ∧ ip = m.cfg.netc.stationIp ∧ ip ≠ 0 then some (stationMac m.cfg.ident.node)
  else if ip = m.portIp p ∧ ip ≠ 0 then some (if p = 4 then m.otp.mac + 1 else m.otp.mac)
  else none
/-- `ARP_REQUEST` (R393). -/
def execArpRequest (p : Port) (ip : BitVec 32) (asker : BitVec 48) (s : State) : Host.Outcome State Fault Refusal :=
  s.run fun m => m.whenLive fun m => match m.ownMac p ip with
    | some mac => m.placeOn [p] 2 60 (.arp ip mac asker)
    | none => m
/-- The replies of the last second. -/
def Mod.icmpRecent (m : Mod) : List Nat := m.eth.icmp.filter fun t => decide (m.mono < t + phS 1)
/-- `ICMP_ECHO` (R393): at most 10 replies per second. -/
def Mod.icmpAnswer (m : Mod) (p : Nat) (ip : BitVec 32) (asker : BitVec 48) : Mod :=
  match m.ownMac p ip with
  | some mac =>
    if m.icmpRecent.length < 10 then
      ({ m with eth := { m.eth with icmp := m.icmpRecent ++ [m.mono] } } : Mod).placeOn [p] 2 60 (.icmp ip mac asker)
    else m
  | none => m
/-- See `Mod.icmpAnswer`. -/
def execIcmpEcho (p : Port) (ip : BitVec 32) (asker : BitVec 48) (s : State) : Host.Outcome State Fault Refusal :=
  s.run fun m => m.whenLive fun m => m.icmpAnswer p ip asker
/-- `SUPERVISION_FRAME` (R395): every 2 s from the module MAC, and from the station MAC while ACT is set. -/
def Mod.supervise (m : Mod) : Mod :=
  if m.cfg.netc.prmode = 0 then m
  else
    let m1 := m.to (m.eth.supAt + phS 2)
    let m2 : Mod := { m1 with eth := { m1.eth with supAt := m1.mono } }
    let m3 := m2.placeOn [0, 1] 6 60 (.supervision m2.otp.mac)
    if m3.act then m3.placeOn [0, 1] 6 60 (.supervision (stationMac m3.cfg.ident.node)) else m3
/-- See `Mod.supervise`. -/
def execSupervisionFrame (s : State) : Host.Outcome State Fault Refusal := s.run fun m => m.whenLive Mod.supervise
/-- A port is enabled: P5 always, another by its port record (R392, R401), P3 and P4 only where a node entry names them (R404). -/
def Mod.portOn (m : Mod) (p : Nat) : Bool :=
  p == 4 || ((at_ m.cfg.netc.ports p {}).pen && (decide (p < 2) || !(spokeNodes m.cfg.netc (p - 2)).isEmpty))
/-- The speed of a link, 1 for 100 and 2 for 1000 Mbit/s (R391, R401): that of the port's medium, or of its record; `op` where the record
leaves it to the negotiation. -/
def Mod.linkSpeed (m : Mod) (p op : Nat) : Nat :=
  let r := (at_ m.cfg.netc.ports p {}).speed
  if p = 4 then 1 else if r = 1 ∨ r = 2 then r else if op = 2 then 2 else 1
/-- A link goes up or down (R424): a loss ends the frame on the wire. -/
def Mod.linkChange (m : Mod) (p : Nat) (up : Bool) (speed : Nat) : Mod :=
  let was := (at_ m.eth.ports p {}).link
  let m1 : Mod := { m with eth := { m.eth with ports := upd m.eth.ports p fun k =>
    if up then { k with link := true, speed := m.linkSpeed p speed }
    else { k with link := false, tx := none, downs := if was then Nat.min 255 (k.downs + 1) else k.downs } } }
  (if up then m1.kick p else m1).ltJudge
/-- `PORT_LINK_CHANGE` (R424): of an enabled port that is not out of service for a link test. -/
def execPortLinkChange (p : Port) (up : Bool) (speed : BitVec 2) (s : State) : Host.Outcome State Fault Refusal :=
  s.run fun m => m.whenLive fun m => if m.portOn p && !m.testing (p + 1) && !(m.clk.override && up && m.linkSpeed p speed.toNat == 2) then m.linkChange p up speed.toNat else m

/-! Link tests. -/

/-- The first `TEST` frame of a test of an Ethernet link (R408, R421); its octets, and those of the frames that follow back to back, go with the
pattern (DESIGN CHOICE, log entry 138). -/
def Mod.ltFrame (m : Mod) (id pattern : Nat) (word : BitVec 32) : Mod :=
  if 5 < id then m
  else
    let b := spokeFrame 6 (b2n m.tan.slotB) 0 0 ((Config.testPattern pattern word).take 1484)
    m.send (.frame { port := id - 1, q := 7, len := 14 + b.length, data := .spoke b, hdr := m.headOf (id - 1) none (.spoke b) })
/-- The record of a test that starts (R426). -/
def Mod.ltBegin (m : Mod) (id mode pattern : Nat) (word : BitVec 32) (dur : Nat) : Mod :=
  (({ m with eth := { m.eth with lt := { link := id, st := 1, mode := mode, pattern := pattern, word := word, dur := dur, startAt := m.mono } } } :
    Mod).ltTake id).ltFrame id pattern word
/-- The `LOOP` request of a node loopback leaves at once (R420). -/
def Mod.ltLoop (m : Mod) (id mode dur : Nat) : Mod :=
  if mode = 1 ∧ (id = 3 ∨ id = 4) then
    let m1 := m.updSpoke (id - 3) fun p => p.asks 1 4
    let b := spokeFrame 4 (b2n m.tan.slotB) 0 0 (mgmtBody 1 4 (m1.spokePort (id - 3)).mseq (natLe 4 (dur * 1000)))
    m1.send (.frame { port := id - 1, q := 5, len := Nat.max 60 (14 + b.length), data := .spoke b, hdr := m.headOf (id - 1) none (.spoke b) })
  else m
/-- `LINK_TEST` start (R420 to R422). -/
def Mod.ltStart (m : Mod) (id mode pattern : Nat) (word : BitVec 32) (dur : Nat) : CmdAns :=
  if id = 0 ∨ 12 < id ∨ !ltMode id mode ∨ pattern = 0 ∨ 6 < pattern ∨ dur = 0 then { m := m, status := stRange }
  else if m.eth.lt.st = 1 then { m := m, status := stBusy }
  else if !m.ltCond id then
    { m := { m with eth := { m.eth with lt := { link := id, st := 4, mode := mode, pattern := pattern, cause := 4 } } }, status := stInUse }
  else { m := (m.ltLoop id mode dur).ltBegin id mode pattern word dur, status := stAccepted, stays := false }
/-- `LINK_TEST_START` (R577). -/
def execLinkTestStart (rq : Req) (link mode pattern : BitVec 8) (word : BitVec 32) (dur : BitVec 16) (s : State) :
    Host.Outcome State Fault Refusal :=
  s.run fun m => m.command rq 8 4 false false fun _ m => m.ltStart link.toNat mode.toNat pattern.toNat word dur.toNat
/-- `LINK_TEST_STOP` (R422, R577): the running test ends with cause 1. -/
def execLinkTestStop (rq : Req) (s : State) : Host.Outcome State Fault Refusal :=
  s.run fun m => m.command rq 8 4 false false fun _ m =>
    { m := if m.eth.lt.st = 1 then (m.ltCounts none none).ltEnd 3 1 else m, status := stAccepted, stays := false }
/-- `LINK_TEST_END` (R422): the duration has run out. -/
def execLinkTestEnd (bits errors : BitVec 64) (s : State) : Host.Outcome State Fault Refusal :=
  s.run fun m => m.whenLive fun m =>
    m.onDue (if m.eth.lt.st = 1 then some (m.eth.lt.startAt + phS m.eth.lt.dur) else none) fun m =>
      (m.ltCounts (some bits) (some errors)).ltEnd 2 0
/-- `LINK_TEST_NO_LOCK` (R422): no lock for 1 s. -/
def execLinkTestNoLock (s : State) : Host.Outcome State Fault Refusal :=
  s.run fun m => m.whenLive fun m =>
    m.onDue (if m.eth.lt.st = 1 then some (m.eth.lt.startAt + phS 1) else none) fun m => (m.ltCounts none none).ltEnd 3 3

/-! Read-and-clear objects. -/

/-- `SHARED_LOW` is read and cleared (R423). -/
def Mod.readSharedLow (m : Mod) : Mod × Nat × Bytes :=
  ({ m with eth := { m.eth with sharedLow := m.eth.sharedFree m.mins } }, stOk, natLe 2 m.eth.sharedLow)
/-- `SHARED_LOW`. -/
def execSharedLow (rq : Req) (s : State) : Host.Outcome State Fault Refusal :=
  s.run fun m => m.readClear rq Mod.readSharedLow
/-- `NODE_MISS` of a node is read and cleared (R423). -/
def Mod.readNodeMiss (m : Mod) (node : Nat) : Mod × Nat × Bytes :=
  ({ m with eth := m.eth.updNode node fun n => { n with miss := 0 } }, stOk, natLe 4 (m.eth.node node).miss.toNat)
/-- `NODE_MISS` (R423) of node `node` + 1. -/
def execNodeMiss (rq : Req) (node : Fin 256) (s : State) : Host.Outcome State Fault Refusal :=
  s.run fun m => m.readClear rq fun m => m.readNodeMiss (node + 1)

end Sys2Proof.Machine
end

