-- ==== Sys2Proof/Machine/Recorder.lean ====
section
/-! DEFINITION. The commands of the event recorder, of the performance counters and of the faceplate display
(17_recorder_and_counters.md, 18_faceplate_display.md). -/

namespace Sys2Proof.Machine

/-! Recorder. -/

/-- The record that handling the front of the queue has written or repeated (R532, R533). -/
def Er.touched (before after : Er) (repwin : Nat) : Option ErRec :=
  match before.queue with
  | [] => none
  | q :: _ =>
    if (before.repeatOf q repwin).isSome || after.wseq != before.wseq then
      (after.latestOf q.ev.type q.ev.source).bind fun n => slotRec after.held n
    else none
/-- The recorder handles the event at the front of its queue (R531 to R533, R535, R538). -/
def Mod.handleEvent (m : Mod) : Mod :=
  match m.er.queue with
  | [] => m
  | q :: _ =>
    let w := m.cfg.ident.repwin
    let e := m.er.handle w
    let m1 := { m with er := e }
    match m.er.touched e w with
    | none => m1
    | some r =>
      (m1.count (if (m.er.repeatOf q w).isSome then 0x71 else 0x70) 0 1).feed
        (fun s => match s with | .events min => decide (min ≤ r.sev.toNat) | _ => false) [r.bytes]
/-- `ER_RECORD_WRITE` (R532): once the scan is done and while the supply permits writes (R531, R534). -/
def execErRecordWrite (s : State) : Host.Outcome State Fault Refusal :=
  s.run fun m => m.whenLive fun m => if m.er.scanDone && m.sup.mayWrite then m.handleEvent else m
/-- The elapsed instant at which operating time has advanced by 1 s since it was last stored (R526). -/
def Er.storeDue (e : Er) : Option Nat :=
  if e.opRun then some (e.opMono + ((e.opStored + 1000 - e.opMs) * phasesPerMs - e.opSub)) else none
/-- `OPTIME_STORE` (R526): where MRAM may be written (R510). -/
def execOptimeStore (s : State) : Host.Outcome State Fault Refusal :=
  s.run fun m => m.onDue (if m.sup.mayWrite then m.er.storeDue else none) fun m => { m with er := { m.er with opStored := m.optime } }
/-- A serial number of a certificate as R560 lays it out. -/
def serialBytes (n : Nat) : Bytes := (natLe 20 n).reverse
/-- `ER_CLEAR` (R535): only in `MAINTENANCE`. -/
def execErClear (rq : Req) (s : State) : Host.Outcome State Fault Refusal :=
  s.run fun m => m.command rq 12 4 true true fun c m =>
    if !m.maint then { m := m, status := stCondition }
    else if !m.sup.mayWrite then { m := m, status := stSupplyLow }
    else { m := ({ m with er := { m.er with held := [], latest := [] } } : Mod).log 10 6 0xF0 0 (serialBytes c.serial) }

/-! Performance counters. -/

/-- A write of `PMC_SEL` (R538, R539, R543). -/
def Mod.writePmcSel (m : Mod) (n : Nat) (v : BitVec 16) : Mod × Nat :=
  if n = 0 ∧ v.getLsbD 12 then (m, stAccess)
  else ({ m with pmc := { m.pmc with sel := put m.pmc.sel n (v &&& 0x1FFF), val := put m.pmc.val n 0 } }, stOk)
/-- `PMC_SEL`: role `ENGINEER`. -/
def execPmcSel (rq : Req) (n : Fin 64) (v : BitVec 16) (s : State) : Host.Outcome State Fault Refusal :=
  s.run fun m => m.writeOne rq 3 false fun _ m => m.writePmcSel n v
/-- A write of `PMC_CLEAR` (R538). -/
def Mod.writePmcClear (m : Mod) (mask : BitVec 64) : Mod × Nat :=
  ({ m with pmc := { m.pmc with val := mapFrom (fun i v => if mask.getLsbD i then 0 else v) 0 m.pmc.val } }, stOk)
/-- `PMC_CLEAR`: role `ENGINEER`. -/
def execPmcClear (rq : Req) (mask : BitVec 64) (s : State) : Host.Outcome State Fault Refusal :=
  s.run fun m => m.writeOne rq 3 false fun _ m => m.writePmcClear mask

/-! Task figures that a read clears. -/

/-- `EXEC_MAX` of a task is read (R162). -/
def Mod.readExecMax (m : Mod) (t : Nat) : Mod × Nat × Bytes :=
  if (m.taskCfg t).kind = 0 then (m, stOk, natLe 4 0)
  else (m.updTask t fun k => { k with execMax := 0 }, stOk, natLe 4 (m.task t).execMax)
/-- `EXEC_MAX`. -/
def execExecMax (rq : Req) (t : Fin 16) (s : State) : Host.Outcome State Fault Refusal :=
  s.run fun m => m.readClear rq fun m => m.readExecMax t
/-- `MARGIN_MIN` of a task is read (R162); 0 before a cycle has finished since the last read. -/
def Mod.readMarginMin (m : Mod) (t : Nat) : Mod × Nat × Bytes :=
  if (m.taskCfg t).kind = 0 then (m, stOk, natLe 4 0)
  else (m.updTask t fun k => { k with margin := none }, stOk, natLe 4 (Nat.min 0xFFFFFFFF ((m.task t).margin.getD 0)))
/-- `MARGIN_MIN`. -/
def execMarginMin (rq : Req) (t : Fin 16) (s : State) : Host.Outcome State Fault Refusal :=
  s.run fun m => m.readClear rq fun m => m.readMarginMin t

/-! Display. -/

/-- Points in `UNACK` or `RTN_UNACK`, in `ACKED`, and hidden points by state (R270). -/
def Mod.pointsIn (m : Mod) (st : List Nat) : Nat := (m.ae.pts.filter fun p => st.contains p.state).length
/-- What the display draws from (R544, R546). -/
def Mod.dispIn (m : Mod) : DispIn :=
  let run := m.cas.running
  { station := if run then some m.cfg.ident.node else none
    slotB := m.tan.slotB
    role := m.tan.role.code
    maint := if m.maint then some m.boot.maintReason else none
    trial := run && m.cas.hdr.commit == 1
    version := if run then some m.cfg.version else none
    locked := m.ptp.quality == .locked
    holdover := m.ptp.quality == .holdover
    alarm := decide (0 < m.pointsIn [1, 3])
    si := m.si.rep.faultCS
    unfit := m.tan.standbyUnfit m.mono || (decide (m.tan.role = .standby) && !m.fit)
    health := decide (m.tan.hl.score < m.tan.trec.unfitScore)
    icons := m.disp.icons }
/-- How an LED shows (R592). -/
inductive Led where
  | off
  | green
  | yellow
  | red
  | greenFlashing
  | redFlashing
  deriving DecidableEq, Repr
/-- The five LEDs. -/
structure Leds where
  pwr : Led
  run : Led
  act : Led
  flt : Led
  si : Led
  deriving DecidableEq, Repr
/-- The SI LED as the island drives it (R592; log entry 106 for states that hold together). -/
def Si.led (s : Si) : Led :=
  if !s.powered then .off
  else if s.stateCode = 3 ∨ s.stateCode = 4 then .red
  else if s.swMismatch then .redFlashing
  else if s.stateCode = 2 then .green
  else if s.restartWait then .greenFlashing
  else .off
/-- The LEDs (R592): lit only while the module has supply. -/
def Mod.leds (m : Mod) : Leds :=
  if !m.sup.vin1Ok && !m.sup.vin2Ok then ⟨.off, .off, .off, .off, .off⟩
  else
    { pwr := if m.sup.vin1Ok != m.sup.vin2Ok then .greenFlashing else .green
      run := match m.tan.role with
        | .solo | .active | .standby => .green
        | .catchingUp => .greenFlashing
        | _ => .off
      act := if m.act then .yellow else .off
      flt := if m.tan.role = .failed then .red else if m.maint ∨ m.tan.role = .detached then .redFlashing else .off
      si := m.si.led }
/-- The content that a frame draws now: the start frame until step 11 or `MAINTENANCE` (R546). -/
def Mod.dispContent (m : Mod) : Nat := if m.disp.full then m.dispIn.content else startFrame
/-- `DISPLAY_FRAME_START` (R546, R548, R550, R551). -/
def execDisplayFrameStart (hiMv midMv : Nat) (s : State) : Host.Outcome State Fault Refusal :=
  s.run fun m => m.whenLive fun m => { m with disp := m.disp.start m.dispContent hiMv midMv (!m.sup.belowWrite) m.mono }
/-- `DISPLAY_WAVEFORM_END` (R549 to R552). -/
def execDisplayWaveformEnd (hiMv midMv : Nat) (s : State) : Host.Outcome State Fault Refusal :=
  s.run fun m => m.whenLive fun m =>
    m.onDue (if m.disp.step = 0 then none else some m.disp.endAt) fun m =>
      { m with disp := m.disp.waveformEnd hiMv midMv (!m.sup.belowWrite) m.mono }
/-- A user icon as its entry gives it (R547). -/
def Mod.iconLit (m : Mod) (e : IconCfg) : Bool :=
  let c := at_ m.net.pub e.sig {}
  if qIsBad c.q then e.badOn else vBool c.v != e.invert
/-- The user icons (R547); one without an entry stays clear. -/
def Mod.iconsNow (m : Mod) : List Bool :=
  (List.range 38).map fun i => match m.cfg.icons.find? fun e => e.icon == i with
    | some e => m.iconLit e
    | none => false
/-- The icons are sampled (R547): a change is taken over no more than once every 2 s. -/
def Mod.sampleIcons (m : Mod) : Mod :=
  let now := m.iconsNow
  let free := match m.disp.iconAt with | some a => decide (a + phS 2 ≤ m.mono) | none => true
  let d := { m.disp with sampledAt := m.mono }
  { m with disp := if now != d.icons && free then { d with icons := now, iconAt := some m.mono } else d }
/-- `DISPLAY_ICON_SAMPLE` (R547): 1 s after the last. -/
def execDisplayIconSample (s : State) : Host.Outcome State Fault Refusal :=
  s.run fun m => if m.live && m.cas.running then (m.to (m.disp.sampledAt + phS 1)).sampleIcons else m
/-- `DISPLAY_TEMP_READ` (R550). -/
def execDisplayTempRead (tempC : Int) (s : State) : Host.Outcome State Fault Refusal :=
  s.run fun m => m.whenLive fun m => { m with disp := { m.disp with tempC := tempC, band := bandNext m.disp.band tempC } }
/-- `DISPLAY_FRAME_SCAN` (R553). -/
def execDisplayFrameScan (s : State) : Host.Outcome State Fault Refusal :=
  s.run fun m => m.whenLive fun m => { m.draw.2 with disp := m.disp.scan (Config.frameFlips m.free) }

end Sys2Proof.Machine
end

