-- ==== Sys2Proof/Machine/Spoke.lean ====
section
/-! DEFINITION. The commands of the Spoke link (12_ethernet_and_spoke_link.md R404 to R417). -/

namespace Sys2Proof.Machine

/-! A port and its cycle. -/

/-- A Spoke node changed. -/
def Mod.updNode (m : Mod) (n : Nat) (f : SpokeNode → SpokeNode) : Mod := { m with eth := m.eth.updNode n f }
/-- The nodes of a port in hop order from the module's own end (R410). -/
def Mod.spokeLine (m : Mod) (sp : Nat) : List NodeCfg :=
  let ns := spokeNodes m.cfg.netc sp
  if m.tan.slotB then ns.reverse else ns
/-- The module is the master of a used port (R404): the task that the port is locked to. -/
def Mod.spokeMaster (m : Mod) (sp : Nat) : Option Nat :=
  if m.executing && m.portOn (sp + 2) then m.cfg.tasks.lockOf (sp + 3) else none
/-- Lead times of a port (R406). -/
def Mod.leads (m : Mod) (sp : Nat) : Leads := spokeLeads m.cfg.netc sp m.otp.tandem m.tan.slotB
/-- The release number of the `CYCLIC` task `t` at release tick `n` (R407, R408). -/
def Mod.relAt (m : Mod) (t n : Nat) : BitVec 32 :=
  let c := m.taskCfg t
  let n0 := nextRelease c m.tb.nextTick
  (m.task t).releases + 1 + BitVec.ofInt 32 (((n : Int) - n0) / (c.period : Int))
/-- The first release tick of `c` whose instant, moved by `off` units, is not before `lo`, other than `last`. -/
def nextLaunch (c : TaskCfg) (lo : Nat) (off : Int) (last : Nat) : Nat :=
  let n := nextRelease c (ceilDiv ((lo : Int) - off).toNat tickUnits)
  if n = last then n + c.period else n
/-- The instant from which launches count: after an ACT latch the one it gave, unless that is long past (R415, R416). -/
def Mod.launchFrom (m : Mod) (f : Option Nat) : Nat :=
  match f with
  | some u => if u + unitsMs 1 < m.tb.now then m.tb.now else u
  | none => m.tb.now
/-- A frame of the master on a port; in split operation its copy goes to the partner's port as well (R413). -/
def Mod.spokeSend (m : Mod) (sp q : Nat) (bytes : Bytes) : Mod :=
  let m1 := m.placeOn [sp + 2] q (Nat.max 60 (14 + bytes.length)) (.spoke bytes)
  if (m.spokePort sp).split ∧ 6 ≤ q then m1.send (.spokeRelay sp bytes) else m1
/-- `SFL` of a frame from the master: the side, split operation, time only (R408). -/
def Mod.spokeFlags (m : Mod) (sp : Nat) (timeOnly : Bool) : Nat :=
  b2n m.tan.slotB + 2 * b2n (m.spokePort sp).split + 4 * b2n timeOnly

/-! `SYNC`. -/

/-- The nodes whose `CONFIG` is accepted are in cycle from this `SYNC` on (R410 step 5). -/
def Mod.enterCycle (m : Mod) (sp : Nat) : Mod :=
  (m.spokeLine sp).foldl (fun (k : Mod) n => k.updNode n.node fun s =>
    if s.inSync then { s with st := 3, inSync := false, missRun := 0, inCycle := none, recheckAt := some (k.mono + phS 10) } else s) m
/-- The `SYNC` of the cycle of release tick `n` leaves (R407, R409). -/
def Mod.syncOut (m : Mod) (sp t n : Nat) : Mod :=
  let c := m.taskCfg t
  let l := m.leads sp
  let m1 := m.enterCycle sp
  let cyc := m1.relAt t n
  let sample := shortOf (dtimeOf (n * tickUnits - l.lin * 1000 * unitsPerNs))
  let b := spokeFrame 1 (m1.spokeFlags sp false) cyc 0
    (syncBody sample (c.period * 125000) (m1.eth.inCycle m1.cfg.netc sp) m1.cfg.ident.node)
  ((m1.spokeSend sp 7 b).updSpoke sp fun p => { p with
    cycle := cyc, syncTick := n, syncFrom := none, cycles := p.cycles + 1,
    timeOnlyAt := if 8 < c.period then some (m1.mono + phMs 1) else none }).ltJudge
/-- `SPOKE_SYNC_LAUNCH` (R407): device time runs on to S − h_star − 20 µs of the next cycle; not past a T_h at which this module
gives up ACT (R416). -/
def Mod.syncLaunch (m : Mod) (sp : Nat) : Mod :=
  match m.spokeMaster sp with
  | none => m
  | some t =>
    let l := m.leads sp
    let lead := (l.lin * 1000 + l.hstar + 20000) * unitsPerNs
    let n := nextLaunch (m.taskCfg t) (m.launchFrom (m.spokePort sp).syncFrom) (-(lead : Int)) (m.spokePort sp).syncTick
    let u := n * tickUnits - lead
    if m.hoReleaseDue u then m else (m.toNow u).syncOut sp t n
/-- See `Mod.syncLaunch`. -/
def execSpokeSyncLaunch (sp : Fin 2) (s : State) : Host.Outcome State Fault Refusal :=
  s.run fun m => m.whenLive fun m => m.syncLaunch sp
/-- A `SYNC` with `TIME_ONLY` (R407): every 1 ms. -/
def Mod.timeOnlySync (m : Mod) (sp : Nat) : Mod :=
  match m.spokeMaster sp with
  | none => m
  | some t => m.onDue (m.spokePort sp).timeOnlyAt fun m =>
    let b := spokeFrame 1 (m.spokeFlags sp true) (m.spokePort sp).cycle 0
      (syncBody 0 ((m.taskCfg t).period * 125000) (m.eth.inCycle m.cfg.netc sp) m.cfg.ident.node)
    (m.spokeSend sp 7 b).updSpoke sp fun p => { p with timeOnlyAt := some (m.mono + phMs 1) }
/-- `SPOKE_TIME_ONLY_SYNC` (R407). -/
def execSpokeTimeOnlySync (sp : Fin 2) (s : State) : Host.Outcome State Fault Refusal :=
  s.run fun m => m.whenLive fun m => m.timeOnlySync sp

/-! `MGMT` requests. -/

/-- A `MGMT` request leaves (R409). -/
def Mod.mgmtSend (m : Mod) (sp hop cmd : Nat) (body : Bytes) : Mod :=
  let m1 := m.updSpoke sp fun p => p.asks hop cmd
  m1.spokeSend sp 5 (spokeFrame 4 (b2n m1.tan.slotB) 0 0 (mgmtBody hop cmd (m1.spokePort sp).mseq body))
/-- A `MGMT` request waits for its place after the `OUT` frames (R407). -/
def Mod.mgmtQueue (m : Mod) (sp hop cmd : Nat) (body : Bytes) : Mod :=
  m.updSpoke sp fun p => { p with reqs := p.reqs ++ [{ hop := hop, cmd := cmd, body := body }] }
/-- The ports of a node that `CONFIG` keeps blocked (R409, R414): in split operation those toward a neighbour that the other end serves, or
that is not in cycle (DEDUCED, log entry 137). Bit 0 toward slot A, bit 1 toward slot B. -/
def Mod.blockBits (m : Mod) (sp : Nat) (n : NodeCfg) : Nat :=
  let side (k : NodeCfg) : Bool := if (m.eth.node k.node).st = 3 then (m.eth.node k.node).sideB else m.tan.slotB
  let apart (k : NodeCfg) : Bool := (m.eth.node k.node).st != 3 || side k != side n
  let ns := spokeNodes m.cfg.netc sp
  let low := (ns.filter fun k => decide (k.pos < n.pos)).getLast?
  let high := (ns.filter fun k => decide (n.pos < k.pos)).head?
  if (m.spokePort sp).split then b2n (low.any apart) + 2 * b2n (high.any apart) else 0
/-- The body of a `CONFIG` request (R409). -/
def Mod.configBody (m : Mod) (sp : Nat) (n : NodeCfg) : Bytes :=
  let s := m.eth.node n.node
  let a := if m.tan.slotB then s.far else s.near
  let b := if m.tan.slotB then s.near else s.far
  let p := match m.cfg.tasks.lockOf (sp + 3) with | some t => (m.taskCfg t).period * 125000 | none => 0
  natLe 2 n.node ++ natLe 1 n.ilen ++ natLe 1 n.olen ++ natLe 1 n.wdog ++ natLe 1 (m.blockBits sp n) ++ [0, 0] ++ natLe 4 (unsigned 32 a) ++ natLe 4 (unsigned 32 b)
    ++ natLe 4 p
/-- The entry of a node. -/
def Mod.nodeCfg (m : Mod) (node : Nat) : Option NodeCfg := m.cfg.netc.nodes.find? fun n => n.node == node
/-- The search starts again at hop 1 (R410, R411; DESIGN CHOICE, log entry 14). -/
def Mod.searchAgain (m : Mod) (sp : Nat) : Mod :=
  (m.updSpoke sp fun p => { p with hop := 1, passed := 0, adm := .ident 1 }).mgmtSend sp 1 1 []
/-- The request of the admission's present step (R410): two `IDENT` requests without a reply end the search. -/
def Mod.admRequest (m : Mod) (sp : Nat) : Mod :=
  let p := m.spokePort sp
  let hopOf (node : Nat) : Nat := if node = 0 then p.hop else (m.eth.node node).hop
  match p.adm with
  | .ident tries =>
    if tries < 2 then (m.updSpoke sp fun p => { p with adm := .ident (tries + 1) }).mgmtSend sp p.hop 1 []
    else m.updSpoke sp fun p => { p with adm := .done }
  | .delay node _ _ => m.mgmtSend sp (hopOf node) 2 []
  | .config node => match m.nodeCfg node with
    | some n => m.mgmtSend sp (hopOf node) 3 (m.configBody sp n)
    | none => m
  | .done =>
    if (m.spokeLine sp).any fun n => (m.eth.node n.node).st == 1 || (m.eth.node n.node).st == 4 then m.searchAgain sp else m
/-- At most one `MGMT` request follows the last `OUT` frame (R407, R410): a waiting one, else that of the admission. -/
def Mod.mgmtStep (m : Mod) (sp : Nat) : Mod :=
  match (m.spokePort sp).reqs with
  | r :: rest => (m.updSpoke sp fun p => { p with reqs := rest }).mgmtSend sp r.hop r.cmd r.body
  | [] => m.admRequest sp

/-! `OUT`. -/

/-- The output bytes of a node: what has been applied, with the entries of an image over it (R135, R138). -/
def Mod.nodeOut (m : Mod) (n : NodeCfg) (img : List OutItem) : Bytes :=
  let patch (b : Bytes) (offs : Nat) (d : Bytes) : Bytes := b.take offs ++ d ++ b.drop (offs + d.length)
  let base := m.rioOut.foldl (fun b e => if e.1 = n.node then patch b e.2.1 e.2.2 else b) (List.replicate n.olen (0 : BitVec 8))
  img.foldl (fun b i => match i with | .rio node offs d => if node = n.node then patch b offs d else b | _ => b) base
/-- The `OUT` frames for the apply instant of release tick `n` (R406, R409, R417): the image finished by now, else the held values;
every segment `SAFE` while the task is halted. -/
def Mod.outFrames (m : Mod) (sp t n : Nat) : List Bytes :=
  let a := n * tickUnits + (m.taskCfg t).oofs * 1000 * unitsPerNs
  let img := match (m.task t).pend.find? fun p => p.at_ == a with
    | some p => if p.inTime ∧ !(m.task t).halted then p.img.getD [] else []
    | none => []
  let segs := (m.spokeLine sp).reverse.map fun k => outSeg k (m.task t).halted (m.nodeOut k img)
  (packBodies segs []).map fun b => spokeFrame 2 (m.spokeFlags sp false) (m.relAt t n) (shortOf (dtimeOf a)) b
/-- `SPOKE_OUT_LAUNCH` (R407): device time runs on to A − l_out of the next apply instant; not past a T_h at which this module gives
up ACT (R416). -/
def Mod.outLaunch (m : Mod) (sp : Nat) : Mod :=
  match m.spokeMaster sp with
  | none => m
  | some t =>
    let c := m.taskCfg t
    let off : Int := ((c.oofs * 1000 * unitsPerNs : Nat) : Int) - ((m.leads sp).lout * 1000 * unitsPerNs : Nat)
    let n := nextLaunch c (m.launchFrom (m.spokePort sp).outFrom) off (m.spokePort sp).outTick
    let u := (((n * tickUnits : Nat) : Int) + off).toNat
    if m.hoReleaseDue u then m
    else
      let m1 := m.toNow u
      let m2 := (m1.outFrames sp t n).foldl (fun k b => k.spokeSend sp 6 b) m1
      (m2.updSpoke sp fun p => { p with outTick := n, outFrom := none }).mgmtStep sp
/-- See `Mod.outLaunch`. -/
def execSpokeOutLaunch (sp : Fin 2) (s : State) : Host.Outcome State Fault Refusal :=
  s.run fun m => m.whenLive fun m => m.outLaunch sp

/-! `IN`. -/

/-- Every node of the port reports both links up (R414): one that is not in cycle reports nothing. -/
def Mod.bothUp (m : Mod) (sp : Nat) : Bool :=
  (m.spokeLine sp).all fun n => (m.eth.node n.node).st == 3 && (m.eth.node n.node).nstat.toNat % 4 == 3
/-- A frame at the master (R409, R411, R413): one of a node in cycle counts for its cycle. -/
def Mod.masterIn (m : Mod) (sp : Nat) (sideB : Bool) (cycle : BitVec 32) (n : NodeCfg) (nstat : BitVec 8) (inp : Bytes) : Mod :=
  let m1 := m.updNode n.node fun s => if s.st = 3 then
      { s with sideB := sideB, nstat := nstat, inCycle := some cycle, inputs := (inp ++ List.replicate n.ilen 0).take n.ilen } else s
  let m2 := if (m.eth.node n.node).st = 3 ∧ nstat.toNat % 4 ≠ 3 then m1.lineBreak sp else m1
  m2.updSpoke sp fun p => { p with bothUpFrom := if m2.bothUp sp then p.bothUpFrom.or (some m2.mono) else none }
/-- A node's frame (R411); the module without ACT relays what reaches its port to the master (R413, R416). -/
def Mod.nodeIn (m : Mod) (sp : Nat) (sideB : Bool) (cycle : InCycle) (node : Nat) (nstat : BitVec 8) (inp : Bytes) : Mod :=
  match m.nodeCfg node with
  | none => m
  | some n =>
    if n.port ≠ sp + 3 then m
    else if m.act then m.masterIn sp sideB cycle.cycle n nstat inp
    else if m.otp.tandem ∧ sideB = m.tan.slotB then
      (m.updSpoke sp fun p => { p with relayAt := some m.mono }).send
        (.spokeRelay sp (spokeFrame 3 (b2n sideB) cycle.cycle cycle.stime (natLe 2 node ++ [nstat, 0] ++ inp)))
    else m
/-- `SPOKE_IN_FRAME` (R411). -/
def execSpokeInFrame (sp : Fin 2) (sideB : Bool) (cycle : InCycle) (node : Nat) (nstat : BitVec 8) (inp : Bytes) (s : State) :
    Host.Outcome State Fault Refusal :=
  s.run fun m => m.whenLive fun m => m.nodeIn sp sideB cycle node nstat inp
/-- `SPOKE_NODE_LOST` (R411): `WDOG` consecutive misses. -/
def Mod.nodeLost (m : Mod) (node : Nat) : Mod :=
  match m.nodeCfg node with
  | some n =>
    if (m.eth.node node).st = 3 ∧ n.wdog ≤ (m.eth.node node).missRun then
      (m.updNode node fun s => { s with st := 4, missRun := 0, recheckAt := none, rdN := 0 }).log 7 4 0x50 node []
    else m
  | none => m
/-- See `Mod.nodeLost`. -/
def execSpokeNodeLost (node : Nat) (s : State) : Host.Outcome State Fault Refusal :=
  s.run fun m => m.whenLive fun m => m.nodeLost node

/-! Admission. -/

/-- The next hop is asked (R410 step 1). -/
def SpokePort.nextHop (p : SpokePort) : SpokePort := { p with hop := p.hop + 1, adm := .ident 0 }
/-- The partner's port has answered as the far end (R404, R410): H_AB is measured where it is not known. -/
def SpokePort.farEnd (p : SpokePort) : SpokePort :=
  { p with closed := true, adm := if p.hab.isSome then .done else .delay 0 0 0 }
/-- A node admitted by its identity (R412): a changed serial is recorded. -/
def Mod.noteSerial (m : Mod) (node : Nat) (serial : BitVec 64) : Mod :=
  let s := m.eth.node node
  let new := s.serialSeen && s.serial != serial
  let m1 := m.updNode node fun s => { s with serial := serial, serialSeen := true, replaced := s.replaced || new }
  if new then m1.log 7 3 0x51 node [] else m1
/-- An identity matched with entry `n` (R410 step 2). -/
def Mod.identMatched (m : Mod) (sp : Nat) (n : NodeCfg) (rev fwd : Nat) (serial : BitVec 64) (maxIn maxOut tprep tapp : Nat) : Mod :=
  let hop := (m.spokePort sp).hop
  let s := m.eth.node n.node
  match identRefusal n rev maxIn maxOut tprep tapp with
  | 0 =>
    if s.st = 3 ∧ s.serial = serial then m.updSpoke sp SpokePort.nextHop
    else ((m.noteSerial n.node serial).updNode n.node fun s => { s with st := 2, refuse := 0, hop := hop, fwd := fwd }).updSpoke sp fun p =>
      { p with adm := .delay n.node 0 0 }
  | r => (m.updNode n.node fun s => { s with st := 5, refuse := r, hop := hop }).updSpoke sp SpokePort.nextHop
/-- A reply to `IDENT` (R410 steps 1 and 2). In a tandem the hop beyond the last entry, or one that names no vendor and product, is
the partner's port (PRESUMED, log entry 14). -/
def Mod.identReply (m : Mod) (sp : Nat) (vendor product : BitVec 32) (rev fwd : Nat) (serial : BitVec 64) (maxIn maxOut tprep tapp : Nat) :
    Mod :=
  let rest := (m.spokeLine sp).drop (m.spokePort sp).passed
  if m.otp.tandem ∧ (rest = [] ∨ vendor = 0 ∧ product = 0) then m.updSpoke sp SpokePort.farEnd
  else match indexOf? (fun n : NodeCfg => n.vendor == vendor.toNat && n.product == product.toNat) rest with
    | some i => match rest[i]? with
      | some n => (m.updSpoke sp fun p => { p with passed := p.passed + i + 1 }).identMatched sp n rev fwd serial maxIn maxOut tprep tapp
      | none => m
    | none =>
      let m1 := match rest with
        | n :: _ => m.updNode n.node fun s => if s.st = 3 then s else { s with st := 5, refuse := 1, hop := (m.spokePort sp).hop }
        | [] => m
      m1.updSpoke sp SpokePort.nextHop
/-- The delays of node `n` lie within the budgets of its paths (R410 step 3). -/
def Mod.delaysFit (m : Mod) (sp : Nat) (n : NodeCfg) : Bool :=
  let s := m.eth.node n.node
  let b := m.tan.slotB
  let far := (spokeNodes m.cfg.netc sp).length + 1 - s.hop
  decide (s.near ≤ pathBudget m.cfg.netc sp b n.pos s.hop) &&
    (!m.otp.tandem || decide (s.far ≤ pathBudget m.cfg.netc sp (!b) n.pos far))
/-- The delay of a node from the module's own end is known (R410 step 3): the far one follows from H_AB once that is measured. -/
def Mod.setDelay (m : Mod) (sp node : Nat) (near : Int) : Mod :=
  m.updNode node fun s => { s with near := near, far := match (m.spokePort sp).hab with | some h => h - near - s.fwd | none => 0 }
/-- A node refused for its delay (R410): out of the cycle. -/
def Mod.refuseDelay (m : Mod) (node : Nat) : Mod :=
  m.updNode node fun s => { s with st := 5, refuse := 5, inSync := false, recheckAt := none, rdN := 0 }
/-- H_AB is measured (R410): the nodes' far delays follow, and they are configured with them. -/
def Mod.lineMeasured (m : Mod) (sp : Nat) (h : Int) : Mod :=
  let m1 := m.updSpoke sp fun p => { p with hab := some h, adm := .done }
  (m1.spokeLine sp).foldl (fun (k : Mod) n =>
    if (k.eth.node n.node).st ≠ 3 then k
    else
      let k1 := k.setDelay sp n.node (k.eth.node n.node).near
      if k1.delaysFit sp n then k1.mgmtQueue sp (k1.eth.node n.node).hop 3 (k1.configBody sp n) else k1.refuseDelay n.node) m1
/-- The sixteenth exchange of a step is done: half the mean of round trip less `TURN` (R410). -/
def Mod.delayDone (m : Mod) (sp node : Nat) (sum : Int) : Mod :=
  if node = 0 then m.lineMeasured sp (sum / 32)
  else match m.nodeCfg node with
    | none => m
    | some n =>
      let m1 := m.setDelay sp node (sum / 32)
      if m1.delaysFit sp n then m1.updSpoke sp fun p => { p with adm := .config node }
      else (m1.refuseDelay node).updSpoke sp SpokePort.nextHop
/-- An exchange of the repetition of R410. -/
def Mod.recheckReply (m : Mod) (sp : Nat) (n : NodeCfg) (d : Int) : Mod :=
  let m1 := m.updNode n.node fun s => { s with rdN := s.rdN - 1, rdSum := s.rdSum + d }
  let s := m1.eth.node n.node
  if 0 < s.rdN then m1.mgmtQueue sp s.hop 2 []
  else
    let m2 := m1.setDelay sp n.node (s.rdSum / 32)
    if m2.delaysFit sp n then m2 else m2.refuseDelay n.node
/-- A reply to `DELAY` (R410 step 3). -/
def Mod.delayReply (m : Mod) (sp hop : Nat) (d : Int) : Mod :=
  let p := m.spokePort sp
  let mine (node : Nat) : Bool := if node = 0 then hop == p.hop else (m.eth.node node).hop == hop
  let again := match (m.spokeLine sp).find? fun n => (m.eth.node n.node).hop == hop && decide (0 < (m.eth.node n.node).rdN) with
    | some n => m.recheckReply sp n d
    | none => m
  match p.adm with
  | .delay node k sum =>
    if mine node then
      if k + 1 = 16 then m.delayDone sp node (sum + d) else m.updSpoke sp fun p => { p with adm := .delay node (k + 1) (sum + d) }
    else again
  | _ => again
/-- A reply to `CONFIG` (R410 steps 4 and 5). -/
def Mod.configReply (m : Mod) (sp hop cstat : Nat) : Mod :=
  match (m.spokePort sp).adm with
  | .config node =>
    if (m.eth.node node).hop = hop ∧ cstat = 0 then
      (m.updNode node fun s => { s with inSync := true }).updSpoke sp SpokePort.nextHop
    else m
  | _ => m
/-- A reply to a relayed READ or WRITE (R568): the oldest of its node is answered. -/
def Mod.objectReply (m : Mod) (sp hop status : Nat) (data : Bytes) : Mod :=
  let mine (r : NodeRelay) : Bool := (m.eth.node r.node).hop == hop && nodePort m.cfg.netc r.node == sp + 3
  match m.eth.relays.find? mine with
  | none => m
  | some r =>
    let body := if r.write then writeResult status else if status = 0 then readResult stOk data else readResult status []
    ({ m with eth := { m.eth with relays := m.eth.relays.erase r } } : Mod).respond r.rq stOk body
/-- `MCMD` and body of a reply (R409). -/
def replyFrame : MgmtReply → Nat × Bytes
  | .ident v p rev fwd serial mi mo tp ta =>
    (1, natLe 4 v.toNat ++ natLe 4 p.toNat ++ natLe 2 rev ++ natLe 2 fwd ++ natLe 8 serial.toNat ++ natLe 1 mi ++ natLe 1 mo ++ natLe 2 tp ++ natLe 2 ta)
  | .delay _ turn => (2, natLe 4 turn)
  | .config c => (3, natLe 1 c)
  | .loop => (4, [])
  | .object w st d => (if w then 6 else 5, natLe 1 st ++ d)
/-- The reply to request `a` at the master (R410). -/
def Mod.replyTo (m : Mod) (sp : Nat) (a : MgmtAsked) (r : MgmtReply) : Mod :=
  match r with
  | .ident v p rev fwd serial mi mo tp ta => match (m.spokePort sp).adm with
    | .ident _ => if a.hop = (m.spokePort sp).hop then m.identReply sp v p rev fwd serial mi mo tp ta else m
    | _ => m
  | .delay rt turn => m.delayReply sp a.hop ((rt : Int) - turn)
  | .config c => m.configReply sp a.hop c
  | .loop => m
  | .object _ st d => m.objectReply sp a.hop st d
/-- A `MGMT` reply (R409, R410): at the master it answers the request of its `MSEQ` and command; the module without ACT relays it (R413). -/
def Mod.mgmtReply (m : Mod) (sp : Nat) (mseq : BitVec 16) (r : MgmtReply) : Mod :=
  if m.act then
    match (m.spokePort sp).asked.find? fun a => a.mseq == mseq && a.cmd == (replyFrame r).1 with
    | some a => if (m.spokeMaster sp).isSome then (m.updSpoke sp fun p => { p with asked := p.asked.erase a }).replyTo sp a r else m
    | none => m
  else if m.otp.tandem ∧ m.portOn (sp + 2) then
    (m.updSpoke sp fun p => { p with relayAt := some m.mono }).send
      (.spokeRelay sp (spokeFrame 5 (b2n m.tan.slotB) 0 0 (mgmtBody 0 (replyFrame r).1 mseq (replyFrame r).2)))
  else m
/-- `SPOKE_MGMT_REPLY` (R410). -/
def execSpokeMgmtReply (sp : Fin 2) (mseq : BitVec 16) (reply : MgmtReply) (s : State) : Host.Outcome State Fault Refusal :=
  s.run fun m => m.whenLive fun m => m.mgmtReply sp mseq reply
/-- `SPOKE_DELAY_RECHECK` (R410): every 10 s for a node in cycle. -/
def Mod.delayRecheck (m : Mod) (node : Nat) : Mod :=
  let s := m.eth.node node
  m.onDue (if m.act ∧ s.st = 3 then s.recheckAt else none) fun m =>
    (m.updNode node fun s => { s with rdN := 16, rdSum := 0, recheckAt := some (m.mono + phS 10) }).mgmtQueue
      (nodePort m.cfg.netc node - 3) s.hop 2 []
/-- See `Mod.delayRecheck`. -/
def execSpokeDelayRecheck (node : Nat) (s : State) : Host.Outcome State Fault Refusal :=
  s.run fun m => m.whenLive fun m => m.delayRecheck node
/-- Split operation ends (R414): the module sends from its own end only, and unblocks the ports. -/
def Mod.splitOver (m : Mod) (sp : Nat) : Mod :=
  let m1 := m.updSpoke sp fun p => { p with split := false }
  (m1.spokeLine sp).foldl (fun (k : Mod) n =>
    if (k.eth.node n.node).st = 3 then k.mgmtQueue sp (k.eth.node n.node).hop 3 (k.configBody sp n) else k) m1
/-- `SPLIT_END` (R414): every node has reported both links up for 1 s. -/
def execSplitEnd (sp : Fin 2) (s : State) : Host.Outcome State Fault Refusal :=
  s.run fun m => m.whenLive fun m =>
    m.onDue (if (m.spokePort sp).split && m.act then (m.spokePort sp).bothUpFrom.map (· + phS 1) else none) fun m => m.splitOver sp

/-! Relayed objects. -/

/-- A READ or WRITE of a node's object is relayed (R568): the refusal, or the module with the request waiting. -/
def Mod.relayNode (m : Mod) (rq : Req) (node cmd : Nat) (ref : ObjRef) (data : Bytes) : Mod × Option Nat :=
  if !m.act then (m, some stNotActive)
  else if 240 < data.length then (m, some stLength)
  else if (m.eth.node node).st ≠ 3 then (m, some stNode)
  else
    let sp := nodePort m.cfg.netc node - 3
    let m1 := m.mgmtQueue sp (m.eth.node node).hop cmd (natLe 2 ref.index.toNat ++ natLe 1 ref.sub.toNat ++ natLe 1 data.length ++ data)
    ({ m1 with eth := { m1.eth with relays := m1.eth.relays ++ [{ rq := rq, node := node, write := cmd == 6, at_ := m.mono }] } }, none)
/-- `NODE_RELAY_TIMEOUT` (R568): 100 ms after the oldest relay. -/
def Mod.relayLate (m : Mod) : Mod :=
  m.onDue (m.eth.relays.head?.map fun r => r.at_ + phMs 100) fun m =>
    match m.eth.relays with
    | r :: rest => ({ m with eth := { m.eth with relays := rest } } : Mod).respond r.rq stTimeout []
    | [] => m
/-- See `Mod.relayLate`. -/
def execNodeRelayTimeout (s : State) : Host.Outcome State Fault Refusal := s.run fun m => m.whenLive Mod.relayLate

end Sys2Proof.Machine
end

