-- ==== Sys2Proof/Machine/ObjRead.lean ====
section
/-! DEFINITION. The object map as it reads: every object of R574 with its access and its value. -/

namespace Sys2Proof.Machine

/-- The access of an object (R12, R568); `cmd` the command itself of a command object (R575). -/
inductive Access where
  | ro
  | rc
  | w1c
  | rw
  | wo
  | cmd
  deriving DecidableEq, Repr

/-- An object of an index: subindex, access, the bytes that a write carries, the value. -/
structure Obj where
  sub : Nat
  acc : Access
  size : Nat
  val : Bytes
  deriving DecidableEq, Repr

/-- An RO object of `size` bytes with value `n`. -/
def roN (sub size n : Nat) : Obj := { sub := sub, acc := .ro, size := size, val := natLe size n }
/-- An RO object of bytes. -/
def roB (sub : Nat) (b : Bytes) : Obj := { sub := sub, acc := .ro, size := b.length, val := b }
/-- An object of `size` bytes with value `n` and the given access. -/
def objN (acc : Access) (sub size n : Nat) : Obj := { sub := sub, acc := acc, size := size, val := natLe size n }
/-- A WO object: it reads as 0 (R12). -/
def woN (sub size : Nat) : Obj := { sub := sub, acc := .wo, size := size, val := List.replicate size 0 }
/-- `n` objects of one kind at subindices 1 to `n`. -/
def rowN (acc : Access) (size n : Nat) (f : Nat → Nat) : List Obj := tabulate n fun i => objN acc (i + 1) size (f i)
/-- RO objects of bytes at subindices 1 to `n`. -/
def rowB (n : Nat) (f : Nat → Bytes) : List Obj := tabulate n fun i => roB (i + 1) (f i)
/-- 128 of a bank of per-unit objects: those of units 128 `k` to 128 `k` + 127 (R218, R270, R423, R450). -/
def bankN (acc : Access) (size k : Nat) (f : Nat → Nat) : List Obj := rowN acc size 128 fun i => f (128 * k + i)

/-! Identity and configuration (R80 to R82). -/

/-- `BOOT_STATE` (R82). -/
def Boot.stateWord (b : Boot) : Nat :=
  b.state + 16 * (if b.state = 6 then b.maintReason else 0) + 4096 * b2n b.maintStrap + 8192 * b2n b.stuckSeen + 16384 * b2n b.bankFallback
/-- The version of the image in a slot, 0 where no slot is named. -/
def Hdr.versionOf (h : Hdr) (n : Nat) : Nat := if n < 8 then (h.slot n).version else 0
/-- `COMMIT_LEFT` (R80). In `MAINTENANCE` the image of the trial gives the length of its window; one that is not sound gives none, and 0
is read (DESIGN CHOICE, log entry 130). -/
def Mod.commitLeft (m : Mod) : Nat :=
  if m.cas.hdr.commit ≠ 1 ∨ m.cas.jrn.pend ≠ 0 then 0
  else if m.maint then (if m.eap.fallback then 0 else windowMs (parseCfg (m.slotImage m.cas.hdr.active)) - m.cas.jrn.servedMs)
  else if m.change.phase = 4 then (match m.change.cfg with | some c => windowMs c | none => 0)
  else if m.windowOpen then (if m.cas.winFrom.isSome then m.cas.winMs else windowMs m.cfg) - m.servedMs
  else 0
/-- `0x1000` and `0x1001` (R80). -/
def Mod.objsIdent (m : Mod) (ix : Nat) : List Obj :=
  if ix = 0x1000 then
    [roN 0x01 1 m.otp.hwRev, roN 0x02 8 m.otp.serial.toNat, roN 0x03 4 m.bank.boot.version, roN 0x04 4 m.bank.main.version,
     roN 0x05 4 m.bank.si.version, roN 0x06 1 (b2n m.onB), roN 0x07 4 (m.cas.hdr.versionOf m.cas.hdr.active),
     roN 0x08 4 (m.cas.hdr.versionOf m.cas.hdr.previous), objN .w1c 0x09 4 (m.cas.stateWord (m.sup.belowWrite || m.sup.belowErase)),
     roN 0x0A 1 m.boot.cause, roN 0x0B 1 (b2n m.boot.warm), roN 0x0C 4 m.boot.startMs, objN .w1c 0x0D 4 m.boot.stateWord,
     roN 0x0E 4 m.commitLeft, roN 0x10 2 m.cfg.ident.node, roN 0x11 1 (b2n m.tan.slotB), roN 0x12 1 (m.boot.slotId % 16)]
  else if ix = 0x1001 then rowB 8 fun i => (m.cas.hdr.slot i).bytes
  else []

/-! Tandem (R354, R355). -/

/-- `SHADOW_MEAS` (R354): the bytes of the batches sent within the last second. -/
def Mod.shadowMeas (m : Mod) : Nat := ((m.tan.sh.sent.filter fun e => decide (m.mono < e.1 + phS 1)).map (·.2)).sum
/-- `0x1100` and `0x1101` (R354). -/
def Mod.objsTandem (m : Mod) (ix : Nat) : List Obj :=
  let t := m.tan
  let heard := if m.present then t.bell else none
  if ix = 0x1100 then
    [objN .w1c 0x01 4 (t.stateWord m.mono m.tb.now m.fit), roN 0x02 8 m.healthWord.toNat, roN 0x03 8 ((heard.map (·.health.toNat)).getD 0),
     roN 0x04 1 t.hl.score, roN 0x05 1 ((heard.map (·.score)).getD 0xFF), roN 0x06 4 t.switchovers.toNat,
     roN 0x07 12 t.lastTakeover.toNat, roN 0x08 4 t.takeoverNs,
     roN 0x09 1 (t.ho.counted.filter fun c => decide (m.optime < c + 3600000)).length,
     roN 0x0A 4 m.shadowMeas, objN .rc 0x0B 4 t.sh.lagNs, roN 0x0C 4 t.sh.lost.toNat, roN 0x0D 4 t.tl.lost.toNat,
     roN 0x0E 4 t.hb.lost.toNat, roN 0x0F 4 t.hbCrcErr.toNat, roN 0x10 4 t.sh.ms]
  else if ix = 0x1101 then [roB 1 t.trec.raw]
  else []

/-! Device time (R310 to R314). -/

/-- `ROLE` of `TIME_STATE` (R311): a clock that is neither grandmaster nor transparent only reads as synchronised to its parent. -/
def Mod.ptpRole (m : Mod) : Nat :=
  match m.cfg.netc.ptp with
  | none => 0
  | some c => if m.ptp.gmSelf then 2 else if c.transparent && !c.boundary && !c.gmCapable then 3 else 1
/-- What is left of a commanded slew, in ns (R284). -/
def Mod.shiftLeft (m : Mod) : Nat :=
  match m.ptp.shift with
  | none => 0
  | some h => h.ns.natAbs - (m.tb.root - h.fromRoot) * ((m.tb.addend.toNat : Int) - 0xA0000000).natAbs / unitsPerNs
/-- An offset above `LOCK_THR` is being removed by rate (R311): by the servo or by a commanded slew. -/
def Mod.slews (m : Mod) : Bool :=
  m.ptp.slewing || decide ((match m.cfg.netc.ptp with | some c => c.lockThr | none => 20) < m.shiftLeft)
/-- `TIME_STATE` (R311). -/
def Mod.timeState (m : Mod) : Nat :=
  let p := m.ptp
  m.tq + 8 * m.ptpRole + 32 * b2n p.timeUnset + 64 * b2n p.utcValid + 128 * b2n (decide (p.leap ≠ 0)) + 256 * b2n p.stepped
    + 512 * b2n m.slews + 1024 * b2n p.traceable + 2048 * b2n p.qualityFell
/-- `0x1200` to `0x1230` (R310, R312). -/
def Mod.objsTime (m : Mod) (ix : Nat) : List Obj :=
  let p := m.ptp
  let own := (Config.clockIdentity m.otp.serial).toNat
  let tou (u : Nat) : Tou := at_ m.tous u {}
  if ix = 0x1200 then
    [objN .w1c 0x01 4 m.timeState, roN 0x02 12 m.dt.toNat, roN 0x03 2 (unsigned 16 p.utc), roN 0x04 4 m.tb.addend.toNat,
     roN 0x05 4 (unsigned 32 (clamp (-(2 ^ 31)) (2 ^ 31 - 1) p.offset)), roN 0x06 4 p.pathDelay,
     roN 0x07 4 (match m.alignNs with | some n => Nat.min 0xFFFFFFFE n | none => 0xFFFFFFFF), roN 0x08 8 (unsigned 64 p.lastStep),
     roN 0x09 12 p.stepAt.toNat, roN 0x0A 4 p.steps,
     roB 0x0B (natBe 8 (match p.parent with | some a => a.senderId.toNat | none => 0)),
     roB 0x0C (natBe 8 (if p.gmSelf then own else match p.parent with | some a => a.gmId.toNat | none => 0)),
     roN 0x0D 2 (match p.parent with | some a => a.stepsRemoved + 1 | none => 0)]
  else if ix = 0x1201 then rowN .ro 1 3 m.portState
  else if ix = 0x1210 then rowN .w1c 4 32 fun u => (tou u).stat ((m.touCfg u).map (·.route) |>.getD 0xFF)
  else if ix = 0x1211 then rowN .ro 8 32 fun u => if (tou u).armed then (tou u).target.toNat else 0
  else if ix = 0x1212 then rowN .ro 4 32 fun u => (tou u).missed
  else if ix = 0x1220 then rowN .w1c 4 32 fun u => (at_ m.tcus u {}).stat ((m.tcuCfg u).map (·.src) |>.getD 0xFF)
  else if ix = 0x1221 then tabulate 32 fun u => { sub := u + 1, acc := .rc, size := 16, val := (at_ m.tcus u {}).pop.1 }
  else if ix = 0x1230 then
    let a := m.aat
    let l := [a.rx, a.accepted, a.duplicate, a.late, a.discarded, a.notLocked, a.tagFail, a.unmapped]
    rowN .ro 4 8 fun i => (at_ l i 0).toNat
  else []

/-! Clocks, supply and backup domain (R521 to R525). -/

/-- `0x1300`, `0x1301` and `0x1400` (R521, R524). -/
def Mod.objsClk (m : Mod) (ix : Nat) : List Obj :=
  let c := m.clk
  let s := m.sup
  let b := m.bkp
  if ix = 0x1300 then
    [objN .w1c 0x01 4 c.stateWord, roN 0x02 2 c.cmonCount, roN 0x03 4 c.faults.toNat, woN 0x04 8, roB 0x05 c.fmc.bytes,
     roN 0x06 4 c.gatedWord, woN 0x07 2, roN 0x08 4 c.stalls.toNat]
  else if ix = 0x1301 then
    [objN .w1c 0x01 4 s.stateWord, roN 0x02 2 s.vin1Mv, roN 0x03 2 s.vin2Mv, roN 0x04 2 s.vorMv, roN 0x05 2 s.storeMv,
     objN .rc 0x06 2 s.vorMin, roN 0x07 4 s.fails.toNat, roN 0x08 4 s.deferred.toNat]
  else if ix = 0x1400 then
    [objN .w1c 0x01 4 (b.stateWord m.mono), roN 0x02 8 (b.tai m.mono).toNat, roB 0x03 (b.utcBytes m.mono), woN 0x04 2, woN 0x05 8,
     { sub := 0x06, acc := .rw, size := 8, val := (at_ b.alms 0 {}).bytes }, { sub := 0x07, acc := .rw, size := 8, val := (at_ b.alms 1 {}).bytes },
     roN 0x08 2 b.vbatMv, roN 0x09 1 (unsigned 8 b.temp), roN 0x0A 2 (unsigned 16 b.e), roN 0x0B 8 b.pfTime.toNat,
     roB 0x0C ((b.curve.map fun w => natLe 2 w.toNat).flatten)]
  else []

/-! Tasks (R162 to R164). -/

/-- `TSTATE` (R163). -/
def Mod.taskState (m : Mod) (t : Nat) : Nat :=
  let k := m.task t
  let core := match m.plan.plan with | some p => at_ p.core t 255 | none => 255
  let st := if !m.executing then 5 else if k.halted then 4
    else if k.running.isSome then (if m.onCore core = some t then 3 else 2) else 1
  let late := match k.running with
    | some c => (match c.dl with | some d => decide (d < m.tb.now) | none => false)
    | none => false
  st + 8 * b2n late + 16 * Nat.min 15 k.consec + 256 * b2n k.replanned + 512 * b2n k.haltPolicy + 65536 * (if core < 4 then core else 0)
/-- `CHANGE_STATE` (R164). -/
def Change.stateWord (c : Change) : Nat :=
  c.phase + 8 * b2n c.partnerAck + 16 * (c.proposals % 4) + 64 * b2n c.refused + 256 * c.refuseCode
/-- `0x2000` and `0x2010` to `0x201F` (R162). -/
def Mod.objsTask (m : Mod) (ix : Nat) : List Obj :=
  let c := m.change
  if ix = 0x2000 then
    [roN 0x01 1 (m.cfg.tasks.tasks.filter fun k => k.kind != 0).length, objN .w1c 0x02 4 c.stateWord, roN 0x03 12 c.switchAt.toNat,
     roN 0x04 4 c.carried, roN 0x05 4 c.migrated, roN 0x06 4 c.initialised, roN 0x07 4 c.removed, roN 0x08 4 m.cfg.tasks.restart.toNat,
     roN 0x09 4 ((List.range 16).map (retainBytes m.cfg.net)).sum]
  else if 0x2010 ≤ ix ∧ ix < 0x2020 then
    let t := ix - 0x2010
    let d := m.taskCfg t
    let k := m.task t
    let v (n : Nat) : Nat := if d.kind = 0 then 0 else n
    [roN 0x01 1 (v d.kind), roN 0x02 1 (v d.prio), roN 0x03 4 (if d.kind = 1 then d.period * 125 else 0), roN 0x04 4 (v d.oofs),
     objN .w1c 0x05 4 (v (m.taskState t)), roN 0x06 4 (v k.releases.toNat), roN 0x07 12 (v k.lastRelease.toNat), roN 0x08 4 (v k.execLast),
     objN .rc 0x09 4 (v k.execMax), roN 0x0A 4 (v k.overruns.toNat), roN 0x0B 4 (v k.skipped.toNat), roN 0x0C 4 (v k.stepSkipped.toNat),
     roN 0x0D 4 (v k.missed.toNat), objN .rc 0x0E 4 (v (Nat.min 0xFFFFFFFF (k.margin.getD 0)))]
  else []

/-! Placement (R186, R187). -/

/-- `0x2100` to `0x210B` (R186). -/
def Mod.objsPlan (m : Mod) (ix : Nat) : List Obj :=
  let p := m.plan.plan.getD {}
  let first (b : Bytes) : Bytes := (b ++ List.replicate 8 0).take 8
  let r := m.plan.rej.getD { code := 0, where_ := 0 }
  if ix = 0x2100 then
    [objN .w1c 0x01 4 m.plan.stateWord, roB 0x02 (first m.plan.hash), roB 0x03 (if m.present then first m.plan.partnerHash else List.replicate 8 0), roN 0x04 1 m.boot.excl,
     roN 0x05 2 r.code, roN 0x06 4 r.where_, roN 0x07 4 r.excess, roN 0x08 4 p.shadow,
     roN 0x09 4 (if m.plan.plan.isSome then p.queues.sum * 2048 else 0), roN 0x0A 4 p.sram, roN 0x0B 4 p.fabric, roN 0x0C 4 p.retain,
     roN 0x0D 4 (p.inTier 0), roN 0x0E 4 (p.inTier 1), roN 0x0F 4 (p.inTier 2)]
  else if ix = 0x2101 then rowN .ro 2 4 fun k => at_ p.utilCore k 0
  else if ix = 0x2102 then rowN .ro 4 4 fun k => at_ p.tcm k 0
  else if ix = 0x2103 then rowN .ro 2 4 fun k => at_ p.lanePeak k 0
  else if ix = 0x2104 then rowN .ro 1 4 fun k => at_ p.laneSlots k 0
  else if 0x2108 ≤ ix ∧ ix < 0x210C then
    bankN .ro 2 (ix - 0x2108) fun n => match p.loops.find? fun e => e.1 == n with | some e => loopPlaceWord e.2.1 e.2.2 | none => 0
  else []

/-! Control engine, tables and trace (R218 to R220, R244 to R246). -/

/-- `CE_STATE` (R219). -/
def Mod.ceState (m : Mod) : Nat :=
  let c := m.ce
  let lanes := 15 - (match m.plan.plan with | some p => p.excl / 16 % 16 | none => 15)
  (if c.running then (if c.holding then 2 else 1) else 0) + 4 * b2n (c.started && c.gridOff == 0) + 8 * b2n (c.started && c.gridOff != 0)
    + 16 * b2n (m.clk.override && c.started) + 256 * lanes + 4096 * c.overrun.toNat
/-- A loop is placed. -/
def Ce.isPlaced (c : Ce) (n : Nat) : Bool := c.place.any fun p => p.1 == n
/-- `LOOP_STAT` (R220). -/
def Ce.loopStat (c : Ce) (n : Nat) : Nat :=
  let s := c.loopSt n
  if (c.loopCfg n).isNone then 0
  else s.lflags.toNat + 65536 * (s.mode % 4) + 2 ^ 18 * b2n (c.isPlaced n) + 2 ^ 19 * b2n s.parked + 2 ^ 20 * b2n s.carried
/-- `TAB_STAT` (R245). -/
def TabSt.stat (t : TabSt) : Nat :=
  packBits [t.present, t.bank1, t.service, t.pending, t.partnerOk] + 65536 * t.switches
/-- The data of a bank of a table, as its file lays it out (R221, R228). -/
def Ce.bankBytes (c : Ce) (n : Nat) (bank1 : Bool) : Bytes :=
  ((c.bank n bank1).map fun q => natLe 2 q.toNat).flatten
/-- `TRC_STATE` (R246). -/
def Trace.stateWord (t : Trace) : Nat := t.state + 8 * b2n t.preShort + 16 * t.cause + 256 * t.gap.toNat
/-- The 16 bytes of the trigger descriptor (R239). -/
def TrcTrig.bytes (t : TrcTrig) : Bytes :=
  natLe 1 t.tsrc ++ natLe 1 t.edge ++ natLe 1 t.arg ++ [0] ++ natLe 2 t.lnum ++ natLe 2 (unsigned 16 t.level) ++ natLe 8 t.t.toNat
/-- The 8 bytes of a channel descriptor (R237). -/
def TrcCh.bytes (h : TrcCh) : Bytes := natLe 1 h.src ++ natLe 1 h.node ++ natLe 2 h.lnum ++ natLe 1 h.arg ++ [0] ++ natLe 2 h.decim
/-- `0x2200` to `0x2242` (R218, R244). -/
def Mod.objsCe (m : Mod) (ix : Nat) : List Obj :=
  let c := m.ce
  let tab (n : Nat) : TabSt := at_ c.tabSt n {}
  if ix = 0x2200 then
    [objN .w1c 1 4 m.ceState, roN 2 8 c.f, roN 3 4 (unsigned 32 (Int.tdiv c.gridOff unitsPerNs)), roN 4 1 c.holdLast,
     roN 5 2 (c.cfg.filter fun d => c.isPlaced d.lnum && !(c.loopSt d.lnum).parked).length]
  else if ix = 0x2201 then rowN .rc 2 4 fun l => (at_ c.lanes l {}).max
  else if ix = 0x2202 then rowN .ro 4 4 fun l => (at_ c.lanes l {}).ovr.toNat
  else if 0x2210 ≤ ix ∧ ix < 0x2214 then bankN .ro 4 (ix - 0x2210) c.loopStat
  else if 0x2218 ≤ ix ∧ ix < 0x221C then
    bankN .ro 2 (ix - 0x2218) fun n => match c.loopCfg n with | some d => d.worst.getD 0 | none => 0
  else if 0x2220 ≤ ix ∧ ix < 0x2224 then bankN .rc 2 (ix - 0x2220) fun n => (c.loopSt n).miss
  else if ix = 0x2230 then rowN .ro 4 16 fun n => (tab n).stat
  else if ix = 0x2231 then rowN .ro 4 16 fun n => if (tab n).present then crc32 (c.bankBytes n (tab n).bank1) else 0
  else if ix = 0x2232 then [woN 1 1]
  else if ix = 0x2240 then
    [roN 1 4 c.trc.stateWord, { sub := 2, acc := .rw, size := 16, val := c.trc.trig.bytes }, objN .rw 3 2 c.trc.pre, roN 4 12 c.trc.time.toNat]
  else if ix = 0x2241 then tabulate 16 fun n => { sub := n + 1, acc := .rw, size := 8, val := (at_ c.trc.chs n {}).bytes }
  else if ix = 0x2242 then rowB 16 fun n => (at_ c.trc.bufs n {}).result
  else []

/-! Alarms (R270 to R274). -/

/-- The position of point `n` in the order of the descriptors. -/
def Ae.pointAt (a : Ae) (n : Nat) : Option Nat := indexOf? (fun d : PtCfg => d.pnum == n) a.cfg.points
/-- Points in a state of R254. -/
def Ae.inState (a : Ae) (p : Nat → Bool) : Nat := (a.pts.filter fun x => p x.state).length
/-- `0x2300` to `0x23FF` (R270). -/
def Mod.objsAlarm (m : Mod) (ix : Nat) : List Obj :=
  let a := m.ae
  let fo (f : Nat → Fo → Nat) (n : Nat) : Nat := match m.foIndex n with | some i => f i (at_ a.fos i {}) | none => 0
  if ix = 0x2300 then
    [objN .w1c 1 4 a.stateWord, roN 2 2 (a.pts.filter (·.a)).length, roN 3 2 (a.inState fun s => s == 1 || s == 3), roN 4 2 (a.inState (· == 4)),
     roN 5 2 (a.inState (· == 5)), roN 6 2 (a.inState (· == 6)), roN 7 4 a.seq.toNat, roN 8 2 a.floodCount, objN .rc 9 4 a.evalMax]
  else if 0x2360 ≤ ix ∧ ix < 0x2362 then bankN .ro 4 (ix - 0x2360) (fo fun i g => g.stat (m.foArbiter i))
  else if 0x2362 ≤ ix ∧ ix < 0x2364 then
    bankN .ro 4 (ix - 0x2362) (fo fun _ g => if g.state = 2 then (match g.winner with | some w => w.pid.toNat | none => 0) else 0)
  else if 0x2364 ≤ ix ∧ ix < 0x2366 then
    bankN .ro 4 (ix - 0x2364) fun n =>
      if n < a.sgs.length then (at_ a.sgs n {}).stat (a.cfg.points.filter fun d => d.sgroup == n).length else 0
  else if 0x2380 ≤ ix ∧ ix < 0x2400 then
    bankN .ro 4 (ix - 0x2380) fun n => match a.pointAt n with | some i => (at_ a.pts i {}).stat | none => 0
  else []

/-! Ethernet, Spoke and link tests (R423 to R426). -/

/-- `NET_STATE` (R424). -/
def Mod.netState (m : Mod) : Nat :=
  m.cfg.netc.prmode + 4 * b2n m.act + 8 * b2n (m.eth.lt.st == 1) + 16 * b2n m.eth.exhausted
/-- `SPOKE_STATE` (R425): the module without ACT reads as relaying for two periods after it has relayed a frame (log entry 18). -/
def Mod.spokeState (m : Mod) (sp : Nat) : Nat :=
  let p := m.spokePort sp
  let t := m.cfg.tasks.lockOf (sp + 3)
  let period := match t with | some t => (m.taskCfg t).period | none => 0
  let st := if !m.portOn (sp + 2) then 0 else if (m.spokeMaster sp).isSome then 2
    else match p.relayAt with | some a => if m.mono ≤ a + phUs (250 * period) then 3 else 1 | none => 1
  let safe := match t with | some t => (m.spokeMaster sp).isSome && (m.task t).halted | none => false
  st + 4 * b2n p.split + 8 * b2n p.closed + 16 * b2n safe + 32 * b2n p.breakSeen + 256 * m.eth.inCycle m.cfg.netc sp
    + 65536 * ((spokeNodes m.cfg.netc sp).length % 256)
/-- `NODE_STAT` (R425) of node `n`. -/
def Mod.nodeStat (m : Mod) (n : Nat) : Nat :=
  match m.nodeCfg n with
  | none => 0
  | some c =>
    let s := m.eth.node n
    let k := (spokeNodes m.cfg.netc (c.port - 3)).length
    s.stat (if s.hop = 0 then 0 else if m.tan.slotB then k + 1 - s.hop else s.hop)
/-- `0x2400` to `0x2445`, and `0x2C00` (R423, R426). -/
def Mod.objsNet (m : Mod) (ix : Nat) : List Obj :=
  let e := m.eth
  let port (p : Nat) : EthPort := at_ e.ports p {}
  if ix = 0x2400 then
    [objN .w1c 1 4 m.netState, roB 2 (natBe 6 (stationMac m.cfg.ident.node).toNat), roB 3 (natBe 6 m.otp.mac.toNat)]
  else if ix = 0x2401 then
    rowN .ro 4 5 fun p => (port p).stat (m.testing (p + 1)) (m.cfg.netc.gates.any fun g => g.port == p && (g.pos m.tb.now).isSome)
  else if 0x2411 ≤ ix ∧ ix < 0x2416 then rowN .ro 4 11 fun i => (at_ (port (ix - 0x2411)).cnt.list i 0).toNat
  else if 0x2419 ≤ ix ∧ ix < 0x241E then
    rowN .ro 4 16 fun q => let n := queueNo (ix - 0x2419) q; e.used n + 65536 * Nat.min 65535 (at_ e.drops n 0)
  else if ix = 0x2420 then [roN 1 2 e.free, roN 2 2 (e.sharedFree m.mins), objN .rc 3 2 e.sharedLow]
  else if ix = 0x2430 then rowN .w1c 4 2 m.spokeState
  else if ix = 0x2431 then
    rowN .ro 4 2 fun sp => if (spokeNodes m.cfg.netc sp).isEmpty then 0 else (m.leads sp).lin + 65536 * (m.leads sp).lout
  else if ix = 0x2432 then rowN .ro 4 2 fun sp => (m.spokePort sp).cycles.toNat
  else if 0x2440 ≤ ix ∧ ix < 0x2442 then bankN .w1c 4 (ix - 0x2440) fun n => m.nodeStat (n + 1)
  else if 0x2442 ≤ ix ∧ ix < 0x2444 then bankN .rc 4 (ix - 0x2442) fun n => (e.node (n + 1)).miss.toNat
  else if 0x2444 ≤ ix ∧ ix < 0x2446 then bankN .ro 8 (ix - 0x2444) fun n => (e.node (n + 1)).serial.toNat
  else if ix = 0x2C00 then
    [roN 1 4 (e.lt.stateWord m.mono), roN 2 8 e.lt.bits.toNat, roN 3 8 e.lt.errors.toNat, roN 4 4 e.lt.syncLoss.toNat, roN 5 4 e.lt.framesLost.toNat]
  else []

/-! CAN (R450 to R452). -/

/-- `0x2500` to `0x2523` (R450). -/
def Mod.objsCan (m : Mod) (ix : Nat) : List Obj :=
  if ix = 0x2500 then rowN .w1c 4 4 fun c => (m.can c).stateWord (m.canCfg c).fd
  else if ix = 0x2501 then rowN .ro 4 4 fun c => (m.can c).rate (m.canCfg c) m.cfg.can.cands
  else if ix = 0x2502 then rowN .ro 4 4 fun c => (m.can c).tec % 512 + 65536 * ((m.can c).rerr % 256)
  else if ix = 0x2503 then rowN .ro 1 4 fun c => (m.can c).addr
  else if 0x2508 ≤ ix ∧ ix < 0x250C then rowN .ro 4 11 fun i => (at_ (m.can (ix - 0x2508)).cnt.list i 0).toNat
  else if 0x2510 ≤ ix ∧ ix < 0x2518 then
    let c := (ix - 0x2510) / 2
    bankN .w1c 4 ((ix - 0x2510) % 2) fun n => if n < (m.canCfg c).rx.length then (at_ (m.can c).rx n {}).stat else 0
  else if 0x2520 ≤ ix ∧ ix < 0x2524 then
    let c := ix - 0x2520
    rowN .ro 4 64 fun n => match (m.canCfg c).tx[n]? with | some d => (at_ (m.can c).tx n {}).stat d.persistent | none => 0
  else []

/-! Digital channels, pulse inputs and encoders (R473 to R476). -/

/-- `0x2600` to `0x2623` (R473). -/
def Mod.objsDio (m : Mod) (ix : Nat) : List Obj :=
  let pi (n : Nat) : PiCh := (at_ m.dio.pi n {}).settle (m.piCfg n) m.mono
  let enc (n : Nat) : EncCh := at_ m.dio.enc n {}
  if ix = 0x2600 then [objN .w1c 1 4 m.dio.stateWord]
  else if ix = 0x2601 then rowN .w1c 4 32 fun c => (m.dioCh c).stat (m.dioCfg c) (m.dio.supplied c) m.act m.mono
  else if ix = 0x2602 then rowN .ro 12 32 fun c => (m.dioCh c).ts.toNat
  else if ix = 0x2603 then rowN .ro 4 32 fun c => (m.dioCh c).changes.toNat
  else if ix = 0x2610 then rowN .ro 4 8 fun n => (pi n).count.toNat
  else if ix = 0x2611 then rowN .ro 4 8 fun n => (pi n).f.toNat
  else if ix = 0x2612 then rowN .ro 4 8 fun n => (pi n).stat
  else if ix = 0x2620 then rowN .ro 4 4 fun n => (enc n).count.toNat
  else if ix = 0x2621 then rowN .ro 4 4 fun n => ((enc n).vel (m.encCfg n) m.mono).toNat
  else if ix = 0x2622 then rowN .ro 4 4 fun n => (enc n).zpos.toNat
  else if ix = 0x2623 then rowN .ro 4 4 fun n => (enc n).stat (m.encCfg n)
  else []

/-! Analogue loops and HART (R494 to R498). -/

/-- `AO_STAT` of a channel (R497); a shed section drives nothing (R486). -/
def Mod.aoStat (m : Mod) (c : Nat) : Nat :=
  let h := m.aoCh c
  let h1 := if m.an.shed then { h with out := { h.out with st := .off } } else h
  h1.stat (m.cfg.loops.any fun d => d.oport == 0x80 + c) (m.trim 1 c).isSome
/-- `0x2700` to `0x2780` (R494). -/
def Mod.objsAn (m : Mod) (ix : Nat) : List Obj :=
  let a := m.an
  let dev (f : HartDev → Nat) (k : Nat) : Nat := if k < m.cfg.hart.length then f (m.hartDev k) else 0
  if ix = 0x2700 then [roN 1 4 (packBits [a.supplyOk, a.shed, a.adcRef, a.trimStale])]
  else if ix = 0x2701 then rowN .ro 4 16 fun c => (m.aiCh c).mA.toNat
  else if ix = 0x2702 then rowN .w1c 4 16 fun c => ((m.aiCh c).keep ((m.aiCfg c).use == 0 || a.keepClosed m.mono)).stat (m.aiMalf c)
  else if ix = 0x2703 then rowN .ro 4 16 fun c => Nat.min 65535 ((m.aiCh c).lsMv / 10) + 65536 * Nat.min 65535 (m.aiCh c).lsUa
  else if ix = 0x2704 then rowN .ro 4 8 fun c => ((m.aoCh c).cmd.getD 0).toNat
  else if ix = 0x2705 then rowN .ro 4 8 fun c => (m.aoCh c).rb.toNat
  else if ix = 0x2706 then rowN .w1c 4 8 m.aoStat
  else if ix = 0x2750 then rowN .ro 4 24 (dev fun d => d.stat m.act)
  else if ix = 0x2751 then rowB 24 fun k => ((m.hartDev k).id ++ List.replicate 8 0).take 8
  else if ix = 0x2752 then rowB 24 fun k => (((m.hartDev k).dv.map fun (v : Real32) => natLe 4 v.toNat).flatten ++ List.replicate 16 0).take 16
  else if ix = 0x2780 then [woN 1 4, roB 2 a.ptRsp]
  else []

/-! Safety island, recorder, counters, display, engineering access (R387 to R390, R536, R542, R554, R580). -/

/-- `0x2800` to `0x2804` (R387 to R390). -/
def Mod.objsSi (m : Mod) (ix : Nat) : List Obj :=
  let r := m.si.rep
  if ix = 0x2800 then
    [roN 1 4 (r.state + 8 * b2n m.si.statusValid), roN 2 2 r.swActual, roN 3 2 r.swExpected, roN 4 2 r.reactSo, roN 5 2 r.reactSbc,
     roN 6 2 r.faultCode, roN 7 4 r.demands, roN 8 4 r.up]
  else if ix = 0x2801 then rowN .ro 2 9 fun i => at_ r.inStat i 0
  else if ix = 0x2802 then rowN .ro 2 7 fun i => at_ r.outStat i 0
  else if ix = 0x2803 then [roN 1 1 r.edm]
  else if ix = 0x2804 then [roN 1 4 (at_ r.btStat 0 0), roN 2 4 (at_ r.btStat 1 0), roN 3 4 r.senc, roN 4 2 r.lastSlip]
  else []
/-- `0x2900` to `0x2902` (R536). -/
def Mod.objsEr (m : Mod) (ix : Nat) : List Obj :=
  let e := m.er
  if ix = 0x2900 then
    [objN .w1c 1 4 (e.stateWord !m.sup.mayWrite), roN 2 4 e.held.length, roN 3 8 m.optime, roN 4 4 e.pcycles.toNat, roN 5 2 m.cfg.ident.repwin,
     roN 6 2 e.wseq.toNat, roN 7 4 e.crcBad, roN 8 4 e.dropQueue.toNat, roN 9 4 e.repeatSat.toNat]
  else if ix = 0x2901 then rowN .ro 4 8 fun s => (at_ e.dropped s 0).toNat
  else if ix = 0x2902 then rowN .ro 4 8 fun s => (e.held.filter fun r => r.2.sev.toNat == s).length
  else []
/-- `0x2A00` to `0x2A02` (R542, R543). -/
def Mod.objsPmc (m : Mod) (ix : Nat) : List Obj :=
  let p := m.pmc
  if ix = 0x2A00 then
    [objN .w1c 1 4 (b2n m.cfg.net.pmcVisible + 2 * b2n p.wrapped + 256 * p.ringIdx), woN 2 8, objN .rw 3 1 p.ringSel.toNat, roN 4 4 p.snseq.toNat]
  else if ix = 0x2A01 then rowN .rw 2 64 fun n => (at_ p.sel n 0).toNat
  else if ix = 0x2A02 then rowN .ro 4 64 fun n => (at_ p.val n 0).toNat
  else []
/-- `0x2B00` (R554). -/
def Mod.objsDisp (m : Mod) (ix : Nat) : List Obj :=
  let d := m.disp
  if ix = 0x2B00 then
    [objN .w1c 1 4 d.stateWord, roN 2 20 d.completed, roN 3 1 (unsigned 8 d.tempC), roN 4 4 d.frames.toNat, roN 5 4 d.torn.toNat,
     roN 6 4 d.faults.toNat, roN 7 2 d.hiMv, roN 8 2 d.midMv]
  else []
/-- `EAP_STATE` (R581). -/
def Mod.eapState (m : Mod) : Nat :=
  let e := m.eap
  let w := match e.files.find? (·.write) with
    | some f => (match f.name with
      | .slot n => (1, n.val)
      | .ctab n => (2, n.val)
      | .fwBoot => (3, 1)
      | .fwMain => (3, 2)
      | .fwSi => (3, 3)
      | _ => (0, 0))
    | none => (0, 0)
  (e.sessions.filter fun s => s.port < 2).length + 16 * (e.sessions.filter fun s => s.port == 2).length + 64 * b2n m.act
    + 128 * b2n e.fallback + 256 * b2n e.unchecked + 512 * b2n (e.files.any (·.write)) + 1024 * w.1 + 65536 * w.2
/-- The credential entries in force: those that are not void (R561, R580; log entry 128). -/
def CredCfg.inForce (c : CredCfg) (unchecked : Bool) (now : Nat) : Nat :=
  (c.ents.filter fun e => unchecked || e.expires == 0 || decide (now ≤ e.expires)).length
/-- `0x2F00` to `0x2F0D` (R575, R580). -/
def Mod.objsEap (m : Mod) (ix : Nat) : List Obj :=
  let e := m.eap
  if ix = 0x2F00 then
    [roN 1 4 m.eapState, roN 2 1 e.subs.length, roN 3 4 e.notifyDrops.toNat, roN 4 4 e.authFail.toNat, roN 5 4 (m.cfg.cred.inForce m.ptp.timeUnset (m.tb.now / (1000000000 * unitsPerNs)))]
  else if 0x2F01 ≤ ix ∧ ix < 0x2F0E then
    let c := at_ e.cmds (ix - 0x2F01) {}
    [{ sub := 1, acc := .cmd, size := 0, val := [0] }, roB 2 (natLe 1 c.status ++ natLe 1 c.detail ++ [0, 0] ++ natLe 4 c.value)]
  else []

/-- The objects of an index; none where it is undefined (R574). -/
def Mod.objects (m : Mod) (ix : Nat) : List Obj :=
  match ix / 256 with
  | 0x10 => m.objsIdent ix
  | 0x11 => m.objsTandem ix
  | 0x12 => m.objsTime ix
  | 0x13 => m.objsClk ix
  | 0x14 => m.objsClk ix
  | 0x20 => m.objsTask ix
  | 0x21 => m.objsPlan ix
  | 0x22 => m.objsCe ix
  | 0x23 => m.objsAlarm ix
  | 0x24 => m.objsNet ix
  | 0x25 => m.objsCan ix
  | 0x26 => m.objsDio ix
  | 0x27 => m.objsAn ix
  | 0x28 => m.objsSi ix
  | 0x29 => m.objsEr ix
  | 0x2A => m.objsPmc ix
  | 0x2B => m.objsDisp ix
  | 0x2C => m.objsNet ix
  | 0x2F => m.objsEap ix
  | _ => []

end Sys2Proof.Machine
end

