-- ==== Sys2Proof/Machine/ObjWrite.lean ====
section
/-! DEFINITION. Reads of single objects with their side effects, and writes of single objects (R12, R13, R567, R568). -/

namespace Sys2Proof.Machine

/-! Reads. -/

/-- The read of an RC object: value and clearing (R12). -/
def Mod.readRcOf (m : Mod) (ix sub : Nat) : Mod × Nat × Bytes :=
  if ix = 0x1100 then m.readShadowLag
  else if ix = 0x1221 then m.readTcuPop (sub - 1)
  else if ix = 0x1301 then m.readVorMin
  else if 0x2010 ≤ ix ∧ ix < 0x2020 then (if sub = 9 then m.readExecMax (ix - 0x2010) else m.readMarginMin (ix - 0x2010))
  else if ix = 0x2201 then m.readLaneMax (sub - 1)
  else if 0x2220 ≤ ix ∧ ix < 0x2224 then m.readLoopMiss (128 * (ix - 0x2220) + sub - 1)
  else if ix = 0x2300 then m.readEvalMax
  else if ix = 0x2420 then m.readSharedLow
  else m.readNodeMiss (128 * (ix - 0x2442) + sub)
/-- The access takes one ROOT cycle, whose events come after the clearing (R15, log entry 105). -/
def Mod.readRc (m : Mod) (ix sub : Nat) : Mod × Nat × Bytes :=
  let r := m.readRcOf ix sub
  (r.1.pass 1, r.2)
/-- In `MAINTENANCE` only the identity and the clock and supply objects are read (R69). -/
def maintReads (ix : Nat) : Bool := ix == 0x1000 || ix == 0x1001 || ix == 0x1300 || ix == 0x1301
/-- The read of one object: the module after it, status and value (R567). -/
def Mod.readObj (m : Mod) (r : ObjRef) : Mod × Nat × Bytes :=
  let ix := r.index.toNat
  let sub := r.sub.toNat
  let objs := m.objects ix
  if m.maint && !maintReads ix then (m, stCondition, [])
  else if objs.isEmpty then (m, stNoObject, [])
  else if ix = 0x1400 ∧ m.bkp.locked then (m, stBkpLocked, [])
  else if sub = 0 then (m, stOk, natLe 1 ((objs.map (·.sub)).foldl Nat.max 0))
  else match objs.find? fun o => o.sub == sub with
  | none => (m, stNoObject, [])
  | some o =>
    if o.acc = .rc then m.readRc ix sub
    else (m, stOk, o.val)

/-! Writes. -/

/-- Bit `i` of a written word. -/
def wr1 (w i : Nat) (old : Bool) : Bool := old && !bitOf w i
/-- A W1C write of the identity, tandem, time, clock and backup ranges: each 1 written to a W1C bit clears it (R12). -/
def Mod.clearLow (m : Mod) (ix sub w : Nat) : Mod × Nat :=
  if ix = 0x1000 ∧ sub = 9 then
    ({ m with cas := { m.cas with rolledBack := wr1 w 10 m.cas.rolledBack, degraded := wr1 w 11 m.cas.degraded } }, stOk)
  else if ix = 0x1000 then
    ({ m with boot := { m.boot with stuckSeen := wr1 w 13 m.boot.stuckSeen, bankFallback := wr1 w 14 m.boot.bankFallback } }, stOk)
  else if ix = 0x1100 then (m.updIlk fun i => { i with glitch := wr1 w 22 i.glitch }, stOk)
  else if ix = 0x1200 then
    ({ m with ptp := { m.ptp with stepped := wr1 w 8 m.ptp.stepped, qualityFell := wr1 w 11 m.ptp.qualityFell } }, stOk)
  else if ix = 0x1210 then
    (m.updTou (sub - 1) fun u => { u with lateSeen := wr1 w 8 u.lateSeen, steppedSeen := wr1 w 9 u.steppedSeen, suppressed := wr1 w 10 u.suppressed }, stOk)
  else if ix = 0x1220 then (m.updTcu (sub - 1) fun u => { u with overflow := wr1 w 5 u.overflow, tooClose := wr1 w 6 u.tooClose }, stOk)
  else if ix = 0x1300 then ({ m with clk := { m.clk with stall := wr1 w 8 m.clk.stall, gateRefused := wr1 w 9 m.clk.gateRefused } }, stOk)
  else if ix = 0x1301 then ({ m with sup := { m.sup with pfSeen := wr1 w 5 m.sup.pfSeen } }, stOk)
  else m.bkpWrite fun b => { b with
    capUsed := wr1 w 4 b.capUsed, por := wr1 w 5 b.por,
    alms := mapFrom (fun i a => { a with fired := wr1 w (8 + i) a.fired, late := wr1 w (10 + i) a.late }) 0 b.alms,
    pwronFrom := if bitOf w 14 then none else b.pwronFrom }
/-- A W1C write of the ranges from `0x2000` on (R12). -/
def Mod.clearHigh (m : Mod) (ix sub w : Nat) : Mod :=
  if ix = 0x2000 then { m with change := { m.change with refused := wr1 w 6 m.change.refused } }
  else if 0x2010 ≤ ix ∧ ix < 0x2020 then
    m.updTask (ix - 0x2010) fun k => { k with replanned := wr1 w 8 k.replanned, haltPolicy := wr1 w 9 k.haltPolicy }
  else if ix = 0x2100 then
    { m with plan := { m.plan with pinsIgnored := wr1 w 6 m.plan.pinsIgnored, hashMismatch := wr1 w 7 m.plan.hashMismatch } }
  else if ix = 0x2200 then { m with ce := { m.ce with overrun := m.ce.overrun &&& ~~~BitVec.ofNat 4 (w / 4096) } }
  else if ix = 0x2300 then { m with ae := { m.ae with evalLate := wr1 w 3 m.ae.evalLate, pubGap := wr1 w 4 m.ae.pubGap } }
  else if ix = 0x2400 then { m with eth := { m.eth with exhausted := wr1 w 4 m.eth.exhausted } }
  else if ix = 0x2430 then m.updSpoke (sub - 1) fun p => { p with breakSeen := wr1 w 5 p.breakSeen }
  else if 0x2440 ≤ ix ∧ ix < 0x2442 then
    (if (m.nodeCfg (128 * (ix - 0x2440) + sub)).isSome then
      m.updNode (128 * (ix - 0x2440) + sub) fun n => { n with replaced := wr1 w 24 n.replaced } else m)
  else if ix = 0x2500 then m.updCan (sub - 1) fun c => { c with boffSeen := wr1 w 6 c.boffSeen, epassSeen := wr1 w 7 c.epassSeen }
  else if 0x2510 ≤ ix ∧ ix < 0x2518 then
    m.updCan ((ix - 0x2510) / 2) fun c =>
      { c with rx := upd c.rx (128 * ((ix - 0x2510) % 2) + sub - 1) fun r => { r with lostSeen := wr1 w 10 r.lostSeen } }
  else if ix = 0x2600 then
    { m with dio := { m.dio with encSupFault := wr1 w 3 m.dio.encSupFault, encSupSeen := wr1 w 3 m.dio.encSupSeen } }
  else if ix = 0x2601 then
    m.updDio (sub - 1) fun h => { h with extSeen := wr1 w 11 h.extSeen, thermSeen := wr1 w 12 h.thermSeen, darkSeen := wr1 w 13 h.darkSeen }
  else if ix = 0x2702 then m.updAi (sub - 1) fun h => { h with lsLimitSeen := wr1 w 7 h.lsLimitSeen }
  else if ix = 0x2706 then m.updAo (sub - 1) fun h => { h with seen := wr1 w 6 h.seen }
  else if ix = 0x2900 then { m with er := { m.er with droppedSeen := wr1 w 3 m.er.droppedSeen } }
  else if ix = 0x2A00 then { m with pmc := { m.pmc with wrapped := wr1 w 1 m.pmc.wrapped } }
  else if ix = 0x2B00 then { m with disp := { m.disp with fault := wr1 w 4 m.disp.fault } }
  else m
/-- A W1C write (R12): it takes one ROOT cycle, whose events come after the clearing (R15, log entry 105). -/
def Mod.clearBits (m : Mod) (ix sub w : Nat) : Mod × Nat :=
  let r := if ix < 0x2000 then m.clearLow ix sub w else (m.clearHigh ix sub w, stOk)
  (r.1.pass 1, r.2)

/-- The trace is armed or triggered: its descriptors are fixed (R241). -/
def Trace.fixed (t : Trace) : Bool := t.state == 1 || t.state == 2
/-- A write of `TRC_TRIG` (R239, R241). -/
def Mod.writeTrig (m : Mod) (v : Bytes) : Mod × Nat :=
  let t : TrcTrig := { tsrc := field v 0 1, edge := field v 1 1, arg := field v 2 1, lnum := field v 4 2, level := sfield v 6 2,
                       t := BitVec.ofNat 64 (field v 8 8) }
  let usesEdge := t.tsrc == 1 || t.tsrc == 2
  if m.ce.trc.fixed then (m, stBusy)
  else if 3 < t.tsrc ∨ usesEdge ∧ (t.edge = 0 ∨ 3 < t.edge ∨ 15 < t.arg) ∨ t.tsrc = 2 ∧ 511 < t.lnum then (m, stRange)
  else (m.updTrc fun k => { k with trig := t }, stOk)
/-- A write of `TRC_CH` (R237, R241). -/
def Mod.writeTrcCh (m : Mod) (n : Nat) (v : Bytes) : Mod × Nat :=
  let h : TrcCh := { src := field v 0 1, node := field v 1 1, lnum := field v 2 2, arg := field v 4 1, decim := field v 6 2 }
  if m.ce.trc.fixed then (m, stBusy)
  else if 2 < h.src ∨ h.src ≠ 0 ∧ 511 < h.lnum ∨ h.src ≠ 2 ∧ h.decim ≠ 1 ∨ h.src = 2 ∧ (4 < h.node ∨ h.decim = 0) then (m, stRange)
  else (m.updTrc fun k => { k with chs := put k.chs n h }, stOk)
/-- A write of `TRC_PRE` (R241, R244). -/
def Mod.writeTrcPre (m : Mod) (n : Nat) : Mod × Nat :=
  if m.ce.trc.fixed then (m, stBusy) else if 32767 < n then (m, stRange) else (m.updTrc fun k => { k with pre := n }, stOk)
/-- A write of `PMC_RING` (R540, R542). -/
def Mod.writePmcRing (m : Mod) (n : Nat) : Mod × Nat :=
  if n % 4 = 3 then (m, stRange) else ({ m with pmc := { m.pmc with ringSel := BitVec.ofNat 8 n &&& 0xF3 } }, stOk)
/-- The write of an RW or WO object. -/
def Mod.writeValue (m : Mod) (ix sub : Nat) (v : Bytes) : Mod × Nat :=
  let n := leNat v
  if ix = 0x1300 then (if sub = 4 then m.writeFmc (BitVec.ofNat 64 n) else m.writeClkSwitch (BitVec.ofNat 16 n))
  else if ix = 0x1400 then
    (if sub = 4 then m.writeRtcShift (BitVec.ofNat 16 n) else if sub = 5 then m.writeRtcSet (BitVec.ofNat 64 n)
     else m.writeAlm (sub - 6) (BitVec.ofNat 64 n))
  else if ix = 0x2232 then m.tabSwitch n
  else if ix = 0x2240 then (if sub = 2 then m.writeTrig v else m.writeTrcPre n)
  else if ix = 0x2241 then m.writeTrcCh (sub - 1) v
  else if ix = 0x2780 then m.ptRequest v
  else if ix = 0x2A00 then (if sub = 2 then m.writePmcClear (BitVec.ofNat 64 n) else m.writePmcRing n)
  else m.writePmcSel (sub - 1) (BitVec.ofNat 16 n)
/-- The least role that writes an object (R568, R506); none where no write is allowed. -/
def Obj.writeRole (o : Obj) (ix : Nat) : Option Nat :=
  match o.acc with
  | .w1c => some 2
  | .rw => some 3
  | .wo => some (if ix = 0x1300 ∧ o.sub = 7 then 4 else 3)
  | _ => none
/-- A value has a length that its object takes: `HART_PT_REQ` varies (R493, R567). -/
def Obj.fits (o : Obj) (ix : Nat) (v : Bytes) : Bool := v.length == o.size || (ix == 0x2780 && decide (v.length ≤ 244))
/-- The write of one object by a session: the module after it, and the status (R567, R568). -/
def Mod.writeObj (m : Mod) (role : Nat) (w : WriteItem) : Mod × Nat :=
  let ix := w.ref.index.toNat
  let sub := w.ref.sub.toNat
  let objs := m.objects ix
  if objs.isEmpty then (m, stNoObject)
  else if sub = 0 then (m, stAccess)
  else match objs.find? fun o => o.sub == sub with
  | none => (m, stNoObject)
  | some o =>
    match o.writeRole ix with
    | none => (m, stAccess)
    | some need =>
      if role < need then (m, stRole)
      else if m.maint && !(ix == 0x1300 && sub == 7) then (m, stCondition)
      else if !o.fits ix w.value then (m, stLength)
      else if o.acc = .w1c then m.clearBits ix sub (leNat w.value)
      else m.writeValue ix sub w.value

end Sys2Proof.Machine
end

