-- ==== Sys2Proof/Machine/Eap.lean ====
section
/-! DEFINITION. Sessions, READ, WRITE, subscriptions and notifications (19_engineering_access.md R556 to R570). -/

namespace Sys2Proof.Machine

/-! Sessions. -/

/-- TAI seconds of device time. -/
def Mod.taiSec (m : Mod) : Nat := m.tb.now / (1000000000 * unitsPerNs)
/-- A role as an entry gives it; the codes above 4 are no roles (R560; log entry 128). -/
def roleOf (n : Nat) : Nat := if n ≤ 4 then n else 0
/-- The role of a certificate under the credentials in use (R561): 0 where the client is refused. -/
def credRole (c : CredCfg) (cert : Cert) (port now : Nat) (unchecked : Bool) : Nat :=
  match cert.ca with
  | none => 0
  | some i =>
    match c.auths[i]? with
    | none => 0
    | some a =>
      if !unchecked && (decide (now < cert.notBefore) || decide (cert.notAfter < now)) then 0
      else match c.ents.find? fun e => e.ca == i && e.serial == cert.serial with
      | some e =>
        if (!unchecked && e.expires != 0 && decide (e.expires < now)) || !bitOf e.ports port then 0 else roleOf e.role
      | none => roleOf a.defrole
/-- The role under the fallback of R562, and whether the access is an open one, which is recorded. -/
def Mod.fallbackRole (m : Mod) (cert : Cert) : Nat × Bool :=
  if m.cas.ownerKey.isSome then (if cert.ownerSigned then 4 else 0, false)
  else if m.boot.maintStrap && cert.p256 then (4, true)
  else (0, false)
/-- The role with which a client is admitted, 0 for none; whether its access is an open one (R561, R562). -/
def Mod.admits (m : Mod) (cert : Cert) (port : Nat) : Nat × Bool :=
  if m.maint && m.eap.fallback then m.fallbackRole cert
  else
    let r := credRole m.cfg.cred cert port m.taiSec m.ptp.timeUnset
    (if m.maint && r != 1 && r != 4 then 0 else r, false)
/-- A handshake reaches the module: on a port in use and in service; in `MAINTENANCE` on P5 only; to the station address while the
module holds ACT (R69, R394, R556, R559). -/
def Mod.reaches (m : Mod) (port : Nat) (addr : EapAddr) : Bool :=
  m.portOn (ptpPort port) && !m.testing (ptpPort port + 1) && (!m.maint || port == 2) && (addr == .module || m.act)
/-- The sessions on a port's side are at their limit (R558). -/
def Mod.sessFull (m : Mod) (port : Nat) : Bool :=
  let n := (m.eap.sessions.filter fun s => (s.port == 2) == (port == 2)).length
  if port = 2 then decide (2 ≤ n) else decide (8 ≤ n)
/-- The record of an open access (R562); the spec gives it neither a type nor a code (free; log entry 1). -/
def Mod.logOpen (m : Mod) (serial : Nat) : Mod :=
  let a := m.draw
  let b := a.2.draw
  b.2.log a.1.toNat 5 b.1.toNat 0 (serialBytes serial)
/-- A session opens (R558, R559). -/
def Mod.openSession (m : Mod) (port role serial : Nat) (station : Bool) : Mod :=
  ({ m with eap := { m.eap with
      nextSess := m.eap.nextSess + 1
      sessions := m.eap.sessions ++
        [{ id := m.eap.nextSess, port := port, station := station, role := role, serial := serial, lastAt := m.mono }] } } : Mod).ltJudge
/-- The public key of the pair in OTP, X and Y big-endian (R557). -/
def Otp.pub (o : Otp) : Bytes :=
  match ptMul 256 (o.key % p256N) (some p256G) none with
  | some (x, y) => natBe 32 x ++ natBe 32 y
  | none => []
/-- The certificate with which the module authenticates itself (R557). -/
def Mod.certificate (m : Mod) (port : Nat) : Out := .certificate port m.otp.serial m.otp.pub m.otp.hwRev
/-- A DTLS handshake (R556 to R562): at most 4 start in a second, and one beyond the session limits is refused with an alert. -/
def Mod.handshake (m : Mod) (port : Nat) (addr : EapAddr) (cert : Cert) : Mod :=
  let recent := m.eap.shakes.filter fun t => decide (m.mono < t + phS 1)
  if !m.reaches port addr || decide (4 ≤ recent.length) then m
  else
    let m1 := { m with eap := { m.eap with shakes := recent ++ [m.mono] } }
    if m1.sessFull port || !cert.p256 then m1.send (.alert port)
    else
      let credUsed := !(m1.maint && m1.eap.fallback)
      let m2 := { m1 with eap := { m1.eap with unchecked := m1.eap.unchecked || (credUsed && m1.ptp.timeUnset) } }.send (m1.certificate port)
      let r := m2.admits cert port
      if r.1 = 0 then ({ m2 with eap := { m2.eap with authFail := m2.eap.authFail + 1 } } : Mod).send (.alert port)
      else
        let m3 := if r.2 then m2.logOpen cert.serial else m2
        m3.openSession port r.1 cert.serial (addr == .station)
/-- `EAP_HANDSHAKE`. -/
def execEapHandshake (port : Fin 3) (addr : EapAddr) (cert : Cert) (s : State) : Host.Outcome State Fault Refusal :=
  s.run fun m => m.whenLive fun m => m.handshake port addr cert
/-- `SESSION_TIMEOUT` (R558): 60 s after the last valid record. -/
def execSessionTimeout (sess : Nat) (s : State) : Host.Outcome State Fault Refusal :=
  s.run fun m => m.whenLive fun m =>
    m.onDue ((m.eap.sessions.find? fun k => k.id == sess).map fun k => k.lastAt + phS 60) fun m => m.endSessions fun k => k.id == sess
/-- `EAP_NOP` (R558). -/
def execEapNop (rq : Req) (s : State) : Host.Outcome State Fault Refusal :=
  s.run fun m => m.serve rq fun _ m => { m := m, ans := some (if m.maint then stCondition else stOk, []) }

/-! READ and WRITE. -/

/-- The results of a READ, in order; a result that no longer fits into the response answers `LENGTH` (R563, R567). -/
def Mod.readItems : List ObjRef → Mod → Bytes → Mod × Bytes
  | [], m, acc => (m, acc)
  | r :: t, m, acc =>
    let k := m.readObj r
    let b := readResult k.2.1 k.2.2
    if acc.length + b.length + 4 * t.length ≤ 1168 then Mod.readItems t k.1 (acc ++ b)
    else Mod.readItems t m (acc ++ readResult stLength [])
/-- The results of a WRITE: items are applied in order, each on its own (R567). -/
def Mod.writeItems (role : Nat) : List WriteItem → Mod → Bytes → Mod × Bytes
  | [], m, acc => (m, acc)
  | w :: t, m, acc => let k := m.writeObj role w; Mod.writeItems role t k.1 (acc ++ writeResult k.2)
/-- A request with `TGT` 1 to 256 is relayed to that node: one item (R568). -/
def Mod.relayItem (m : Mod) (rq : Req) (tgt cmd : Nat) (items : List WriteItem) : Served :=
  if m.maint then { m := m, ans := some (stCondition, []) }
  else match items with
  | [w] =>
    let r := m.relayNode rq tgt cmd w.ref w.value
    { m := r.1, ans := r.2.map fun st => (st, []) }
  | _ => { m := m, ans := some (if m.act then stLength else stNotActive, []) }
/-- A READ (R567, R568). -/
def Mod.eapRead (m : Mod) (rq : Req) (tgt : Nat) (items : List ObjRef) : Mod :=
  m.serve rq fun _ m =>
    if tgt ≠ 0 then m.relayItem rq tgt 5 (items.map fun r => { ref := r, value := [] })
    else if items.isEmpty || decide (16 < items.length) then { m := m, ans := some (stLength, []) }
    else let k := Mod.readItems items m []; { m := k.1, ans := some (stOk, k.2) }
/-- `EAP_READ`. -/
def execEapRead (rq : Req) (tgt : Nat) (items : List ObjRef) (s : State) : Host.Outcome State Fault Refusal :=
  s.run fun m => m.eapRead rq tgt items
/-- A WRITE (R567, R568); a relayed one needs the role that writes RW and WO objects. -/
def Mod.eapWrite (m : Mod) (rq : Req) (tgt : Nat) (items : List WriteItem) : Mod :=
  m.serve rq fun s m =>
    if tgt ≠ 0 then (if s.role < 3 then { m := m, ans := some (stRole, []) } else m.relayItem rq tgt 6 items)
    else if items.isEmpty then { m := m, ans := some (stLength, []) }
    else let k := Mod.writeItems s.role items m []; { m := k.1, ans := some (stOk, k.2) }
/-- `EAP_WRITE`. -/
def execEapWrite (rq : Req) (tgt : Nat) (items : List WriteItem) (s : State) : Host.Outcome State Fault Refusal :=
  s.run fun m => m.eapWrite rq tgt items

/-! Subscriptions. -/

/-- The next multiple of a trend's period after the present device time (R569). -/
def nextMultiple (now ms : Nat) : Nat := (now / unitsMs (Nat.max 1 ms) + 1) * unitsMs (Nat.max 1 ms)
/-- The status of a trend item (R569): an RO or RW object of at most 12 bytes. -/
def Mod.trendItem (m : Mod) (r : BitVec 16 × BitVec 8) : Nat :=
  let objs := m.objects r.1.toNat
  if objs.isEmpty then stNoObject
  else if r.2 = 0 then stOk
  else match objs.find? fun o => o.sub == r.2.toNat with
  | none => stNoObject
  | some o => if o.acc ≠ .ro ∧ o.acc ≠ .rw then stAccess else if 12 < o.val.length then stLength else stOk
/-- The status of a subscription request. -/
def Mod.judgeSub (m : Mod) (s : Session) (r : SubReq) : Nat :=
  if m.maint then stCondition
  else if 4 ≤ (m.eap.subs.filter fun k => k.sess == s.id).length ∨ 16 ≤ m.eap.subs.length then stBusy
  else match r with
  | .alarms _ => stOk
  | .events n => if 7 < n then stRange else stOk
  | .trend p items =>
    if p < 10 ∨ 60000 < p ∨ p % 10 ≠ 0 ∨ items.isEmpty ∨ 16 < items.length then stRange
    else ((items.map m.trendItem).find? (· != stOk)).getD stOk
  | .counters => if m.pmc.ringSel.toNat % 4 = 0 then stCondition else stOk
/-- The records of the ring from `SEQ` `n` on that a new subscriber takes, and how many it has missed; before `RESYNC` it takes none, and
misses what that record passes over (R261, R263, R569). -/
def Ae.recordsFrom (a : Ae) (n : BitVec 32) : List PubRec × Nat :=
  if n = 0xFFFFFFFF ∨ a.resync = true then ([], 0)
  else
    (a.ring.filter fun r => decide (0 ≤ (r.seq - n).toInt),
     let next := match a.ring.head? with | some r => r.seq | none => n
     if 0 < (next - n).toInt then (next - n).toNat else 0)
/-- The lowest identifier that no subscription has (log entry 17). -/
def Mod.freeSub (m : Mod) : BitVec 8 :=
  match (List.range 16).find? fun i => !m.eap.subs.any fun k => k.subid == BitVec.ofNat 8 (i + 1) with
  | some i => BitVec.ofNat 8 (i + 1)
  | none => 0
/-- A subscription opens (R569). -/
def Mod.openSub (m : Mod) (s : Session) (r : SubReq) : Mod :=
  let k : Sub := { subid := m.freeSub, sess := s.id, req := r }
  match r with
  | .alarms n =>
    let q := if m.act then m.ae.recordsFrom n else ([], 0)
    let ents := enumFrom m.eap.nextRec (q.1.map PubRec.bytes)
    let m1 : Mod := { m with
      eap := { m.eap with subs := m.eap.subs ++ [{ k with pend := ents, dropped := q.2, next := if n = 0xFFFFFFFF then none else some n }], nextRec := m.eap.nextRec + q.1.length }
      ae := if 0 < q.2 then { m.ae with pubGap := true } else m.ae }
    m1.trimPending s.id
  | .trend p _ => { m with eap := { m.eap with subs := m.eap.subs ++ [{ k with sampleAt := nextMultiple m.tb.now p }] } }
  | _ => { m with eap := { m.eap with subs := m.eap.subs ++ [k] } }
/-- `SUBSCRIBE` (R569). -/
def execSubscribe (rq : Req) (r : SubReq) (s : State) : Host.Outcome State Fault Refusal :=
  s.run fun m => m.serve rq fun c m =>
    let st := m.judgeSub c r
    if st = stOk then { m := m.openSub c r, ans := some (stOk, natLe 1 m.freeSub.toNat ++ [0, 0, 0]) }
    else { m := m, ans := some (st, []) }
/-- A subscription is ended by its session (R569). -/
def Mod.closeSub (m : Mod) (s : Session) (subid : BitVec 8) : Served :=
  let mine (k : Sub) : Bool := k.subid == subid && k.sess == s.id
  if m.maint || !m.eap.subs.any mine then { m := m, ans := some (stCondition, []) }
  else { m := { m with eap := { m.eap with subs := m.eap.subs.filter fun k => !mine k } }, ans := some (stOk, []) }
/-- `UNSUBSCRIBE` (R569). -/
def execUnsubscribe (rq : Req) (subid : BitVec 8) (s : State) : Host.Outcome State Fault Refusal :=
  s.run fun m => m.serve rq fun c m => m.closeSub c subid

/-! Notifications. -/

/-- How many of the pending records, in order, fit into `room` bytes (R570). -/
def fitting : Nat → List (Nat × Bytes) → Nat
  | _, [] => 0
  | room, e :: t => if e.2.length ≤ room then fitting (room - e.2.length) t + 1 else 0
/-- The four bytes that a `GAP` puts before the records (R570). -/
def Mod.gapWord (m : Mod) (k : Sub) : Bytes :=
  match k.req with
  | .alarms _ => natLe 4 (match m.ae.ring.head? with | some r => r.seq.toNat | none => (m.ae.seq + 1).toNat)
  | _ => natLe 4 k.dropped
/-- A subscription has something to send: stream 1 only while the module holds ACT (R569, R570). -/
def Mod.notifies (m : Mod) (k : Sub) : Bool :=
  (!k.pend.isEmpty || decide (0 < k.dropped)) && (match k.req with | .alarms _ => m.act | _ => true)
/-- A `NOTIFY` goes to its session's port with every pending record that fits (R570). -/
def Mod.notifyNow (m : Mod) (k : Sub) : Mod :=
  let gap := if 0 < k.dropped then m.gapWord k else []
  let n := fitting (1168 - 4 - gap.length) k.pend
  let body := natLe 1 k.subid.toNat ++ natLe 1 (b2n (decide (0 < k.dropped))) ++ natLe 2 n ++ gap ++ ((k.pend.take n).map (·.2)).flatten
  let next (q : Sub) : Sub :=
    if q.subid = k.subid then { q with pend := q.pend.drop n, dropped := 0, notifyAt := some (m.mono + phMs 10) } else q
  (({ m with eap := { m.eap with subs := m.eap.subs.map next } } : Mod).eapFrame k.sess body).send (.notify k.sess body)
/-- `NOTIFY_SEND` (R570): not before 10 ms after the last one of the subscription. -/
def execNotifySend (subid : BitVec 8) (s : State) : Host.Outcome State Fault Refusal :=
  s.run fun m => m.whenLive fun m =>
    match m.eap.subs.find? fun k => k.subid == subid with
    | none => m
    | some k => if m.notifies k then (m.to (k.notifyAt.getD m.mono)).notifyNow k else m
/-- The values of trend items, each padded to 4 bytes (R569); a value that cannot be read is free (log entry 1). -/
def Mod.trendValues : List (BitVec 16 × BitVec 8) → Mod → Bytes → Mod × Bytes
  | [], m, acc => (m, acc)
  | r :: t, m, acc =>
    let k := m.readObj { index := r.1, sub := r.2 }
    let pad (b : Bytes) : Bytes := b ++ List.replicate ((4 - b.length % 4) % 4) 0
    if k.2.1 = stOk then Mod.trendValues t k.1 (acc ++ pad k.2.2)
    else
      let d := m.draw
      let size := match (m.objects r.1.toNat).find? fun o => o.sub == r.2.toNat with | some o => o.val.length | none => 1
      Mod.trendValues t d.2 (acc ++ pad (natLe size d.1.toNat))
/-- A trend is sampled (R569). -/
def Mod.sampleTrend (m : Mod) (k : Sub) (p : Nat) (items : List (BitVec 16 × BitVec 8)) : Mod :=
  let v := Mod.trendValues items m []
  let r := natLe 12 (dtimeOf k.sampleAt).toNat ++ v.2
  let add (q : Sub) : Sub :=
    if q.subid = k.subid then { q with pend := q.pend ++ [(m.eap.nextRec, r)], sampleAt := k.sampleAt + unitsMs (Nat.max 1 p) } else q
  ({ v.1 with eap := { v.1.eap with nextRec := v.1.eap.nextRec + 1, subs := v.1.eap.subs.map add } } : Mod).trimPending k.sess
/-- `TREND_SAMPLE` (R569): device time runs on to the next multiple of the period. -/
def execTrendSample (subid : BitVec 8) (s : State) : Host.Outcome State Fault Refusal :=
  s.run fun m => m.whenLive fun m =>
    match m.eap.subs.find? fun k => k.subid == subid with
    | none => m
    | some k => match k.req with
      | .trend p items => (m.toNow k.sampleAt).sampleTrend k p items
      | _ => m

end Sys2Proof.Machine
end

