-- ==== Sys2Proof/Machine/Island.lean ====
section
/-! DEFINITION. The commands of the safety island (11_safety_island.md). The module's resets and ACT do not gate them (R357). -/

namespace Sys2Proof.Machine

/-- `f` on the island at the present instant, while it is powered and runs. -/
def Mod.island (m : Mod) (f : Si → Nat → Si) : Mod :=
  if m.si.powered && m.si.started then { m with si := f m.si m.mono } else m
/-- An instant of the island comes: time runs on to it, then `f`; nothing is due of an island that does not run. -/
def Mod.islandDue (m : Mod) (due : Option Nat) (f : Si → Nat → Si) : Mod :=
  if m.si.powered && m.si.started then m.onDue due fun k => k.island f else m
/-- The next instant of a grid of the island with a period and an offset, in phases. -/
def Si.grid (s : Si) (period offset now : Nat) : Nat :=
  let base := s.startAt + offset
  if now < base then base else base + ((now - base) / period + 1) * period
/-- `BT_REQ`n as the island reads it (R378). -/
def Mod.btReqLine (m : Mod) (n : Nat) : Bool := m.act && at_ m.btReq n false
/-- `BT_TORQUE`n as the island reads it (R236, R378): the value in effect on its port. -/
def Mod.btTorqueLine (m : Mod) (n : Nat) : Bool := m.act && decide (SMap.get 0 m.ce.eff (0x98 + n) ≠ 0)
/-- A brake changed. -/
def Si.updBrake (s : Si) (n : Nat) (f : Brake → Brake) : Si := { s with brakes := upd s.brakes n f }
/-- A brake. -/
def Si.brake (s : Si) (n : Nat) : Brake := at_ s.brakes n {}

/-- `SI_CYCLE` (R367, R365, R373 to R380): the next 250 µs cycle. -/
def execSiCycle (inp : SiIn) (s : State) : Host.Outcome State Fault Refusal :=
  s.run fun m => m.islandDue (some (m.si.grid (phUs 250) 0 m.mono)) fun k now => k.cycle inp now
/-- `SI_FILTER_ELAPSED` (R367). -/
def execSiFilterElapsed (pair : Fin 9) (chB : Bool) (s : State) : Host.Outcome State Fault Refusal :=
  s.run fun m =>
    let p := at_ m.si.pairs pair {}
    let due : Option Nat := if chB then (if p.b then none else some (m.si.filterDue pair true p.openB))
                            else (if p.a then none else some (m.si.filterDue pair false p.openA))
    m.islandDue due fun k now => k.filterElapsed pair chB now
/-- `TEST_PULSE` (R366, R368): the mask window of a source ends; TP2's pulses lie 5 ms after TP1's. -/
def execTestPulse (tp2 : Bool) (high : BitVec 9) (s : State) : Host.Outcome State Fault Refusal :=
  s.run fun m => m.islandDue (some (m.si.grid (phMs 10) ((if tp2 then phMs 5 else 0) + phUs 200) m.mono)) fun k _ =>
    (k.testPulse tp2 high).noteFaults
/-- `SI_DISCREPANCY_TIMEOUT` (R369). -/
def execSiDiscrepancyTimeout (pair : Fin 9) (s : State) : Host.Outcome State Fault Refusal :=
  s.run fun m => m.islandDue (at_ m.si.pairs pair {}).discAt fun k now => k.discrepancy pair now
/-- `SI_OUTPUT_TEST` (R372, R373). -/
def execSiOutputTest (out : Fin 7) (highSide : Bool) (res : OutTest) (s : State) : Host.Outcome State Fault Refusal :=
  s.run fun m => m.islandDue (some (m.si.testDue out highSide)) fun k now => k.outputTest out highSide res now
/-- `AUTO_RESTART_ELAPSED` (R374). -/
def execAutoRestartElapsed (grp : Fin 2) (s : State) : Host.Outcome State Fault Refusal :=
  s.run fun m => m.islandDue (if swAuto m.si.img then (at_ m.si.groups grp {}).condFrom.map (· + phMs 100) else none) fun k now =>
    if k.groupReady grp then k.energise grp now else k
/-- `SI_MANUAL_RESET` (R374). -/
def execSiManualReset (s : State) : Host.Outcome State Fault Refusal := s.run fun m => m.island fun k now => k.manualReset now
/-- The instant at which a reset input that is still closed has been held for 5 s (R374). -/
def Si.heldDue (s : Si) : Option Nat :=
  match s.rstA, s.rstB with
  | some x, some y => some (Nat.max x y + phS 5)
  | _, _ => none
/-- `RESET_HELD` (R374). -/
def execResetHeld (s : State) : Host.Outcome State Fault Refusal :=
  s.run fun m => m.islandDue m.si.heldDue fun k now => k.holdReset now
/-- `EDM_TIMEOUT` (R376). -/
def execEdmTimeout (out : Fin 4) (s : State) : Host.Outcome State Fault Refusal :=
  s.run fun m => m.islandDue (at_ m.si.outs out {}).edmAt fun k now => k.edmTimeout out now

/-! Reports. -/

/-- The ER record of an event of the island: fault change, demand, brake-test result (R360, R530). -/
def Mod.logIsland (m : Mod) (e : Nat × Nat × Nat) : Mod :=
  match e.1 with
  | 0 => m.log 9 6 0x72 e.2.1 (natLe 4 e.2.2)
  | 1 => m.log 9 5 0x70 e.2.1 (natLe 4 e.2.2)
  | _ => m.log 9 5 0x71 e.2.1 (natLe 4 e.2.2)
/-- A report reaches the main side (R360): objects and records; the island's events are reported once. -/
def Mod.islandReport (m : Mod) : Mod :=
  let m1 : Mod := { m with si := { m.si with rep := m.si.report m.mono, repAt := some m.mono, statusValid := true,
                                             reportDue := m.mono + phMs 10, events := [] } }
  m.si.events.foldl Mod.logIsland m1
/-- `SI_STATUS_REPORT` (R360): every 10 ms, from a powered island. -/
def execSiStatusReport (s : State) : Host.Outcome State Fault Refusal :=
  s.run fun m => m.whenLive fun m => if m.si.powered then (m.to m.si.reportDue).islandReport else m
/-- `SI_STATUS_TIMEOUT` (R388): 30 ms without a report. -/
def execSiStatusTimeout (s : State) : Host.Outcome State Fault Refusal :=
  s.run fun m => m.whenLive fun m => m.onDue (m.si.repAt.map (· + phMs 30)) fun m => { m with si := { m.si with statusValid := false } }

/-! Switches, supply, start. -/

/-- `SWITCH_CHANGE` (R365). -/
def execSwitchChange (img : BitVec 16) (s : State) : Host.Outcome State Fault Refusal :=
  s.run fun m => m.island fun k now => if img.toNat = k.img then k else { k with swChanged := true, swRead := img.toNat }.settle now
/-- `EXPECTED_REREAD` (R364, R365): 60 s after the last read. -/
def execExpectedReread (s : State) : Host.Outcome State Fault Refusal :=
  s.run fun m => if m.si.powered && m.si.started then
      m.onDue (some (m.si.lastRead + phS 60)) fun k => { k with cas := k.cas.islandReads, si := k.si.reread k.cas.safetyExpected k.mono }
    else m
/-- `SI_SUPPLY_TRIP` (R358, R384). -/
def execSiSupplyTrip (s : State) : Host.Outcome State Fault Refusal :=
  s.run fun m => if m.si.powered then { m with si := m.si.trip m.mono } else m
/-- `SI_OSCILLATOR_FAULT` (R358, R384): the second oscillator finds the first outside its ±30 % window. -/
def execSiOscillatorFault (s : State) : Host.Outcome State Fault Refusal :=
  s.run fun m => if m.si.powered then { m with si := { m.si with core := true }.settle m.mono } else m
/-- The island starts (R364, R365, R385): the SI image of the bank that R66 selects must verify, and against the island's own key hash
(`imageOk`); it reads switches and `SAFETY_EXPECTED`. -/
def Mod.startIsland (m : Mod) (img : Nat) (imageOk : Bool) : Mod :=
  let bank := if (pickBank m.bankA m.bankB).1 then m.bankB else m.bankA
  { m with cas := m.cas.islandReads, si := m.si.start img (imageOk && bank.si.good) m.cas.safetyExpected m.mono }
/-- `SI_START` (R357, R385): only after the island's supply monitor has cycled, and with its input valid again. -/
def execSiStart (img : BitVec 16) (imageOk : Bool) (s : State) : Host.Outcome State Fault Refusal :=
  s.run fun m =>
    if !m.si.cycled || m.si.monLow && decide (m.sup.vorMv < 5300) then m else m.startIsland img.toNat imageOk
/-- `UFS_LOW` (R384). -/
def execUfsLow (s : State) : Host.Outcome State Fault Refusal :=
  s.run fun m => m.island fun k now => { k with ufsLow := true }.settle now
/-- `UB_LOW` (R384): with an SBC energised. -/
def execUbLow (s : State) : Host.Outcome State Fault Refusal :=
  s.run fun m => m.island fun k now =>
    if (at_ k.outs 4 {}).on || (at_ k.outs 5 {}).on then { k with ubLow := true }.settle now else k

/-! Brake tests. -/

/-- `BT_REQ_RISE` (R378, R379). -/
def execBtReqRise (n : Fin 2) (s : State) : Host.Outcome State Fault Refusal :=
  s.run fun m => m.island fun k now =>
    if m.btReqLine n && !(k.brake n).req then
      (k.updBrake n fun b => { b with req := true, st := .checking, cause := 0 }).settle now
    else k
/-- The request of a brake has fallen (R379): a test in progress aborts; the brake is idle. -/
def Si.btReqFalls (s : Si) (n now : Nat) : Si :=
  let b := s.brake n
  let s1 := if b.st = .granted ∨ b.st = .running then s.btEnd n .aborted 3 else s
  (s1.updBrake n fun b => { b with req := false, st := .idle }).settle now
/-- `BT_REQ_FALL` (R379). -/
def execBtReqFall (n : Fin 2) (s : State) : Host.Outcome State Fault Refusal :=
  s.run fun m => m.island fun k now => if (k.brake n).req && !m.btReqLine n then k.btReqFalls n now else k
/-- `BT_TORQUE_RISE` (R379): the test of a granted brake runs. -/
def execBtTorqueRise (n : Fin 2) (s : State) : Host.Outcome State Fault Refusal :=
  s.run fun m => m.island fun k now =>
    if m.btTorqueLine n then
      (k.updBrake n fun b => { b with torque := true, at_ := if b.st = .granted then now else b.at_,
                                      st := if b.st = .granted then .running else b.st }).settle now
    else k
/-- `BT_TORQUE_FALL` (R379). -/
def execBtTorqueFall (n : Fin 2) (s : State) : Host.Outcome State Fault Refusal :=
  s.run fun m => m.island fun k now =>
    if m.btTorqueLine n then k
    else
      let k1 := if (k.brake n).st = .running then k.btEnd n .aborted 4 else k
      (k1.updBrake n fun b => { b with torque := false }).settle now
/-- `BT_TORQUE_TIMEOUT` (R379). -/
def execBtTorqueTimeout (n : Fin 2) (s : State) : Host.Outcome State Fault Refusal :=
  s.run fun m =>
    let b := m.si.brake n
    m.islandDue (if b.st = .granted then some (b.at_ + phS 10) else none) fun k now => (k.btEnd n .aborted 5).settle now
/-- `BT_TEST_TIME_ELAPSED` (R379). -/
def execBtTestTimeElapsed (n : Fin 2) (s : State) : Host.Outcome State Fault Refusal :=
  s.run fun m =>
    let b := m.si.brake n
    m.islandDue (if b.st = .running then some (b.at_ + phS (swTestS m.si.img)) else none) fun k now =>
      (if (k.senc - (k.brake n).slipBase).natAbs ≤ swSlip k.img then (k.btEnd n .pass 0).updBrake n fun b => { b with runFrom := now }
       else k.btEnd n .fail 0).settle now
/-- The instant at which brake `n` has been powered for `t` since its last pass. -/
def Si.spentDue (s : Si) (n t : Nat) : Nat := (s.brake n).runFrom + (t - (s.brake n).spent)
/-- `BRAKE_TEST_DUE` (R380). -/
def execBrakeTestDue (n : Fin 2) (s : State) : Host.Outcome State Fault Refusal :=
  s.run fun m =>
    let due : Option Nat := if hasBrakeTest (swFunc m.si.img) n then (intervalPh m.si.img).map (m.si.spentDue n) else none
    m.islandDue due fun k now => (k.updBrake n fun b => { b with due := true }).settle now
/-- `BRAKE_TEST_OVERDUE` (R380): a further 10 % of the interval. -/
def execBrakeTestOverdue (n : Fin 2) (s : State) : Host.Outcome State Fault Refusal :=
  s.run fun m =>
    let due : Option Nat := if hasBrakeTest (swFunc m.si.img) n then (intervalPh m.si.img).map fun i => m.si.spentDue n (i + i / 10) else none
    m.islandDue due fun k now => (k.updBrake n fun b => { b with due := true, overdue := true }).settle now

end Sys2Proof.Machine
end

