-- ==== Sys2Proof/Machine/Dispatch.lean ====
section
/-! DEFINITION. One arm per command: the dispatch to its meaning. -/

namespace Sys2Proof.Machine

/-- The effect of a command on everything but the queue. -/
def exec (i : Instr) (s : State) : Host.Outcome State Fault Refusal :=
  match i with
  | .lockstepMismatch pair => Sys2Proof.Machine.execLockstepMismatch pair s
  | .uncorrectableEcc src => Sys2Proof.Machine.execUncorrectableEcc src s
  | .correctableEcc src => Sys2Proof.Machine.execCorrectableEcc src s
  | .watchdogExpiry pair => Sys2Proof.Machine.execWatchdogExpiry pair s
  | .firmwareException pair => Sys2Proof.Machine.execFirmwareException pair s
  | .claimKeeperExpiry => Sys2Proof.Machine.execClaimKeeperExpiry s
  | .outputTimeout o => Sys2Proof.Machine.execOutputTimeout o s
  | .ilkPeerChange mv held50 => Sys2Proof.Machine.execIlkPeerChange mv held50 s
  | .actLatchSet => Sys2Proof.Machine.execActLatchSet s
  | .outputEnable => Sys2Proof.Machine.execOutputEnable s
  | .failedRestart => Sys2Proof.Machine.execFailedRestart s
  | .resetRelease obs => Sys2Proof.Machine.execResetRelease obs s
  | .internalReset => Sys2Proof.Machine.execInternalReset s
  | .resetPinPress => Sys2Proof.Machine.execResetPinPress s
  | .resetStuck obs => Sys2Proof.Machine.execResetStuck obs s
  | .pendingWriteResume => Sys2Proof.Machine.execPendingWriteResume s
  | .journalWindowWrite => Sys2Proof.Machine.execJournalWindowWrite s
  | .commitWindowComplete => Sys2Proof.Machine.execCommitWindowComplete s
  | .cadenceTick => Sys2Proof.Machine.execCadenceTick s
  | .cycleFinish task execNs => Sys2Proof.Machine.execCycleFinish task execNs s
  | .applyInstant task => Sys2Proof.Machine.execApplyInstant task s
  | .onlinePlanDone => Sys2Proof.Machine.execOnlinePlanDone s
  | .onlinePrepareDone => Sys2Proof.Machine.execOnlinePrepareDone s
  | .bProposalTimeout => Sys2Proof.Machine.execBProposalTimeout s
  | .replanSwitch => Sys2Proof.Machine.execReplanSwitch s
  | .frameBoundary => Sys2Proof.Machine.execFrameBoundary s
  | .ceNop lane => Sys2Proof.Machine.execCeNop lane s
  | .ceEnd lane => Sys2Proof.Machine.execCeEnd lane s
  | .ceLdx lane x w => Sys2Proof.Machine.execCeLdx lane x w s
  | .ceStx lane x w => Sys2Proof.Machine.execCeStx lane x w s
  | .ceLdi lane x imm => Sys2Proof.Machine.execCeLdi lane x imm s
  | .ceLda lane a w => Sys2Proof.Machine.execCeLda lane a w s
  | .ceSta lane a w => Sys2Proof.Machine.execCeSta lane a w s
  | .ceStq lane a w => Sys2Proof.Machine.execCeStq lane a w s
  | .ceMovq lane x a => Sys2Proof.Machine.execCeMovq lane x a s
  | .ceLdax lane a x => Sys2Proof.Machine.execCeLdax lane a x s
  | .ceMova lane a b => Sys2Proof.Machine.execCeMova lane a b s
  | .ceIn lane x p => Sys2Proof.Machine.execCeIn lane x p s
  | .ceOut lane x p => Sys2Proof.Machine.execCeOut lane x p s
  | .ceMpy lane a x y => Sys2Proof.Machine.execCeMpy lane a x y s
  | .ceMac lane a x y => Sys2Proof.Machine.execCeMac lane a x y s
  | .ceMsu lane a x y => Sys2Proof.Machine.execCeMsu lane a x y s
  | .ceAdda lane a b => Sys2Proof.Machine.execCeAdda lane a b s
  | .ceSuba lane a b => Sys2Proof.Machine.execCeSuba lane a b s
  | .ceAddx lane a x => Sys2Proof.Machine.execCeAddx lane a x s
  | .ceSubx lane a x => Sys2Proof.Machine.execCeSubx lane a x s
  | .ceAddq lane x y => Sys2Proof.Machine.execCeAddq lane x y s
  | .ceSubq lane x y => Sys2Proof.Machine.execCeSubq lane x y s
  | .ceNega lane a => Sys2Proof.Machine.execCeNega lane a s
  | .ceAbsa lane a => Sys2Proof.Machine.execCeAbsa lane a s
  | .ceSha lane a sh => Sys2Proof.Machine.execCeSha lane a sh s
  | .ceLima lane a x y => Sys2Proof.Machine.execCeLima lane a x y s
  | .ceCmpa lane a x => Sys2Proof.Machine.execCeCmpa lane a x s
  | .ceBr lane c t => Sys2Proof.Machine.execCeBr lane c t s
  | .ceTbl lane x tb e => Sys2Proof.Machine.execCeTbl lane x tb e s
  | .ceTblf lane x tb e => Sys2Proof.Machine.execCeTblf lane x tb e s
  | .ceTrc lane x ch => Sys2Proof.Machine.execCeTrc lane x ch s
  | .ceFlg lane set clr => Sys2Proof.Machine.execCeFlg lane set clr s
  | .tabSwitch rq n => Sys2Proof.Machine.execTabSwitch rq n s
  | .alarmOnDelayExpiry pnum => Sys2Proof.Machine.execAlarmOnDelayExpiry pnum s
  | .alarmOffDelayExpiry pnum => Sys2Proof.Machine.execAlarmOffDelayExpiry pnum s
  | .shelvingExpiry pnum => Sys2Proof.Machine.execShelvingExpiry pnum s
  | .suppressionRelease grp => Sys2Proof.Machine.execSuppressionRelease grp s
  | .alarmAck rq num occ => Sys2Proof.Machine.execAlarmAck rq num occ s
  | .alarmShelve rq num mins => Sys2Proof.Machine.execAlarmShelve rq num mins s
  | .alarmUnshelve rq num => Sys2Proof.Machine.execAlarmUnshelve rq num s
  | .alarmOutOfService rq num => Sys2Proof.Machine.execAlarmOutOfService rq num s
  | .alarmReturnToService rq num => Sys2Proof.Machine.execAlarmReturnToService rq num s
  | .alarmAckGroup rq num => Sys2Proof.Machine.execAlarmAckGroup rq num s
  | .alarmAckAll rq => Sys2Proof.Machine.execAlarmAckAll rq s
  | .alarmFoReset rq num => Sys2Proof.Machine.execAlarmFoReset rq num s
  | .foCandidate msg => Sys2Proof.Machine.execFoCandidate msg s
  | .foDecided msg => Sys2Proof.Machine.execFoDecided msg s
  | .foReset msg => Sys2Proof.Machine.execFoReset msg s
  | .foSettleExpiry grp => Sys2Proof.Machine.execFoSettleExpiry grp s
  | .foPartialDecision grp => Sys2Proof.Machine.execFoPartialDecision grp s
  | .ptpSync h x => Sys2Proof.Machine.execPtpSync h x s
  | .ptpAnnounce a => Sys2Proof.Machine.execPtpAnnounce a s
  | .ptpDelayMessage port peer request h delayNs => Sys2Proof.Machine.execPtpDelayMessage port peer request h delayNs s
  | .ptpManagement port get h => Sys2Proof.Machine.execPtpManagement port get h s
  | .announceReceiptTimeout => Sys2Proof.Machine.execAnnounceReceiptTimeout s
  | .holdoverLimit => Sys2Proof.Machine.execHoldoverLimit s
  | .leapSecond => Sys2Proof.Machine.execLeapSecond s
  | .touFire u => Sys2Proof.Machine.execTouFire u s
  | .touPulseEnd u => Sys2Proof.Machine.execTouPulseEnd u s
  | .tcuCapture u rising phase => Sys2Proof.Machine.execTcuCapture u rising phase s
  | .tcuPop rq u => Sys2Proof.Machine.execTcuPop rq u s
  | .actAtMessage msg => Sys2Proof.Machine.execActAtMessage msg s
  | .frameLaunch p q => Sys2Proof.Machine.execFrameLaunch p q s
  | .gateListEntry p => Sys2Proof.Machine.execGateListEntry p s
  | .bellSend => Sys2Proof.Machine.execBellSend s
  | .bellFrame frame => Sys2Proof.Machine.execBellFrame frame s
  | .heartbeatFrame bits => Sys2Proof.Machine.execHeartbeatFrame bits s
  | .bellPathSilent path => Sys2Proof.Machine.execBellPathSilent path s
  | .bellPathRestored path => Sys2Proof.Machine.execBellPathRestored path s
  | .standbyClaim => Sys2Proof.Machine.execStandbyClaim s
  | .slotAClaimExpiry => Sys2Proof.Machine.execSlotAClaimExpiry s
  | .claimWithdrawRecheck => Sys2Proof.Machine.execClaimWithdrawRecheck s
  | .openWaitExpiry => Sys2Proof.Machine.execOpenWaitExpiry s
  | .peerBlockedTimeout => Sys2Proof.Machine.execPeerBlockedTimeout s
  | .offlineRedecide => Sys2Proof.Machine.execOfflineRedecide s
  | .partnerGone => Sys2Proof.Machine.execPartnerGone s
  | .detachReasonClear => Sys2Proof.Machine.execDetachReasonClear s
  | .shadowSegment seg => Sys2Proof.Machine.execShadowSegment seg s
  | .hello h => Sys2Proof.Machine.execHello h s
  | .bPropose b num => Sys2Proof.Machine.execBPropose b num s
  | .bAck num => Sys2Proof.Machine.execBAck num s
  | .hoReq reason => Sys2Proof.Machine.execHoReq reason s
  | .hoSet th => Sys2Proof.Machine.execHoSet th s
  | .hoAck th => Sys2Proof.Machine.execHoAck th s
  | .hoCancel cause => Sys2Proof.Machine.execHoCancel cause s
  | .resyncReq bseq => Sys2Proof.Machine.execResyncReq bseq s
  | .relay f offset data => Sys2Proof.Machine.execRelay f offset data s
  | .relayAck f crc => Sys2Proof.Machine.execRelayAck f crc s
  | .twinLinkLaneChange l up => Sys2Proof.Machine.execTwinLinkLaneChange l up s
  | .handoverAckTimeout => Sys2Proof.Machine.execHandoverAckTimeout s
  | .handoverRelease => Sys2Proof.Machine.execHandoverRelease s
  | .handoverTake => Sys2Proof.Machine.execHandoverTake s
  | .resyncTimeout => Sys2Proof.Machine.execResyncTimeout s
  | .patrolTest t pass late => Sys2Proof.Machine.execPatrolTest t pass late s
  | .healthRecompute tempC ownPinOk => Sys2Proof.Machine.execHealthRecompute tempC ownPinOk s
  | .swapHoldExpiry => Sys2Proof.Machine.execSwapHoldExpiry s
  | .revertDelayExpiry => Sys2Proof.Machine.execRevertDelayExpiry s
  | .siCycle inp => Sys2Proof.Machine.execSiCycle inp s
  | .siFilterElapsed pair chB => Sys2Proof.Machine.execSiFilterElapsed pair chB s
  | .testPulse tp2 high => Sys2Proof.Machine.execTestPulse tp2 high s
  | .siDiscrepancyTimeout pair => Sys2Proof.Machine.execSiDiscrepancyTimeout pair s
  | .siOutputTest out highSide res => Sys2Proof.Machine.execSiOutputTest out highSide res s
  | .autoRestartElapsed grp => Sys2Proof.Machine.execAutoRestartElapsed grp s
  | .siManualReset => Sys2Proof.Machine.execSiManualReset s
  | .resetHeld => Sys2Proof.Machine.execResetHeld s
  | .edmTimeout out => Sys2Proof.Machine.execEdmTimeout out s
  | .siStatusReport => Sys2Proof.Machine.execSiStatusReport s
  | .switchChange img => Sys2Proof.Machine.execSwitchChange img s
  | .expectedReread => Sys2Proof.Machine.execExpectedReread s
  | .siSupplyTrip => Sys2Proof.Machine.execSiSupplyTrip s
  | .siOscillatorFault => Sys2Proof.Machine.execSiOscillatorFault s
  | .siStart img imageOk => Sys2Proof.Machine.execSiStart img imageOk s
  | .btReqRise n => Sys2Proof.Machine.execBtReqRise n s
  | .btReqFall n => Sys2Proof.Machine.execBtReqFall n s
  | .btTorqueRise n => Sys2Proof.Machine.execBtTorqueRise n s
  | .btTorqueFall n => Sys2Proof.Machine.execBtTorqueFall n s
  | .btTorqueTimeout n => Sys2Proof.Machine.execBtTorqueTimeout n s
  | .btTestTimeElapsed n => Sys2Proof.Machine.execBtTestTimeElapsed n s
  | .brakeTestDue n => Sys2Proof.Machine.execBrakeTestDue n s
  | .brakeTestOverdue n => Sys2Proof.Machine.execBrakeTestOverdue n s
  | .ufsLow => Sys2Proof.Machine.execUfsLow s
  | .ubLow => Sys2Proof.Machine.execUbLow s
  | .frameReceive f => Sys2Proof.Machine.execFrameReceive f s
  | .arpRequest p ip asker => Sys2Proof.Machine.execArpRequest p ip asker s
  | .icmpEcho p ip asker => Sys2Proof.Machine.execIcmpEcho p ip asker s
  | .supervisionFrame => Sys2Proof.Machine.execSupervisionFrame s
  | .portLinkChange p up speed => Sys2Proof.Machine.execPortLinkChange p up speed s
  | .spokeSyncLaunch sp => Sys2Proof.Machine.execSpokeSyncLaunch sp s
  | .spokeTimeOnlySync sp => Sys2Proof.Machine.execSpokeTimeOnlySync sp s
  | .spokeOutLaunch sp => Sys2Proof.Machine.execSpokeOutLaunch sp s
  | .spokeInFrame sp sideB cycle node nstat inp => Sys2Proof.Machine.execSpokeInFrame sp sideB cycle node nstat inp s
  | .spokeMgmtReply sp mseq reply => Sys2Proof.Machine.execSpokeMgmtReply sp mseq reply s
  | .spokeNodeLost node => Sys2Proof.Machine.execSpokeNodeLost node s
  | .spokeDelayRecheck node => Sys2Proof.Machine.execSpokeDelayRecheck node s
  | .splitEnd sp => Sys2Proof.Machine.execSplitEnd sp s
  | .linkTestStart rq link mode pattern word dur => Sys2Proof.Machine.execLinkTestStart rq link mode pattern word dur s
  | .linkTestStop rq => Sys2Proof.Machine.execLinkTestStop rq s
  | .linkTestEnd bits errors => Sys2Proof.Machine.execLinkTestEnd bits errors s
  | .linkTestNoLock => Sys2Proof.Machine.execLinkTestNoLock s
  | .nodeRelayTimeout => Sys2Proof.Machine.execNodeRelayTimeout s
  | .canFrameReceived c f => Sys2Proof.Machine.execCanFrameReceived c f s
  | .canTxSuccess c => Sys2Proof.Machine.execCanTxSuccess c s
  | .canArbitrationLost c => Sys2Proof.Machine.execCanArbitrationLost c s
  | .canBusError c err tx => Sys2Proof.Machine.execCanBusError c err tx s
  | .canTxtmoExpiry c obj => Sys2Proof.Machine.execCanTxtmoExpiry c obj s
  | .canRecoveryStart c => Sys2Proof.Machine.execCanRecoveryStart c s
  | .canRecoveryComplete c => Sys2Proof.Machine.execCanRecoveryComplete c s
  | .canRtmoExpiry c obj => Sys2Proof.Machine.execCanRtmoExpiry c obj s
  | .canBusIntegration c => Sys2Proof.Machine.execCanBusIntegration c s
  | .addressClaimWait c => Sys2Proof.Machine.execAddressClaimWait c s
  | .transportPacketTimer c sess => Sys2Proof.Machine.execTransportPacketTimer c sess s
  | .transportSessionTimeout c rx sess => Sys2Proof.Machine.execTransportSessionTimeout c rx sess s
  | .diFilterChange ch samples => Sys2Proof.Machine.execDiFilterChange ch samples s
  | .diFlicker ch => Sys2Proof.Machine.execDiFlicker ch s
  | .diChatterEvaluation ch => Sys2Proof.Machine.execDiChatterEvaluation ch s
  | .diStuckOn ch => Sys2Proof.Machine.execDiStuckOn ch s
  | .ufSupplyChange grp mv => Sys2Proof.Machine.execUfSupplyChange grp mv s
  | .doOverload ch => Sys2Proof.Machine.execDoOverload ch s
  | .doThermalShutdown ch => Sys2Proof.Machine.execDoThermalShutdown ch s
  | .doThermalRecovery ch => Sys2Proof.Machine.execDoThermalRecovery ch s
  | .doOpenLoad ch => Sys2Proof.Machine.execDoOpenLoad ch s
  | .extDrive ch => Sys2Proof.Machine.execExtDrive ch s
  | .partnerNoDrive ch => Sys2Proof.Machine.execPartnerNoDrive ch s
  | .darkTestStart ch => Sys2Proof.Machine.execDarkTestStart ch s
  | .darkTestEnd ch below5V => Sys2Proof.Machine.execDarkTestEnd ch below5V s
  | .piFreqTimeout p => Sys2Proof.Machine.execPiFreqTimeout p s
  | .encZEdge e => Sys2Proof.Machine.execEncZEdge e s
  | .encInvalidStep e => Sys2Proof.Machine.execEncInvalidStep e s
  | .ssiTelegramComplete e raw startLow monoHigh => Sys2Proof.Machine.execSsiTelegramComplete e raw startLow monoHigh s
  | .encSupplyOverload => Sys2Proof.Machine.execEncSupplyOverload s
  | .aiConversion ch raw => Sys2Proof.Machine.execAiConversion ch raw s
  | .lsUpdate ch currentUa => Sys2Proof.Machine.execLsUpdate ch currentUa s
  | .lsThermalOff ch => Sys2Proof.Machine.execLsThermalOff ch s
  | .lsThermalRestart ch => Sys2Proof.Machine.execLsThermalRestart ch s
  | .aoSenseSample ch mA => Sys2Proof.Machine.execAoSenseSample ch mA s
  | .complianceClear ch => Sys2Proof.Machine.execComplianceClear ch s
  | .aoThermal ch hot => Sys2Proof.Machine.execAoThermal ch hot s
  | .hartResponse k r => Sys2Proof.Machine.execHartResponse k r s
  | .hartBurst k r => Sys2Proof.Machine.execHartBurst k r s
  | .hartTransactionTimeout k => Sys2Proof.Machine.execHartTransactionTimeout k s
  | .hartReidentify k => Sys2Proof.Machine.execHartReidentify k s
  | .hartScanDue k => Sys2Proof.Machine.execHartScanDue k s
  | .hartPtReq rq data => Sys2Proof.Machine.execHartPtReq rq data s
  | .hartPtTimeout => Sys2Proof.Machine.execHartPtTimeout s
  | .cmonWindow count => Sys2Proof.Machine.execCmonWindow count s
  | .pllUnlock => Sys2Proof.Machine.execPllUnlock s
  | .qualificationGate count => Sys2Proof.Machine.execQualificationGate count s
  | .derailleurSwitch d => Sys2Proof.Machine.execDerailleurSwitch d s
  | .derailleurStall d => Sys2Proof.Machine.execDerailleurStall d s
  | .clkSwitch rq v => Sys2Proof.Machine.execClkSwitch rq v s
  | .fmcReq rq v => Sys2Proof.Machine.execFmcReq rq v s
  | .fmcDone count => Sys2Proof.Machine.execFmcDone count s
  | .gateQuiesceAck b => Sys2Proof.Machine.execGateQuiesceAck b s
  | .gateRefused b => Sys2Proof.Machine.execGateRefused b s
  | .supplyThresholdCrossing n mv => Sys2Proof.Machine.execSupplyThresholdCrossing n mv s
  | .supplyFailure mv railFault => Sys2Proof.Machine.execSupplyFailure mv railFault s
  | .holdupReady => Sys2Proof.Machine.execHoldupReady s
  | .supplyFailReset => Sys2Proof.Machine.execSupplyFailReset s
  | .backupLockout => Sys2Proof.Machine.execBackupLockout s
  | .backupUnlock => Sys2Proof.Machine.execBackupUnlock s
  | .backupPor => Sys2Proof.Machine.execBackupPor s
  | .rtcCompensation tempC => Sys2Proof.Machine.execRtcCompensation tempC s
  | .vbatMeasure mv => Sys2Proof.Machine.execVbatMeasure mv s
  | .rtcDiscipline => Sys2Proof.Machine.execRtcDiscipline s
  | .rtcShift rq n => Sys2Proof.Machine.execRtcShift rq n s
  | .rtcSet rq v => Sys2Proof.Machine.execRtcSet rq v s
  | .almArm rq n v => Sys2Proof.Machine.execAlmArm rq n v s
  | .rtcAlarmFire n => Sys2Proof.Machine.execRtcAlarmFire n s
  | .pwronTimeout => Sys2Proof.Machine.execPwronTimeout s
  | .pwronAct rq => Sys2Proof.Machine.execPwronAct rq s
  | .erRecordWrite => Sys2Proof.Machine.execErRecordWrite s
  | .optimeStore => Sys2Proof.Machine.execOptimeStore s
  | .pmcSel rq n v => Sys2Proof.Machine.execPmcSel rq n v s
  | .pmcClear rq mask => Sys2Proof.Machine.execPmcClear rq mask s
  | .displayFrameStart hiMv midMv => Sys2Proof.Machine.execDisplayFrameStart hiMv midMv s
  | .displayWaveformEnd hiMv midMv => Sys2Proof.Machine.execDisplayWaveformEnd hiMv midMv s
  | .displayIconSample => Sys2Proof.Machine.execDisplayIconSample s
  | .displayTempRead tempC => Sys2Proof.Machine.execDisplayTempRead tempC s
  | .displayFrameScan => Sys2Proof.Machine.execDisplayFrameScan s
  | .eapHandshake port addr cert => Sys2Proof.Machine.execEapHandshake port addr cert s
  | .sessionTimeout sess => Sys2Proof.Machine.execSessionTimeout sess s
  | .eapRead rq tgt items => Sys2Proof.Machine.execEapRead rq tgt items s
  | .eapWrite rq tgt items => Sys2Proof.Machine.execEapWrite rq tgt items s
  | .subscribe rq r => Sys2Proof.Machine.execSubscribe rq r s
  | .unsubscribe rq subid => Sys2Proof.Machine.execUnsubscribe rq subid s
  | .eapNop rq => Sys2Proof.Machine.execEapNop rq s
  | .notifySend subid => Sys2Proof.Machine.execNotifySend subid s
  | .trendSample subid => Sys2Proof.Machine.execTrendSample subid s
  | .fileOpenRead rq name => Sys2Proof.Machine.execFileOpenRead rq name s
  | .fileOpenWrite rq name total => Sys2Proof.Machine.execFileOpenWrite rq name total s
  | .fileBlock rq fh op => Sys2Proof.Machine.execFileBlock rq fh op s
  | .fileClose rq fh => Sys2Proof.Machine.execFileClose rq fh s
  | .fileAbandon rq fh => Sys2Proof.Machine.execFileAbandon rq fh s
  | .fileWriteTimeout => Sys2Proof.Machine.execFileWriteTimeout s
  | .relayCloseTimeout => Sys2Proof.Machine.execRelayCloseTimeout s
  | .restartCold rq readmit force => Sys2Proof.Machine.execRestartCold rq readmit force s
  | .restartWarm rq readmit force => Sys2Proof.Machine.execRestartWarm rq readmit force s
  | .restartMaintenance rq readmit force => Sys2Proof.Machine.execRestartMaintenance rq readmit force s
  | .activate rq slot byRestart => Sys2Proof.Machine.execActivate rq slot byRestart s
  | .rollback rq => Sys2Proof.Machine.execRollback rq s
  | .handover rq force => Sys2Proof.Machine.execHandover rq force s
  | .revertAck rq => Sys2Proof.Machine.execRevertAck rq s
  | .faultResetAll rq unit => Sys2Proof.Machine.execFaultResetAll rq unit s
  | .faultResetTask rq unit => Sys2Proof.Machine.execFaultResetTask rq unit s
  | .faultResetCan rq unit => Sys2Proof.Machine.execFaultResetCan rq unit s
  | .faultResetDio rq unit => Sys2Proof.Machine.execFaultResetDio rq unit s
  | .faultResetResync rq unit => Sys2Proof.Machine.execFaultResetResync rq unit s
  | .faultResetFailed rq unit => Sys2Proof.Machine.execFaultResetFailed rq unit s
  | .timeSet rq v => Sys2Proof.Machine.execTimeSet rq v s
  | .timeShift rq ns => Sys2Proof.Machine.execTimeShift rq ns s
  | .utcOffset rq secs => Sys2Proof.Machine.execUtcOffset rq secs s
  | .traceArm rq => Sys2Proof.Machine.execTraceArm rq s
  | .traceCmdTrigger rq => Sys2Proof.Machine.execTraceCmdTrigger rq s
  | .traceStop rq => Sys2Proof.Machine.execTraceStop rq s
  | .traceReset rq => Sys2Proof.Machine.execTraceReset rq s
  | .bank rq bankB now force => Sys2Proof.Machine.execBank rq bankB now force s
  | .ownerKeyEnrol rq pubkey => Sys2Proof.Machine.execOwnerKeyEnrol rq pubkey s
  | .ownerKeyErase rq => Sys2Proof.Machine.execOwnerKeyErase rq s
  | .erClear rq => Sys2Proof.Machine.execErClear rq s
  | .execMax rq t => Sys2Proof.Machine.execExecMax rq t s
  | .marginMin rq t => Sys2Proof.Machine.execMarginMin rq t s
  | .laneMax rq l => Sys2Proof.Machine.execLaneMax rq l s
  | .loopMiss rq n => Sys2Proof.Machine.execLoopMiss rq n s
  | .evalMax rq => Sys2Proof.Machine.execEvalMax rq s
  | .shadowLag rq => Sys2Proof.Machine.execShadowLag rq s
  | .sharedLow rq => Sys2Proof.Machine.execSharedLow rq s
  | .nodeMiss rq node => Sys2Proof.Machine.execNodeMiss rq node s
  | .vorMin rq => Sys2Proof.Machine.execVorMin rq s
  | .ptpMessageInterval port kind => Sys2Proof.Machine.execPtpMessageInterval port kind s
  | .frameTxComplete p => Sys2Proof.Machine.execFrameTxComplete p s
  | .siStatusTimeout => Sys2Proof.Machine.execSiStatusTimeout s
  | .extDriveClear ch => Sys2Proof.Machine.execExtDriveClear ch s
  | .thermalLatchRelease ch => Sys2Proof.Machine.execThermalLatchRelease ch s
  | .encFaultExpiry e => Sys2Proof.Machine.execEncFaultExpiry e s
  | .timeShiftComplete => Sys2Proof.Machine.execTimeShiftComplete s
  | .holdupStoreExhausted => Sys2Proof.Machine.execHoldupStoreExhausted s
  | .vbatChangeover mv => Sys2Proof.Machine.execVbatChangeover mv s
  | .piEdge p rising widthNs => Sys2Proof.Machine.execPiEdge p rising widthNs s
  | .encCountStep e up => Sys2Proof.Machine.execEncCountStep e up s

end Sys2Proof.Machine
end

