-- ==== Sys2Proof/Safety.lean ====
section
/-! DEFINITION. What counts as a safe run, and the words in which the statements speak of commands. -/

namespace Sys2Proof

open Machine

/-- A step that answers a next state. -/
def completes (s : State) : Prop := ∃ t, Machine.step s = .next t

/-- A run of `n` steps in which every step answers a next state. -/
def runsSafely : Nat → State → Prop
  | 0, _ => True
  | n + 1, s => ∃ t, Machine.step s = .next t ∧ runsSafely n t

/-- Command `c` in state `s` answers a next state with the same waiting commands, whose module satisfies `P`. -/
def Does (c : Instr) (s : State) (P : Mod → Prop) : Prop :=
  ∃ t, Machine.exec c s = .next t ∧ t.pending = s.pending ∧ P t.m

/-- Command `c` turns the module `s.m` into `k` and leaves the waiting commands as they are. -/
def Makes (c : Instr) (s : State) (k : Mod) : Prop := Machine.exec c s = .next { s with m := k }

/-- Command `c` is a timer armed for `due`: it runs time on to that instant and changes the module by `f`; unarmed, it changes
nothing. -/
def ActsAt (c : Instr) (s : State) (due : Option Nat) (f : Mod → Mod) : Prop :=
  (∀ d, due = some d → Makes c s (f (s.m.to d))) ∧ (due = none → Makes c s s.m)

/-- Command `c` is a timer of the safety island armed for `due`: at that instant `f` changes the island alone. -/
def ActsOnIsland (c : Instr) (s : State) (due : Option Nat) (f : Si → Nat → Si) : Prop :=
  ActsAt c s due fun m => { m with si := f m.si m.mono }

/-- The lane in which a control-engine instruction issues. -/
def ceLaneOf : Instr → Option (Fin 4)
  | .ceNop l => some l
  | .ceEnd l => some l
  | .ceLdx l _ _ => some l
  | .ceStx l _ _ => some l
  | .ceLdi l _ _ => some l
  | .ceLda l _ _ => some l
  | .ceSta l _ _ => some l
  | .ceStq l _ _ => some l
  | .ceMovq l _ _ => some l
  | .ceLdax l _ _ => some l
  | .ceMova l _ _ => some l
  | .ceIn l _ _ => some l
  | .ceOut l _ _ => some l
  | .ceMpy l _ _ _ => some l
  | .ceMac l _ _ _ => some l
  | .ceMsu l _ _ _ => some l
  | .ceAdda l _ _ => some l
  | .ceSuba l _ _ => some l
  | .ceAddx l _ _ => some l
  | .ceSubx l _ _ => some l
  | .ceAddq l _ _ => some l
  | .ceSubq l _ _ => some l
  | .ceNega l _ => some l
  | .ceAbsa l _ => some l
  | .ceSha l _ _ => some l
  | .ceLima l _ _ _ => some l
  | .ceCmpa l _ _ => some l
  | .ceBr l _ _ => some l
  | .ceTbl l _ _ _ => some l
  | .ceTblf l _ _ _ => some l
  | .ceTrc l _ _ => some l
  | .ceFlg l _ _ => some l
  | _ => none

/-- The commands that have an effect while the module is in reset: those of the safety island, of the backup domain, of the clock and
supply supervisor, of the interlock line and the output stages, of the reset itself, and the engine's instructions. -/
def actsInReset (c : Instr) : Bool :=
  (ceLaneOf c).isSome || match c with
  | .claimKeeperExpiry => true
  | .outputTimeout _ => true
  | .ilkPeerChange _ _ => true
  | .resetRelease _ => true
  | .resetPinPress => true
  | .resetStuck _ => true
  | .siCycle _ => true
  | .siFilterElapsed _ _ => true
  | .testPulse _ _ => true
  | .siDiscrepancyTimeout _ => true
  | .siOutputTest _ _ _ => true
  | .autoRestartElapsed _ => true
  | .siManualReset => true
  | .resetHeld => true
  | .edmTimeout _ => true
  | .switchChange _ => true
  | .expectedReread => true
  | .siSupplyTrip => true
  | .siOscillatorFault => true
  | .siStart _ _ => true
  | .btReqRise _ => true
  | .btReqFall _ => true
  | .btTorqueRise _ => true
  | .btTorqueFall _ => true
  | .btTorqueTimeout _ => true
  | .btTestTimeElapsed _ => true
  | .brakeTestDue _ => true
  | .brakeTestOverdue _ => true
  | .ufsLow => true
  | .ubLow => true
  | .ufSupplyChange _ _ => true
  | .cmonWindow _ => true
  | .pllUnlock => true
  | .qualificationGate _ => true
  | .derailleurSwitch _ => true
  | .derailleurStall _ => true
  | .supplyThresholdCrossing _ _ => true
  | .supplyFailure _ _ => true
  | .holdupReady => true
  | .supplyFailReset => true
  | .backupLockout => true
  | .backupUnlock => true
  | .backupPor => true
  | .rtcCompensation _ => true
  | .vbatMeasure _ => true
  | .rtcAlarmFire _ => true
  | .pwronTimeout => true
  | .optimeStore => true
  | .holdupStoreExhausted => true
  | .vbatChangeover _ => true
  | _ => false

/-- The request that a command carries, for the commands that a client sends in a session. -/
def requestOf : Instr → Option Req
  | .tabSwitch rq _ => some rq
  | .alarmAck rq _ _ => some rq
  | .alarmShelve rq _ _ => some rq
  | .alarmUnshelve rq _ => some rq
  | .alarmOutOfService rq _ => some rq
  | .alarmReturnToService rq _ => some rq
  | .alarmAckGroup rq _ => some rq
  | .alarmAckAll rq => some rq
  | .alarmFoReset rq _ => some rq
  | .tcuPop rq _ => some rq
  | .linkTestStart rq _ _ _ _ _ => some rq
  | .linkTestStop rq => some rq
  | .hartPtReq rq _ => some rq
  | .clkSwitch rq _ => some rq
  | .fmcReq rq _ => some rq
  | .rtcShift rq _ => some rq
  | .rtcSet rq _ => some rq
  | .almArm rq _ _ => some rq
  | .pwronAct rq => some rq
  | .pmcSel rq _ _ => some rq
  | .pmcClear rq _ => some rq
  | .eapRead rq _ _ => some rq
  | .eapWrite rq _ _ => some rq
  | .subscribe rq _ => some rq
  | .unsubscribe rq _ => some rq
  | .eapNop rq => some rq
  | .fileOpenRead rq _ => some rq
  | .fileOpenWrite rq _ _ => some rq
  | .fileBlock rq _ _ => some rq
  | .fileClose rq _ => some rq
  | .fileAbandon rq _ => some rq
  | .restartCold rq _ _ => some rq
  | .restartWarm rq _ _ => some rq
  | .restartMaintenance rq _ _ => some rq
  | .activate rq _ _ => some rq
  | .rollback rq => some rq
  | .handover rq _ => some rq
  | .revertAck rq => some rq
  | .faultResetAll rq _ => some rq
  | .faultResetTask rq _ => some rq
  | .faultResetCan rq _ => some rq
  | .faultResetDio rq _ => some rq
  | .faultResetResync rq _ => some rq
  | .faultResetFailed rq _ => some rq
  | .timeSet rq _ => some rq
  | .timeShift rq _ => some rq
  | .utcOffset rq _ => some rq
  | .traceArm rq => some rq
  | .traceCmdTrigger rq => some rq
  | .traceStop rq => some rq
  | .traceReset rq => some rq
  | .bank rq _ _ _ => some rq
  | .ownerKeyEnrol rq _ => some rq
  | .ownerKeyErase rq => some rq
  | .erClear rq => some rq
  | .execMax rq _ => some rq
  | .marginMin rq _ => some rq
  | .laneMax rq _ => some rq
  | .loopMiss rq _ => some rq
  | .evalMax rq => some rq
  | .shadowLag rq => some rq
  | .sharedLow rq => some rq
  | .nodeMiss rq _ => some rq
  | .vorMin rq => some rq
  | _ => none

/-- The module that command `c` leaves of `m`. -/
def effectOf (c : Instr) (m : Mod) : Mod := match Machine.exec c { m := m } with | .next t => t.m | _ => m

/-- The state after `n` steps that all answer a next state. -/
def afterSteps : Nat → State → Option State
  | 0, s => some s
  | n + 1, s => match Machine.step s with | .next t => afterSteps n t | _ => none

/-- The module after an instruction has issued in lane `l` with the engine left as `e`: the engine and the count of issued
instructions (R538) are all that differs. -/
def issued (m : Mod) (l : Fin 4) (e : Ce) : Mod := { m with ce := e, pmc := m.pmc.count 0x10 l.val 1 }

/-- Engine `c` after an instruction of `n` cycles that changes lane `l` alone, by `f`; the next program index follows. -/
def laneStep (c : Ce) (l : Fin 4) (n : Nat) (f : Lane → Lane) : Ce :=
  { c with lanes := upd c.lanes l fun r => let k := f r; { k with pc := k.pc + 1, cycles := k.cycles + n } }

/-- Lane `r` with accumulator `a` at `v` clamped to 40 bits, `Z`, `N` and the sticky `AOV` by the result (R191, R193). -/
def accResult (r : Lane) (a : Fin 4) (v : Int) : Lane :=
  let w := clamp (-(2 ^ 39)) (2 ^ 39 - 1) v
  { r with a := put r.a a (BitVec.ofInt 40 w), z := decide ((BitVec.ofInt 40 w).toInt = 0),
           n := decide ((BitVec.ofInt 40 w).toInt < 0), aov := r.aov || decide (v < -(2 ^ 39)) || decide (2 ^ 39 - 1 < v) }

/-- Lane `r` with operand register `x` at `v` clamped to 16 bits and the sticky `SAT` by the clamp (R192, R193). -/
def regResult (r : Lane) (x : Fin 8) (v : Int) : Lane :=
  { r with x := put r.x x (BitVec.ofInt 16 (clamp (-32768) 32767 v)), sat := r.sat || (decide (v < -32768) || decide (32767 < v)) }

/-- `v` brought into the range of a signed number of `n + 1` bits. -/
def intoRange (n : Nat) (v : Int) : Int := max (-(2 ^ n)) (min (2 ^ n - 1) v)

/-- Instruction `c` of lane `l` writes accumulator `a`, and nothing else but the flags, with the exact integer `v` of the lane's registers
brought into the 40-bit range; `AOV` becomes set where that changes the value (R191, R193). -/
def Accumulates (c : Instr) (s : State) (l a : Fin 4) (v : Lane → Int) : Prop :=
  ∃ f : Lane → Lane, Makes c s (issued s.m l (laneStep s.m.ce l 1 f)) ∧
    ∀ r : Lane, ∃ w : BitVec 40, w.toInt = intoRange 39 (v r) ∧
      f r = { r with a := put r.a a w, z := decide (w.toInt = 0), n := decide (w.toInt < 0), aov := r.aov || decide (w.toInt ≠ v r) }

/-- Instruction `c` of lane `l` writes operand register `x`, and nothing else but the flags, with the exact integer `v` of the lane's
registers brought into the Q15 range; `SAT` becomes set where that changes the value (R192). -/
def ConvertsTo (c : Instr) (s : State) (l : Fin 4) (x : Fin 8) (v : Lane → Int) : Prop :=
  ∃ f : Lane → Lane, Makes c s (issued s.m l (laneStep s.m.ce l 1 f)) ∧
    ∀ r : Lane, ∃ w : BitVec 16, w.toInt = intoRange 15 (v r) ∧
      f r = { r with x := put r.x x w, sat := r.sat || decide (w.toInt ≠ v r) }

/-! Requests. -/

/-- Request `rq` is heard in session `x`, for the first time and with fewer than 8 requests of the session waiting (R565). -/
def heard (m : Mod) (rq : Req) (x : Session) : Prop :=
  m.live = true ∧ (m.eap.sessions.find? fun s => s.id == rq.sess) = some x ∧ m.serves rq x = true

/-- A COMMAND to command object `idx` is heard and may run (R69, R575, R577): `role` the least role, `p5` whether P5 alone may send it,
`inMaint` whether `MAINTENANCE` admits it. -/
def admitted (m : Mod) (rq : Req) (x : Session) (idx role : Nat) (p5 inMaint : Bool) : Prop :=
  heard m rq x ∧ role ≤ x.role ∧ (p5 = true → x.port = 2) ∧ (m.maint = true → inMaint = true) ∧
    (at_ m.eap.cmds idx {}).open_ = false

/-- The module `m` after a COMMAND whose object `idx` is left as `c`, answered with a status and a body. -/
def commanded (m : Mod) (rq : Req) (idx : Nat) (c : CmdObj) (status : Nat) (body : Bytes) : Mod :=
  ({ m with eap := { m.eap with cmds := put m.eap.cmds idx c } } : Mod).respond rq status body

/-- Command `c`, a COMMAND to object `idx`, is refused with status `st` (R575, R577): its object shows the status, the response carries it,
and nothing else changes. -/
def Refuses (c : Instr) (s : State) (rq : Req) (idx st : Nat) : Prop :=
  Makes c s (commanded (s.m.touchSession rq.sess) rq idx { status := st } st [])

/-- The command object of a COMMAND (R577): its number, the least role, whether P5 alone may send it, whether `MAINTENANCE` admits it. An
alarm operation has its own waiting commands and is not listed, but for the first-out reset. -/
def commandObject : Instr → Option (Nat × Nat × Bool × Bool)
  | .restartCold _ _ _ => some (0, 3, false, true)
  | .restartWarm _ _ _ => some (0, 3, false, true)
  | .restartMaintenance _ _ _ => some (0, 3, false, true)
  | .activate _ _ _ => some (1, 3, false, true)
  | .rollback _ => some (2, 3, false, false)
  | .handover _ _ => some (3, 3, false, false)
  | .revertAck _ => some (4, 2, false, false)
  | .faultResetAll _ _ => some (5, 2, false, false)
  | .faultResetTask _ _ => some (5, 2, false, false)
  | .faultResetCan _ _ => some (5, 2, false, false)
  | .faultResetDio _ _ => some (5, 2, false, false)
  | .faultResetResync _ _ => some (5, 2, false, false)
  | .faultResetFailed _ _ => some (5, 2, false, false)
  | .alarmFoReset _ _ => some (6, 2, false, false)
  | .timeSet _ _ => some (7, 3, false, false)
  | .timeShift _ _ => some (7, 3, false, false)
  | .utcOffset _ _ => some (7, 3, false, false)
  | .linkTestStart _ _ _ _ _ _ => some (8, 4, false, false)
  | .linkTestStop _ => some (8, 4, false, false)
  | .traceArm _ => some (9, 3, false, false)
  | .traceCmdTrigger _ => some (9, 3, false, false)
  | .traceStop _ => some (9, 3, false, false)
  | .traceReset _ => some (9, 3, false, false)
  | .bank _ _ _ _ => some (10, 4, false, true)
  | .ownerKeyEnrol _ _ => some (11, 4, true, true)
  | .ownerKeyErase _ => some (11, 4, true, true)
  | .erClear _ => some (12, 4, true, true)
  | _ => none

/-- A WRITE of one object with effect (R568, R577): the least role, and whether `MAINTENANCE` admits it. -/
def writeObject : Instr → Option (Nat × Bool)
  | .tabSwitch _ _ => some (3, false)
  | .hartPtReq _ _ => some (3, false)
  | .clkSwitch _ _ => some (4, true)
  | .fmcReq _ _ => some (3, false)
  | .rtcShift _ _ => some (3, false)
  | .rtcSet _ _ => some (3, false)
  | .almArm _ _ _ => some (3, false)
  | .pwronAct _ => some (2, false)
  | .pmcSel _ _ _ => some (3, false)
  | .pmcClear _ _ => some (3, false)
  | _ => none

/-- A read of an object that the reading clears (R568). -/
def readsAndClears : Instr → Bool
  | .laneMax _ _ => true
  | .loopMiss _ _ => true
  | .tcuPop _ _ => true
  | .evalMax _ => true
  | .sharedLow _ => true
  | .nodeMiss _ _ => true
  | .execMax _ _ => true
  | .marginMin _ _ => true
  | .shadowLag _ => true
  | _ => false

end Sys2Proof
end

