-- ==== Sys2Proof/Certificates/Slice0/Obligations.lean ====
section
/-! DEFINITION. The statements for the provers. -/

section
open Sys2Proof Sys2Proof.Machine

/-- For every command c and state s, a step of s with c at the front of its queue is exec of c on s with the rest of the queue. The queue is the model's interface, not a rule of the spec. -/
def Obligations.StepRunsFrontCommand : Prop :=
  ∀ (c : Instr) (s : State) (rest : List Instr), step { s with pending := c :: rest } = exec c { s with pending := rest }

/-- With no command waiting, a step lets one ROOT cycle pass (the model's choice, log entry 7): elapsed time grows by the cycle's phases of 0.625 ns, the ROOT count by one and device time by the increment; of the rest of the module only the counters, the count of free values drawn and the seconds register may differ. -/
def Obligations.EmptyQueueIdlesOneRootCycle : Prop :=
  ∀ s : State, s.pending = [] → ∃ t, step s = .next t ∧ t.pending = [] ∧
    t.m.tb.mono = s.m.tb.mono + s.m.tb.cyclePhases ∧ t.m.tb.root = s.m.tb.root + 1 ∧
    t.m.tb.now = s.m.tb.now + s.m.tb.cycleUnits ∧
    t.m = { s.m with tb := t.m.tb, pmc := t.m.pmc, free := t.m.free, bkp := t.m.bkp }

/-- Every one of the 32 control-engine instructions, in every state, answers a next state in which only the engine and the performance counters (one more instruction issued in the lane) may differ. -/
def Obligations.CeInstructionTouchesEngineOnly : Prop :=
  ∀ (c : Instr) (s : State) (l : Fin 4), ceLaneOf c = some l → ∃ e : Ce, Makes c s (issued s.m l e)

/-- In every state: NOP only issues; LDX takes the low 16 bits of the loop's state word; LDI takes the immediate; LDA takes word w+1 [7:0] over word w; MOVQ takes the accumulator rounded half up and saturated to Q15; LDAX takes the register at 2^16; MOVA copies an accumulator. Accumulator results set Z and N. Each takes one cycle; nothing else of the engine or module changes. -/
def Obligations.CeLoadsAndMoves : Prop :=
  ∀ (s : State) (l : Fin 4) (x : Fin 8) (a b : Fin 4) (w : BitVec 8) (imm : BitVec 16),
    Makes (.ceNop l) s (issued s.m l (laneStep s.m.ce l 1 id)) ∧
    Makes (.ceLdx l x w) s (issued s.m l (laneStep s.m.ce l 1 fun r => { r with x := put r.x x ((s.m.ce.word r.loop w.toNat).setWidth 16) })) ∧
    Makes (.ceLdi l x imm) s (issued s.m l (laneStep s.m.ce l 1 fun r => { r with x := put r.x x imm })) ∧
    Makes (.ceLda l a w) s (issued s.m l (laneStep s.m.ce l 1 fun r =>
      accResult r a (((s.m.ce.word r.loop (w.toNat + 1)).setWidth 8 ++ s.m.ce.word r.loop w.toNat : BitVec 40).toInt))) ∧
    Makes (.ceMovq l x a) s (issued s.m l (laneStep s.m.ce l 1 fun r => regResult r x (((r.acc a).toInt + 2 ^ 15) / 2 ^ 16))) ∧
    Makes (.ceLdax l a x) s (issued s.m l (laneStep s.m.ce l 1 fun r => accResult r a ((r.xr x).toInt * 2 ^ 16))) ∧
    Makes (.ceMova l a b) s (issued s.m l (laneStep s.m.ce l 1 fun r => accResult r a (r.acc b).toInt))

/-- In every state each of these accumulates the exact integer result of the spec (products doubled, operand registers at 2^16) clamped once to 40 bits, with Z, N and the sticky AOV by it. Nothing else of the lane, engine or module changes but the index, the cycle and the issue count. -/
def Obligations.CeAccumulatorArithmetic : Prop :=
  ∀ (s : State) (l : Fin 4) (a b : Fin 4) (x y : Fin 8),
    (Makes (.ceMpy l a x y) s (issued s.m l (laneStep s.m.ce l 1 fun r => accResult r a ((r.xr x).toInt * (r.xr y).toInt * 2)))) ∧
    (Makes (.ceMac l a x y) s (issued s.m l (laneStep s.m.ce l 1 fun r =>
      accResult r a ((r.acc a).toInt + (r.xr x).toInt * (r.xr y).toInt * 2)))) ∧
    (Makes (.ceMsu l a x y) s (issued s.m l (laneStep s.m.ce l 1 fun r =>
      accResult r a ((r.acc a).toInt - (r.xr x).toInt * (r.xr y).toInt * 2)))) ∧
    (Makes (.ceAdda l a b) s (issued s.m l (laneStep s.m.ce l 1 fun r => accResult r a ((r.acc a).toInt + (r.acc b).toInt)))) ∧
    (Makes (.ceSuba l a b) s (issued s.m l (laneStep s.m.ce l 1 fun r => accResult r a ((r.acc a).toInt - (r.acc b).toInt)))) ∧
    (Makes (.ceAddx l a x) s (issued s.m l (laneStep s.m.ce l 1 fun r => accResult r a ((r.acc a).toInt + (r.xr x).toInt * 2 ^ 16)))) ∧
    (Makes (.ceSubx l a x) s (issued s.m l (laneStep s.m.ce l 1 fun r => accResult r a ((r.acc a).toInt - (r.xr x).toInt * 2 ^ 16)))) ∧
    (Makes (.ceNega l a) s (issued s.m l (laneStep s.m.ce l 1 fun r => accResult r a (-(r.acc a).toInt)))) ∧
    (Makes (.ceAbsa l a) s (issued s.m l (laneStep s.m.ce l 1 fun r => accResult r a |(r.acc a).toInt|)))

/-- SHA shifts left exactly, or right with the half rounded up, and clamps; LIMA clamps between two registers, takes the lower bound where the bounds cross, and sets LIMF and the sticky LIM by whether it clamped; CMPA sets Z and N from the difference and changes no accumulator; ADDQ and SUBQ saturate to Q15 with the sticky SAT; FLG clears and then sets the user flags of the lane's loop. -/
def Obligations.CeShiftClampCompareAndQ15 : Prop :=
  ∀ (s : State) (l : Fin 4) (a : Fin 4) (x y : Fin 8) (k : BitVec 6) (set clr : BitVec 4),
    (Makes (.ceSha l a k) s (issued s.m l (laneStep s.m.ce l 1 fun r =>
      accResult r a (if 0 ≤ k.toInt then (r.acc a).toInt * 2 ^ k.toInt.toNat
        else ((r.acc a).toInt + 2 ^ ((-k.toInt).toNat - 1)) / 2 ^ (-k.toInt).toNat)))) ∧
    (Makes (.ceLima l a x y) s (issued s.m l (laneStep s.m.ce l 1 fun r =>
      let lo := (r.xr x).toInt * 2 ^ 16
      let hi := (r.xr y).toInt * 2 ^ 16
      let v := (r.acc a).toInt
      let hit := decide (hi < lo) || decide (v < lo) || decide (hi < v)
      { accResult r a (if hi < lo then lo else clamp lo hi v) with limf := hit, lim := r.lim || hit }))) ∧
    (Makes (.ceCmpa l a x) s (issued s.m l (laneStep s.m.ce l 1 fun r =>
      { r with z := decide ((r.acc a).toInt - (r.xr x).toInt * 2 ^ 16 = 0), n := decide ((r.acc a).toInt - (r.xr x).toInt * 2 ^ 16 < 0) }))) ∧
    (Makes (.ceAddq l x y) s (issued s.m l (laneStep s.m.ce l 1 fun r => regResult r x ((r.xr x).toInt + (r.xr y).toInt)))) ∧
    (Makes (.ceSubq l x y) s (issued s.m l (laneStep s.m.ce l 1 fun r => regResult r x ((r.xr x).toInt - (r.xr y).toInt)))) ∧
    (Makes (.ceFlg l set clr) s (issued s.m l (laneStep
      (s.m.ce.updLoop (s.m.ce.lane l).loop fun q => { q with user := (q.user &&& ~~~clr) ||| set }) l 1 id)))

/-- In every state: STX writes the sign-extended register to word w of the lane's loop, STQ the rounded and saturated accumulator (with the sticky SAT), STA the low 32 bits to word w and the sign-extended upper byte to word w+1. Every other state word of every loop reads as before; nothing else of the engine or module changes but the lane's next instruction, its cycle and the issue count. -/
def Obligations.CeStoresWriteOnlyTheirWords : Prop :=
  ∀ (s : State) (l : Fin 4) (a : Fin 4) (x : Fin 8) (w : BitVec 8),
    let loop := (s.m.ce.lane l).loop
    let v := (s.m.ce.lane l).acc a
    (Does (.ceStx l x w) s fun k =>
      (∀ i : Nat, SMap.get 0 k.ce.words i =
        if i = loop * 256 + w.toNat % 256 then ((s.m.ce.lane l).xr x).signExtend 32 else SMap.get 0 s.m.ce.words i) ∧
      k = issued s.m l { laneStep s.m.ce l 1 id with words := k.ce.words }) ∧
    (Does (.ceStq l a w) s fun k =>
      (∀ i : Nat, SMap.get 0 k.ce.words i =
        if i = loop * 256 + w.toNat % 256 then
          (BitVec.ofInt 16 (clamp (-32768) 32767 ((v.toInt + 2 ^ 15) / 2 ^ 16))).signExtend 32 else SMap.get 0 s.m.ce.words i) ∧
      k = issued s.m l { laneStep s.m.ce l 1 (fun r => { r with
        sat := r.sat || (decide (((r.acc a).toInt + 2 ^ 15) / 2 ^ 16 < -32768) || decide (32767 < ((r.acc a).toInt + 2 ^ 15) / 2 ^ 16)) })
        with words := k.ce.words }) ∧
    (Does (.ceSta l a w) s fun k =>
      (∀ i : Nat, SMap.get 0 k.ce.words i =
        if i = loop * 256 + (w.toNat + 1) % 256 then (v.extractLsb' 32 8).signExtend 32
        else if i = loop * 256 + w.toNat % 256 then v.setWidth 32 else SMap.get 0 s.m.ce.words i) ∧
      k = issued s.m l { laneStep s.m.ce l 1 id with words := k.ce.words })

/-- BR goes to its target where its condition holds, else to the next instruction; IN takes the latched port and marks INBAD by the channel's quality; OUT stages its register, and the last write of a port counts; TBL and TBLF take four cycles and give the interpolated table value, or its product with the smoothed velocity sign; TRC gives a sample only to a channel configured for its loop; END closes the execution of the lane's loop, and only issues where the lane holds no configured loop. -/
def Obligations.CeBranchPortsTablesTraceEnd : Prop :=
  ∀ (s : State) (l : Fin 4) (x : Fin 8) (p : BitVec 8) (cc : CeCond) (t : BitVec 7) (tb : Fin 16) (e : Fin 4) (ch : Fin 16),
    (Makes (.ceBr l cc t) s (issued s.m l { s.m.ce with lanes := upd s.m.ce.lanes l fun r =>
      { r with pc := if r.cond cc then t.toNat else r.pc + 1, cycles := r.cycles + 1 } })) ∧
    (Makes (.ceIn l x p) s (issued s.m l (laneStep s.m.ce l 1 fun r =>
      { r with x := put r.x x (s.m.ce.readPort r p.toNat), inbad := r.inbad || s.m.ce.portBad p.toNat }))) ∧
    (Makes (.ceOut l x p) s (issued s.m l (laneStep s.m.ce l 1 fun r => { r with outs := (p.toNat, r.xr x) :: r.outs }))) ∧
    (Makes (.ceTbl l x tb e) s (issued s.m l (laneStep s.m.ce l 4 fun r =>
      { r with x := put r.x x (s.m.ce.tabValue tb (at_ s.m.ce.lat.enc e 0).toInt), inbad := r.inbad || at_ s.m.ce.lat.encBad e false }))) ∧
    (Makes (.ceTblf l x tb e) s (issued s.m l (laneStep s.m.ce l 4 fun r =>
      let q := sat40 ((s.m.ce.tabValue tb (at_ s.m.ce.lat.enc e 0).toInt).toInt * tabSign (s.m.ce.tabCfg tb) (at_ s.m.ce.lat.vel e 0) * 2)
      { regResult r x ((q.toInt + 2 ^ 15) / 2 ^ 16) with inbad := r.inbad || at_ s.m.ce.lat.encBad e false }))) ∧
    (((at_ s.m.ce.trc.chs ch {}).src ≠ 1 ∨ (at_ s.m.ce.trc.chs ch {}).lnum ≠ (s.m.ce.lane l).loop) →
      Makes (.ceTrc l x ch) s (issued s.m l (laneStep s.m.ce l 1 id))) ∧
    ((at_ s.m.ce.trc.chs ch {}).src = 1 → (at_ s.m.ce.trc.chs ch {}).lnum = (s.m.ce.lane l).loop →
      Makes (.ceTrc l x ch) s (issued s.m l (laneStep
        { s.m.ce with trc := s.m.ce.trc.sample ch ((s.m.ce.lane l).xr x) s.m.ce.f (dtimeOf s.m.ce.nextB) } l 1 id))) ∧
    (s.m.ce.loopCfg ((laneStep s.m.ce l 1 id).lane l).loop = none →
      Makes (.ceEnd l) s (issued s.m l ((laneStep s.m.ce l 1 id).updLane l fun r => { r with done := true }))) ∧
    (∀ d : LoopCfg, s.m.ce.loopCfg ((laneStep s.m.ce l 1 id).lane l).loop = some d →
      let mode := modeInEffect d.nmode (s.m.ce.loopSt d.lnum).down.mode (s.m.ce.loopSt d.lnum).mode
      Makes (.ceEnd l) s (issued s.m l ((laneStep s.m.ce l 1 id).finish l d mode
        ((mode != (s.m.ce.loopSt d.lnum).mode || (s.m.ce.loopSt d.lnum).parked || (s.m.ce.loopSt d.lnum).resume) &&
          !(s.m.ce.loopSt d.lnum).firstPending))))

/-- For a request heard in a session of sufficient role outside MAINTENANCE: TAB_SWITCH marks the table's inactive bank pending where it is present, fresh and known to the partner; TRACE arms while ACT is held and no trace file is read, triggers while armed, stops with cause 3, resets to IDLE keeping its configuration; LANE_MAX and LOOP_MISS give the counter and clear it. A TAB_SWITCH is refused with RANGE beyond table 15, with BUSY during a change or while a switch is pending, with ABSENT where the inactive bank is absent or not fresh, and with PARTNER where a partner follows that does not hold it; TRACE arm with NOT_ACTIVE or BUSY, trigger with NOT_ARMED. LOOP_MISS of a loop that is not configured clears nothing. -/
def Obligations.CeTableTraceAndCounterRequests : Prop :=
  (∀ (s : State) (rq : Req) (x : Session),
    (∀ n : BitVec 8, heard s.m rq x → 3 ≤ x.role → s.m.maint = false → n.toNat ≤ 15 → s.m.changing = false →
      (at_ s.m.ce.tabSt n.toNat {}).pending = false → (at_ s.m.ce.tabSt n.toNat {}).present = true →
      (at_ s.m.ce.tabSt n.toNat {}).fresh = true → (s.m.partnerFollows = true → (at_ s.m.ce.tabSt n.toNat {}).partnerOk = true) →
      let m := s.m.touchSession rq.sess
      Makes (.tabSwitch rq n) s (({ m with ce := { m.ce with tabSt := upd m.ce.tabSt n.toNat fun t => { t with pending := true } } } : Mod).respond
        rq stOk (writeResult stOk))) ∧
    (admitted s.m rq x 9 3 false false →
      let m := s.m.touchSession rq.sess
      (s.m.act = true → s.m.readingFile .trace = false →
        Makes (.traceArm rq) s (commanded (m.updTrc Trace.arm) rq 9 {} stOk [])) ∧
      (s.m.ce.trc.state = 1 → Makes (.traceCmdTrigger rq) s (commanded (m.updTrc fun t => { t with cmd := true }) rq 9 {} stOk [])) ∧
      Makes (.traceStop rq) s (commanded (m.updTrc fun t => t.abort 3) rq 9 {} stOk []) ∧
      Makes (.traceReset rq) s (commanded (m.updTrc fun t => { ({} : Trace) with chs := t.chs, trig := t.trig, pre := t.pre }) rq 9 {} stOk [])) ∧
    (heard s.m rq x → s.m.maint = false →
      let m := s.m.touchSession rq.sess
      (∀ l : Fin 4, Makes (.laneMax rq l) s ((({ m with ce := { m.ce with lanes := upd m.ce.lanes l fun r => { r with max := 0 } } } : Mod).pass 1).respond
        rq stOk (readResult stOk (natLe 2 (at_ s.m.ce.lanes l {}).max)))) ∧
      (∀ n : Fin 512, (s.m.ce.loopCfg n).isSome = true →
        Makes (.loopMiss rq n) s ((({ m with ce := m.ce.updLoop n fun q => { q with miss := 0 } } : Mod).pass 1).respond
          rq stOk (readResult stOk (natLe 2 (s.m.ce.loopSt n).miss)))))) ∧
  (∀ (s : State) (rq : Req) (x : Session),
    let m := s.m.touchSession rq.sess
    (∀ n : BitVec 8, heard s.m rq x → 3 ≤ x.role → s.m.maint = false →
      let t := at_ s.m.ce.tabSt n.toNat {}
      let gives (st : Nat) : Prop := Makes (.tabSwitch rq n) s (m.respond rq stOk (writeResult st))
      (15 < n.toNat → gives stRange) ∧
      (n.toNat ≤ 15 → (s.m.changing = true ∨ t.pending = true → gives stBusy) ∧
        (s.m.changing = false → t.pending = false → (t.present = false ∨ t.fresh = false → gives stAbsent) ∧
          (t.present = true → t.fresh = true → s.m.partnerFollows = true → t.partnerOk = false → gives stPartner)))) ∧
    (admitted s.m rq x 9 3 false false →
      (s.m.act = false → Refuses (.traceArm rq) s rq 9 stNotActive) ∧
      (s.m.act = true → s.m.readingFile .trace = true → Refuses (.traceArm rq) s rq 9 stBusy) ∧
      (s.m.ce.trc.state ≠ 1 → Refuses (.traceCmdTrigger rq) s rq 9 stNotArmed)) ∧
    (heard s.m rq x → s.m.maint = false → ∀ n : Fin 512, s.m.ce.loopCfg n = none →
      Makes (.loopMiss rq n) s ((m.pass 1).respond rq stOk (readResult stOk (natLe 2 (s.m.ce.loopSt n).miss)))))

/-- For a RESTART heard in a session of sufficient role (SERVICE in MAINTENANCE), with no online change in phases 1 to 5 and the tandem not left without a holder of ACT or FORCE given: the start is ordered with cause COMMAND, the chosen kind and READMIT, 50 ms after the answer OK. Nothing else changes. A RESTART below SERVICE in MAINTENANCE is refused with ROLE, one during an online change in phases 1 to 5 with BUSY, and one that would leave the tandem without a holder of ACT, not forced, with NO_PARTNER. -/
def Obligations.RestartCommandsOrderTheirStart : Prop :=
  (∀ (s : State) (rq : Req) (x : Session) (readmit force : Bool), admitted s.m rq x 0 3 false true →
    (s.m.maint = true → 4 ≤ x.role) → s.m.changing = false → (s.m.alone = true → force = true) →
    let m := s.m.touchSession rq.sess
    let due := s.m.mono + phMs 50
    Makes (.restartCold rq readmit force) s
      (commanded (m.orderStart { cause := 3, cold := some true, readmit := readmit, due := due }) rq 0 {} stOk []) ∧
    Makes (.restartWarm rq readmit force) s
      (commanded (m.orderStart { cause := 3, cold := some false, readmit := readmit, due := due }) rq 0 {} stOk []) ∧
    Makes (.restartMaintenance rq readmit force) s
      (commanded (m.orderStart { cause := 3, cold := some true, maint := true, readmit := readmit, due := due }) rq 0 {} stOk [])) ∧
  (∀ (s : State) (rq : Req) (x : Session) (readmit force : Bool), admitted s.m rq x 0 3 false true →
    ∀ c ∈ [Instr.restartCold rq readmit force, .restartWarm rq readmit force, .restartMaintenance rq readmit force],
      (s.m.maint = true → x.role < 4 → Refuses c s rq 0 stRole) ∧
      ((s.m.maint = true → 4 ≤ x.role) →
        (s.m.changing = true → Refuses c s rq 0 stBusy) ∧
        (s.m.changing = false → s.m.alone = true → force = false → Refuses c s rq 0 stNoPartner)))

/-- Where the command may run, no change is in phases 1 to 5 and the tandem admits it: ACTIVATE of a VALID slot other than the active one (held by the partner where R65 asks) begins the online change where only Online sections differ and no restart is asked, and answers ACCEPTED with the request open; otherwise, where the image passes its checks, it writes the header of R59 and orders the start with cause CONFIG_CHANGE. ROLLBACK does the same with the PREVIOUS slot: an online change, or the header exchanged and a start with cause CONFIG_CHANGE. A header that cannot be written is reported as failed. ACTIVATE is refused with ROLE in MAINTENANCE below SERVICE or not on P5, with BUSY during a change, with CONDITION where MAINTENANCE or the tandem does not admit it, with ABSENT for a slot that is not VALID, and with CONDITION for the active slot or one that the partner lacks; ROLLBACK with BUSY, CONDITION, NO_PREVIOUS, and CONDITION for an image that no longer passes. -/
def Obligations.ActivateAndRollbackSwitchTheImage : Prop :=
  (∀ (s : State) (rq : Req) (x : Session), s.m.changing = false → s.m.tandemForbids x = false →
    let m := s.m.touchSession rq.sess
    (∀ (slot : BitVec 8) (byRestart : Bool), admitted s.m rq x 1 3 false true →
      (s.m.maint = true → 4 ≤ x.role ∧ x.port = 2 ∧ s.m.cas.hdr.unconfigured = true) →
      slot.toNat < 8 → (s.m.cas.hdr.slot slot.toNat).st = 2 → slot.toNat ≠ s.m.cas.hdr.active →
      (s.m.needsBoth = true → s.m.partnerHolds slot.toNat = true) →
      (s.m.maint = false → byRestart = false → s.m.switchOnline slot.toNat = true →
        Makes (.activate rq slot byRestart) s
          (commanded (m.beginChange slot.toNat 0) rq 1 { at_ s.m.eap.cmds 1 {} with open_ := true } stAccepted [])) ∧
      ((s.m.maint = true ∨ byRestart = true ∨ s.m.switchOnline slot.toNat = false) → m.judgeSlot slot.toNat = none →
        let h := s.m.cas.hdr.activate slot.toNat
        let k := m.newActive h
        (k.hdrLost = false → Makes (.activate rq slot byRestart) s
          (commanded ((k.announce (h.slot h.active).icrc m.planHash).orderStart { cause := 4, cold := some true }) rq 1 {} stAccepted [])) ∧
        (k.hdrLost = true → Makes (.activate rq slot byRestart) s (commanded k rq 1 { status := stCondition } stAccepted [])))) ∧
    (admitted s.m rq x 2 3 false false → s.m.cas.hdr.previous < 8 → (s.m.cas.hdr.slot s.m.cas.hdr.previous).st = 2 →
      (s.m.switchOnline s.m.cas.hdr.previous = true →
        Makes (.rollback rq) s
          (commanded (m.beginChange s.m.cas.hdr.previous 1) rq 2 { at_ s.m.eap.cmds 2 {} with open_ := true } stAccepted [])) ∧
      (s.m.switchOnline s.m.cas.hdr.previous = false → m.judgeSlot s.m.cas.hdr.previous = none →
        let h := s.m.cas.hdr.exchange
        let k := m.newActive h
        (k.hdrLost = false → Makes (.rollback rq) s
          (commanded ((k.announce (h.slot h.active).icrc m.planHash).orderStart { cause := 4, cold := some true }) rq 2 {} stOk [])) ∧
        (k.hdrLost = true → Makes (.rollback rq) s (commanded k rq 2 { status := stCondition } stCondition []))))) ∧
  (∀ (s : State) (rq : Req) (x : Session),
    let m := s.m.touchSession rq.sess
    (∀ (slot : BitVec 8) (byRestart : Bool), admitted s.m rq x 1 3 false true →
      (s.m.maint = true → x.role < 4 ∨ x.port ≠ 2 → Refuses (.activate rq slot byRestart) s rq 1 stRole) ∧
      ((s.m.maint = true → 4 ≤ x.role ∧ x.port = 2) →
        (s.m.changing = true → Makes (.activate rq slot byRestart) s (commanded m.busyChange rq 1 { status := stBusy } stBusy [])) ∧
        (s.m.changing = false →
          (s.m.maint = true ∧ s.m.cas.hdr.unconfigured = false ∨ s.m.tandemForbids x = true →
            Refuses (.activate rq slot byRestart) s rq 1 stCondition) ∧
          ((s.m.maint = true → s.m.cas.hdr.unconfigured = true) → s.m.tandemForbids x = false →
            (8 ≤ slot.toNat ∨ (s.m.cas.hdr.slot slot.toNat).st ≠ 2 → Refuses (.activate rq slot byRestart) s rq 1 stAbsent) ∧
            (slot.toNat < 8 → (s.m.cas.hdr.slot slot.toNat).st = 2 →
              slot.toNat = s.m.cas.hdr.active ∨ s.m.needsBoth = true ∧ s.m.partnerHolds slot.toNat = false →
              Refuses (.activate rq slot byRestart) s rq 1 stCondition))))) ∧
    (admitted s.m rq x 2 3 false false →
      (s.m.changing = true → Refuses (.rollback rq) s rq 2 stBusy) ∧
      (s.m.changing = false →
        (s.m.tandemForbids x = true → Refuses (.rollback rq) s rq 2 stCondition) ∧
        (s.m.tandemForbids x = false →
          let p := s.m.cas.hdr.previous
          (8 ≤ p ∨ (s.m.cas.hdr.slot p).st ≠ 2 → Refuses (.rollback rq) s rq 2 stNoPrevious) ∧
          (p < 8 → (s.m.cas.hdr.slot p).st = 2 → s.m.switchOnline p = false → (m.judgeSlot p).isSome = true →
            Refuses (.rollback rq) s rq 2 stCondition)))))

/-- For a FAULT_RESET heard with role OPERATE outside MAINTENANCE and not open: the task scope releases a halted task and clears its overrun count; the CAN scope restarts a controller that is bus-off, suspended or at a detected rate; the DIO scope clears a thermal latch; the resynchronisation scope lets a module DETACHED with RESYNC_FAILED join again; the FAILED scope orders a cold start with cause COMMAND; scope 0 with unit 0xFFFF applies every scope whose condition is present and answers OK where one was. Each is refused with RANGE for a unit that does not exist and with CONDITION where the condition is absent. -/
def Obligations.FaultResetsClearTheirCondition : Prop :=
  (∀ (s : State) (rq : Req) (x : Session) (unit : BitVec 16), admitted s.m rq x 5 2 false false →
    let m := s.m.touchSession rq.sess
    (unit.toNat < 16 → (s.m.task unit.toNat).halted = true →
      Makes (.faultResetTask rq unit) s (commanded (m.updTask unit.toNat fun k => { k with halted := false, consec := 0 }) rq 5 {} stOk [])) ∧
    (unit.toNat < 4 → ((s.m.can unit.toNat).st = .busOff ∨ (s.m.can unit.toNat).autorecSusp = true ∨
        (s.m.canCfg unit.toNat).cen = true ∧ (s.m.canCfg unit.toNat).nbr = 0) →
      Makes (.faultResetCan rq unit) s (commanded (m.updCan unit.toNat fun k => k.faultReset (s.m.canCfg unit.toNat)) rq 5 {} stOk [])) ∧
    (unit.toNat < 32 → (s.m.dioCh unit.toNat).latched = true →
      Makes (.faultResetDio rq unit) s (commanded (m.updDio unit.toNat fun h => { h with latched := false, thermAt := [] }) rq 5 {} stOk [])) ∧
    (unit = 0 → s.m.tan.role = .detached → s.m.tan.detach = 8 →
      Makes (.faultResetResync rq unit) s (commanded m.rejoin rq 5 {} stOk [])) ∧
    (unit = 0 → s.m.tan.role = .failed →
      Makes (.faultResetFailed rq unit) s (commanded (m.orderStart { cause := 3, cold := some true }) rq 5 {} stOk [])) ∧
    (unit.toNat = 0xFFFF →
      let r := m.resetAll 0xFFFF
      Makes (.faultResetAll rq unit) s (commanded r.m rq 5 { status := r.status } r.status []))) ∧
  (∀ (s : State) (rq : Req) (x : Session) (unit : BitVec 16), admitted s.m rq x 5 2 false false →
    (16 ≤ unit.toNat → Refuses (.faultResetTask rq unit) s rq 5 stRange) ∧
    (unit.toNat < 16 → (s.m.task unit.toNat).halted = false → Refuses (.faultResetTask rq unit) s rq 5 stCondition) ∧
    (4 ≤ unit.toNat → Refuses (.faultResetCan rq unit) s rq 5 stRange) ∧
    (unit.toNat < 4 → (s.m.can unit.toNat).st ≠ .busOff → (s.m.can unit.toNat).autorecSusp = false →
      ¬ ((s.m.canCfg unit.toNat).cen = true ∧ (s.m.canCfg unit.toNat).nbr = 0) → Refuses (.faultResetCan rq unit) s rq 5 stCondition) ∧
    (32 ≤ unit.toNat → Refuses (.faultResetDio rq unit) s rq 5 stRange) ∧
    (unit.toNat < 32 → (s.m.dioCh unit.toNat).latched = false → Refuses (.faultResetDio rq unit) s rq 5 stCondition) ∧
    (unit.toNat ≠ 0 → Refuses (.faultResetResync rq unit) s rq 5 stRange ∧ Refuses (.faultResetFailed rq unit) s rq 5 stRange) ∧
    (unit.toNat = 0 → s.m.tan.role ≠ .detached ∨ s.m.tan.detach ≠ 8 → Refuses (.faultResetResync rq unit) s rq 5 stCondition) ∧
    (unit.toNat = 0 → s.m.tan.role ≠ .failed → Refuses (.faultResetFailed rq unit) s rq 5 stCondition) ∧
    (unit.toNat ≠ 0xFFFF → Refuses (.faultResetAll rq unit) s rq 5 stRange))

/-- For a command heard with role SERVICE (on P5 for the key) and not open: BANK of a bank whose images are good (and, outside MAINTENANCE, compatible) raises its sequence above the other's, and with restart now orders a start with cause FIRMWARE_CHANGE where the tandem is not left alone or FORCE is given; OWNER_KEY enrol programs the record of the key at 0x20000 where the record is erased and the supply permits writing; erase erases that sector in MAINTENANCE where the supply permits erasing. BANK is refused with IMG for an image that is not good, FW_INCOMPATIBLE for one that does not fit, NO_PARTNER where the restart would leave the tandem alone; OWNER_KEY with CONDITION without cassette, with a record that is not erased, or for an erasure outside MAINTENANCE, and with SUPPLY_LOW where the supply forbids it. -/
def Obligations.BankAndOwnerKeyCommands : Prop :=
  (∀ (s : State) (rq : Req) (x : Session),
    let m := s.m.touchSession rq.sess
    (∀ bankB now force : Bool, admitted s.m rq x 10 4 false true →
      (let b := if bankB then s.m.bankB else s.m.bankA
       b.boot.good = true ∧ b.main.good = true ∧ b.si.good = true ∧ (s.m.maint = false → b.valid s.m.otp.hwRev = true)) →
      (now = true → s.m.alone = true → force = true) →
      Makes (.bank rq bankB now force) s
        (let k := m.selectBank bankB
         let k1 : Mod := { k with boot := { k.boot with bankSwitch := if bankB = m.onB then none else some bankB } }
         commanded (if now then k1.orderStart { cause := 8 } else k1) rq 10 {} stOk [])) ∧
    (∀ pub : Bytes, admitted s.m rq x 11 4 true true → s.m.cas.present = true → s.m.cas.keyErased = true → s.m.sup.mayWrite = true →
      Makes (.ownerKeyEnrol rq pub) s (commanded { m with cas := m.cas.program 0x20000 (keyRec pub) } rq 11 {} stOk [])) ∧
    (admitted s.m rq x 11 4 true true → s.m.maint = true → s.m.cas.present = true → s.m.sup.mayErase = true →
      Makes (.ownerKeyErase rq) s (commanded { m with cas := m.cas.eraseRange 0x20000 0x30000 } rq 11 {} stOk []))) ∧
  (∀ (s : State) (rq : Req) (x : Session),
    (∀ bankB now force : Bool, admitted s.m rq x 10 4 false true →
      let b := if bankB then s.m.bankB else s.m.bankA
      ((b.boot.good && b.main.good && b.si.good) = false → Refuses (.bank rq bankB now force) s rq 10 stImg) ∧
      ((b.boot.good && b.main.good && b.si.good) = true →
        (s.m.maint = false → b.valid s.m.otp.hwRev = false → Refuses (.bank rq bankB now force) s rq 10 stFwIncompatible) ∧
        ((s.m.maint = false → b.valid s.m.otp.hwRev = true) → now = true → s.m.alone = true → force = false →
          Refuses (.bank rq bankB now force) s rq 10 stNoPartner))) ∧
    (admitted s.m rq x 11 4 true true →
      (∀ pub : Bytes,
        (s.m.cas.present = false ∨ s.m.cas.keyErased = false → Refuses (.ownerKeyEnrol rq pub) s rq 11 stCondition) ∧
        (s.m.cas.present = true → s.m.cas.keyErased = true → s.m.sup.mayWrite = false → Refuses (.ownerKeyEnrol rq pub) s rq 11 stSupplyLow)) ∧
      (s.m.maint = false ∨ s.m.cas.present = false → Refuses (.ownerKeyErase rq) s rq 11 stCondition) ∧
      (s.m.maint = true → s.m.cas.present = true → s.m.sup.mayErase = false → Refuses (.ownerKeyErase rq) s rq 11 stSupplyLow)))

/-- On a live module that executes: the on-delay of a point whose condition is TRUE and not yet taken over (and the off-delay of one that is FALSE) runs time on by what is left of the delay and evaluates the point with the delay reached, waiting commands first; a shelving duration runs out at its operating time and the point is evaluated, which unshelves it; a suppression group whose release delay runs is emptied of it and its members are released. On a point or group without such a timer nothing happens. Nothing happens either where the module does not execute, the point has bad quality, or its delay or shelving is not what runs. -/
def Obligations.AlarmTimersMoveTheirPoint : Prop :=
  (∀ s : State, s.m.live = true →
    (∀ (pnum i : Nat), s.m.ptIndex pnum = some i → s.m.executing = true → (s.m.pt i).badq = false →
      let p := s.m.pt i
      ((p.c = true → p.a = false →
        let m1 := s.m.to (s.m.mono + (phMs (s.m.ptCfg i).ondly - p.held))
        Makes (.alarmOnDelayExpiry pnum) s
          (m1.evalNow [(i, s.m.ptCfg i)] fun q => if q.c = true ∧ q.a ≠ true then { q with held := Nat.max (phMs (s.m.ptCfg i).ondly) q.held } else q)) ∧
       (p.c = false → p.a = true →
        let m1 := s.m.to (s.m.mono + (phMs (s.m.ptCfg i).offdly - p.held))
        Makes (.alarmOffDelayExpiry pnum) s
          (m1.evalNow [(i, s.m.ptCfg i)] fun q => if q.c = false ∧ q.a ≠ false then { q with held := Nat.max (phMs (s.m.ptCfg i).offdly) q.held } else q)))) ∧
    (∀ (pnum i t : Nat), s.m.ptIndex pnum = some i → (s.m.pt i).shelved = some t → s.m.executing = true →
      let m1 := s.m.to (s.m.mono + phMs (t - s.m.optime))
      Makes (.shelvingExpiry pnum) s (m1.evalNow [(i, m1.ptCfg i)] id)) ∧
    (∀ (grp : Fin 256) (ms : Nat), (at_ s.m.ae.sgs grp {}).left = some ms → s.m.executing = true →
      let m1 := s.m.to (s.m.mono + phMs ms)
      Makes (.suppressionRelease grp) s
        (({ m1 with ae := { m1.ae with sgs := upd m1.ae.sgs grp fun _ => {} } } : Mod).releaseMembers grp)) ∧
    (∀ pnum : Nat, s.m.ptIndex pnum = none →
      Makes (.alarmOnDelayExpiry pnum) s s.m ∧ Makes (.alarmOffDelayExpiry pnum) s s.m ∧ Makes (.shelvingExpiry pnum) s s.m) ∧
    (∀ grp : Fin 256, (at_ s.m.ae.sgs grp {}).left = none → Makes (.suppressionRelease grp) s s.m)) ∧
  (∀ s : State,
    (∀ (pnum i : Nat), s.m.ptIndex pnum = some i →
      (s.m.executing = false ∨ (s.m.pt i).badq = true ∨ (s.m.pt i).c = false ∨ (s.m.pt i).a = true → Makes (.alarmOnDelayExpiry pnum) s s.m) ∧
      (s.m.executing = false ∨ (s.m.pt i).badq = true ∨ (s.m.pt i).c = true ∨ (s.m.pt i).a = false → Makes (.alarmOffDelayExpiry pnum) s s.m) ∧
      (s.m.executing = false ∨ (s.m.pt i).shelved = none → Makes (.shelvingExpiry pnum) s s.m)) ∧
    (∀ grp : Fin 256, s.m.executing = false → Makes (.suppressionRelease grp) s s.m))

/-- An ALARM command heard with role OPERATE outside MAINTENANCE and not waiting already, on a module that holds ACT, for a point or group that exists, joins the commands that wait with its acceptance instant and, for each of its points, the occurrence named or, for a group or all points, in force. A first-out reset goes through the arbiter and answers OK at once. A command that waits for a point alone does at that point's evaluation what its operation says: acknowledging a visible unacknowledged occurrence of the same number, shelving a shelvable point for 1 to SHLVMAX minutes, unshelving a shelved point, taking a point out of service and returning one to service change the point and give OK; with another occurrence the answer is STALE and the point stands. An operation from a role below OPERATE gets ROLE, one in MAINTENANCE CONDITION, one without ACT NOT_ACTIVE, one that names no point or group RANGE; one that waits already is not taken twice. -/
def Obligations.AlarmCommandsChangeTheirPoint : Prop :=
  ((∀ (s : State) (rq : Req) (x : Session), admitted s.m rq x 6 2 false false → s.m.act = true →
    (s.m.ae.cmds.any fun c => c.rq == rq) = false →
    let m := s.m.touchSession rq.sess
    (∀ (num : BitVec 16) (i : Nat), s.m.ptIndex num.toNat = some i →
      let c (op : Nat) (occ : BitVec 16) (mins : Nat) : AlmCmd :=
        { rq := rq, op := op, mins := mins, accepted := s.m.dt, tq := s.m.tq, left := [((s.m.ptCfg i).pid, occ)], status := stRange }
      (∀ occ : BitVec 16, Makes (.alarmAck rq num occ) s (m.queueAlarm (c 1 occ 0))) ∧
      (∀ mins : BitVec 16, Makes (.alarmShelve rq num mins) s (m.queueAlarm (c 2 0 mins.toNat))) ∧
      Makes (.alarmUnshelve rq num) s (m.queueAlarm (c 3 0 0)) ∧
      Makes (.alarmOutOfService rq num) s (m.queueAlarm (c 4 0 0)) ∧
      Makes (.alarmReturnToService rq num) s (m.queueAlarm (c 5 0 0))) ∧
    (∀ (num : BitVec 16) (i : Nat), s.m.foIndex num.toNat = some i →
      Makes (.alarmAckGroup rq num) s (m.queueAlarm
        { rq := rq, op := 6, accepted := s.m.dt, tq := s.m.tq, left := s.m.occurrences fun d => d.fgroup == num.toNat, status := stOk }) ∧
      Makes (.alarmFoReset rq num) s (commanded (m.foReset i) rq 6 {} stOk (alarmBody 0 0))) ∧
    Makes (.alarmAckAll rq) s (m.queueAlarm
      { rq := rq, op := 7, accepted := s.m.dt, tq := s.m.tq, left := s.m.occurrences fun _ => true, status := stOk })) ∧
  (∀ (rq : Req) (at' : BitVec 96) (d : PtCfg) (p : Pt) (occ : BitVec 16) (mins st optime : Nat),
    let alone (op : Nat) : PtCmds :=
      applyCmds [{ rq := rq, op := op, mins := mins, accepted := at', left := [(d.pid, occ)], status := st }] d p optime
    let done (op : Nat) (q : Pt) : Prop := (alone op).p = q ∧ (alone op).res = [(0, stOk, q.state)]
    (p.hidden = false → (p.vis = 1 ∨ p.vis = 3) →
      (p.occ = occ → done 1 p.ack) ∧ (p.occ ≠ occ → (alone 1).p = p ∧ (alone 1).res = [(0, stStale, p.state)])) ∧
    (d.shelvable = true → mins ≠ 0 → mins ≤ d.shlvmax → done 2 { p with shelved := some (optime + mins * 60000) }) ∧
    (p.shelved.isSome = true → done 3 ({ p with shelved := none } : Pt).unhide) ∧
    done 4 { p with oos := true } ∧
    (p.oos = true → done 5 ({ p with oos := false } : Pt).unhide))) ∧
  (∀ (s : State) (rq : Req) (x : Session), heard s.m rq x →
    let m := s.m.touchSession rq.sess
    ∀ (c : Instr) (num : BitVec 16),
      ((∃ occ, c = .alarmAck rq num occ) ∨ (∃ mins, c = .alarmShelve rq num mins) ∨ c = .alarmUnshelve rq num ∨ c = .alarmOutOfService rq num ∨
        c = .alarmReturnToService rq num ∨ c = .alarmAckGroup rq num ∨ c = .alarmAckAll rq) →
      (x.role < 2 → Makes c s (m.respond rq stRole [])) ∧
      (2 ≤ x.role → (s.m.maint = true → Makes c s (m.respond rq stCondition [])) ∧
        (s.m.maint = false → ((s.m.ae.cmds.any fun k => k.rq == rq) = true → Makes c s m) ∧
          ((s.m.ae.cmds.any fun k => k.rq == rq) = false → (s.m.act = false → Makes c s (m.respond rq stNotActive [])) ∧
            (s.m.act = true → c ≠ .alarmAckAll rq → (if c = .alarmAckGroup rq num then s.m.foIndex num.toNat else s.m.ptIndex num.toNat) = none →
              Makes c s (m.respond rq stRange []))))))

/-- On a live module that holds ACT, for a group of its configuration: the arbiter takes a candidate into the group and records a late one; a participant takes the arbiter's decision of its epoch with marks and triggers, and arms under the new epoch of a reset, a known epoch being another participant's request, which the arbiter takes as one; the settle deadline makes the arbiter decide and the partial deadline the participant, each at its instant and only with ACT. EVAL_MAX gives the longest evaluation and clears it. A message without ACT or for a group that is not configured, a candidate at a participant, a decision at the arbiter or of another epoch, and a deadline that is not armed change nothing. -/
def Obligations.FirstOutMessagesAndDecisions : Prop :=
  (∀ s : State, s.m.live = true →
    (∀ (msg : Bytes) (i : Nat), s.m.act = true → s.m.foIndex (field msg 1 1) = some i →
      (s.m.foArbiter i = true →
        (let r := (at_ s.m.ae.fos i {}).receive (parseCandidate msg) (BitVec.ofNat 16 (field msg 2 2))
            (at_ s.m.ae.cfg.fgrps i { gnum := 0 }).settle s.m.mono
         Makes (.foCandidate msg) s (if r.2 then (s.m.updFo i fun _ => r.1).log 8 3 0x60 (parseCandidate msg).pid.toNat [] else
           s.m.updFo i fun _ => r.1)) ∧
        Makes (.foReset msg) s (s.m.foReset i)) ∧
      (s.m.foArbiter i = false →
        (0 < (BitVec.ofNat 16 (field msg 2 2) - (at_ s.m.ae.fos i {}).epoch).toInt →
          Makes (.foReset msg) s (s.m.updFo i fun g => g.arm (BitVec.ofNat 16 (field msg 2 2)))) ∧
        ((BitVec.ofNat 16 (field msg 2 2) - (at_ s.m.ae.fos i {}).epoch).toInt ≤ 0 → Makes (.foReset msg) s s.m) ∧
        (BitVec.ofNat 16 (field msg 2 2) = (at_ s.m.ae.fos i {}).epoch →
          let w := (field msg 8 2, BitVec.ofNat 32 (field msg 12 4))
          Makes (.foDecided msg) s ((((s.m.updFo i fun g => { g with
              state := 2
              winner := some { node := w.1, pid := w.2, pnum := w.2.toNat, tc := dtTicks (BitVec.ofNat 96 (field msg 16 12)), sgran := 0,
                               align := none }
              simul := bitOf (field msg 5 1) 0, partial_ := false, uncertain := bitOf (field msg 5 1) 2,
              nsim := field msg 4 1 % 8, settleAt := none, partialAt := none }).foMarks (field msg 1 1) w (foEntries msg)).trigger 5
            (field msg 1 1) fun _ => true))))) ∧
    (∀ (grp : Fin 256) (i : Nat), s.m.foIndex grp = some i →
      (s.m.act = false → Makes (.foSettleExpiry grp) s s.m ∧ Makes (.foPartialDecision grp) s s.m) ∧
      (∀ d : Nat, (at_ s.m.ae.fos i {}).settleAt = some d → s.m.act = true → Makes (.foSettleExpiry grp) s ((s.m.to d).foDecideNow i false)) ∧
      (∀ d : Nat, (at_ s.m.ae.fos i {}).partialAt = some d → s.m.act = true → Makes (.foPartialDecision grp) s ((s.m.to d).foDecideNow i true))) ∧
    (∀ (rq : Req) (x : Session), heard s.m rq x → s.m.maint = false →
      let m := s.m.touchSession rq.sess
      Makes (.evalMax rq) s ((({ m with ae := { m.ae with evalMax := 0 } } : Mod).pass 1).respond rq stOk (readResult stOk (natLe 4 s.m.ae.evalMax))))) ∧
  (∀ s : State,
    (∀ msg : Bytes, s.m.act = false ∨ s.m.foIndex (field msg 1 1) = none →
      Makes (.foCandidate msg) s s.m ∧ Makes (.foReset msg) s s.m ∧ Makes (.foDecided msg) s s.m) ∧
    (∀ (msg : Bytes) (i : Nat), s.m.foIndex (field msg 1 1) = some i →
      (s.m.foArbiter i = false → Makes (.foCandidate msg) s s.m) ∧
      (s.m.foArbiter i = true ∨ BitVec.ofNat 16 (field msg 2 2) ≠ (at_ s.m.ae.fos i {}).epoch → Makes (.foDecided msg) s s.m)) ∧
    (∀ grp : Fin 256, s.m.foIndex grp = none → Makes (.foSettleExpiry grp) s s.m ∧ Makes (.foPartialDecision grp) s s.m) ∧
    (∀ (grp : Fin 256) (i : Nat), s.m.foIndex grp = some i →
      ((at_ s.m.ae.fos i {}).settleAt = none → Makes (.foSettleExpiry grp) s s.m) ∧
      ((at_ s.m.ae.fos i {}).partialAt = none → Makes (.foPartialDecision grp) s s.m)))

/-- Where PTP runs on the port, after the transparent clock has passed a message on: a Sync of the parent in the clock's domain feeds the servo, or is only measured in DEGRADED; an Announce is heard, the master chosen again and the parent's UTC data taken; delay messages of the profile are answered in the master role with the instant of their reception, one-step or two-step as the port's record says, and measured otherwise; a management GET is answered and a SET refused with an error; a message of another domain has no other effect; at each interval the module sends the messages of its role with the next sequence number and, in an Announce, its data set; the receipt timeout drops masters heard no more and chooses again; the holdover limit sets quality FREE at the first instant at which the estimated error exceeds it. -/
def Obligations.PtpMessagesActByTheModulesRole : Prop :=
  ∀ s : State,
    (∀ (port : Fin 3) (c : PtpCfg) (h : PtpRx), s.m.ptpOn port = some c →
      let own := h.domain = c.domain ∧ ¬ (c.profile = 2 ∧ h.udp = true)
      (∀ (a : Announce) (x : PtpOffset), s.m.ptp.parent = some a → a.port = port → a.senderId = h.sender → x.port = port →
        let m := s.m.ptpForward port h { type := 0, domain := 0, seq := 0, sender := 0 }
        (own → Makes (.ptpSync h x) s (if m.ptp.quality = .degraded then { m with ptp := { m.ptp with offset := x.offsetNs, pathDelay := x.pathDelay } }
          else m.ptpSync c x.offsetNs x.pathDelay)) ∧
        (¬ own → Makes (.ptpSync h x) s m)) ∧
      (∀ a : AnnounceRx, a.h = h → a.ann.port = port →
        let m := s.m.ptpForward port h { type := 11, domain := 0, seq := 0, sender := 0, ann := some a.ann }
        let m1 := ({ m with ptp := m.ptp.hear a.ann m.mono } : Mod).chooseMaster c
        (own → Makes (.ptpAnnounce a) s (if m1.ptp.parent = some a.ann then m1.takeUtc a.ann else m1)) ∧
        (¬ own → Makes (.ptpAnnounce a) s m)) ∧
      (∀ (peer request : Bool) (d : Nat),
        let m := s.m.ptpForward port h { type := (if peer then (if request then 2 else 3) else if request then 1 else 9), domain := 0, seq := 0, sender := 0 }
        let rx := m.dtAt h.phase
        (¬ own → Makes (.ptpDelayMessage port peer request h d) s m) ∧
        (own → c.profile ≠ 0 → peer = true → request = true → Makes (.ptpDelayMessage port peer request h d) s
          (if c.stepMode.getLsbD port then m.sendPtp c port (m.ptpAnswer c h 3 0 h.correction) (some rx)
           else m.sendPtp c port (m.ptpAnswer c h 3 rx h.correction) none)) ∧
        (own → c.profile ≠ 0 → peer = true → request = false → Makes (.ptpDelayMessage port peer request h d) s
          { m with ptp := { m.ptp with linkDelay := put m.ptp.linkDelay port d, pathDelay := if m.portState port = 9 then d else m.ptp.pathDelay } }) ∧
        (own → c.profile = 0 → peer = false → request = true → m.portState port = 6 →
          Makes (.ptpDelayMessage port peer request h d) s (m.sendPtp c port (m.ptpAnswer c h 9 rx h.correction) none)) ∧
        (own → c.profile = 0 → peer = false → request = false → m.portState port = 9 →
          Makes (.ptpDelayMessage port peer request h d) s { m with ptp := { m.ptp with pathDelay := d } }) ∧
        (own → ((c.profile = 0 ↔ peer = true) ∨ peer = false ∧ m.portState port ≠ (if request then 6 else 9)) →
          Makes (.ptpDelayMessage port peer request h d) s m)) ∧
      (∀ get : Bool,
        let m := s.m.ptpForward port h { type := 13, domain := 0, seq := 0, sender := 0 }
        (own → Makes (.ptpManagement port get h) s (m.sendPtp c port { m.ptpAnswer c h 13 0 0 with refused := !get } none)) ∧
        (¬ own → Makes (.ptpManagement port get h) s m))) ∧
    (∀ (port : Fin 3) (c : PtpCfg) (kind : PtpKind), s.m.ptpOn port = some c → s.m.ptpSends c port kind = true →
      let i := port.val * 4 + ptpKindNo kind
      Makes (.ptpMessageInterval port kind) s
        (({ s.m with ptp := { s.m.ptp with seqs := put s.m.ptp.seqs i (at_ s.m.ptp.seqs i 0 + 1) } } : Mod).sendPtp c port
          { type := ptpKindType kind, domain := c.domain, seq := at_ s.m.ptp.seqs i 0, sender := Config.clockIdentity s.m.otp.serial,
            ann := if kind = .announce then some (s.m.announced c port) else none } none)) ∧
    (∀ c : PtpCfg, s.m.cfg.netc.ptp = some c → s.m.live = true →
      (∀ d : Nat, s.m.cas.running = true → s.m.announceDue c = some d →
        let m1 := s.m.to d
        Makes .announceReceiptTimeout s (({ m1 with ptp := { m1.ptp with
          foreign := m1.ptp.foreign.filter fun f => decide (m1.mono < f.at_ + c.annTmo * annInterval c) } } : Mod).chooseMaster c)) ∧
      (s.m.ptp.quality = .holdover →
        let m1 := s.m.to (s.m.ptp.holdFrom + (if c.holdLimit < 50 then 0 else (c.holdLimit - 50) * phS 1 / Nat.max 1 c.holdDrift + 1))
        Makes .holdoverLimit s { m1 with ptp := m1.ptp.toQuality .free }))

/-- For a time command that may run: TIME_SET of a valid time in FREE or DEGRADED clears TIME_UNSET and steps device time to the second and nanosecond given, with FRAC 0; TIME_SHIFT of at most 1 s in FREE clears TIME_UNSET and slews at the rate of the spec until its completion, which restores the nominal increment; UTC_OFFSET is taken where no parent owns it; a pending leap changes the offset at the end of the UTC day. A time that is no DTIME and a shift beyond 1 s are refused with RANGE, and a command that PTP or its parent forbids with PTP_OWNS. Without a shift or a pending leap their completion changes nothing. -/
def Obligations.TimeCommandsSetSlewAndCarryUtc : Prop :=
  (∀ s : State,
    (∀ (rq : Req) (x : Session), admitted s.m rq x 7 3 false false →
      let m := s.m.touchSession rq.sess
      (∀ v : BitVec 96, dtValid v = true → (s.m.ptp.quality = .free ∨ s.m.ptp.quality = .degraded) →
        Makes (.timeSet rq v) s (commanded
          (({ m with ptp := { m.ptp with timeUnset := false }, bkp := { m.bkp with setAt := some 0 } } : Mod).timeStep
            ((dtSec v * 1000000000 + dtNsec v) * unitsPerNs)) rq 7 {} stOk [])) ∧
      (∀ ns : BitVec 32, ns.toInt.natAbs ≤ 1000000000 → s.m.ptp.quality = .free →
        Makes (.timeShift rq ns) s (commanded
          { m with ptp := { m.ptp with timeUnset := false, shift := if ns = 0 then none else some { ns := ns.toInt, fromRoot := m.tb.root } },
                   tb := { m.tb with addend := slewAddend ns.toInt } } rq 7 {} stOk [])) ∧
      (∀ secs : BitVec 16, (∀ a, s.m.ptp.parent = some a → a.utcValid = false) →
        Makes (.utcOffset rq secs) s (commanded
          { m with ptp := { m.ptp with utc := secs.toInt, utcValid := true },
                   bkp := if m.bkp.locked then m.bkp else { m.bkp with utcOffset := secs.toInt } } rq 7 {} stOk []))) ∧
    (s.m.live = true →
      (∀ h : Shift, s.m.ptp.shift = some h →
        let m1 := s.m.pass (h.fromRoot + slewCycles h.ns s.m.tb.addend - s.m.tb.root)
        Makes .timeShiftComplete s { m1 with ptp := { m1.ptp with shift := none }, tb := { m1.tb with addend := 0xA0000000 } }) ∧
      (s.m.ptp.leap ≠ 0 →
        let m1 := s.m.toNow s.m.utcDayEnd
        let u := m1.ptp.utc + m1.ptp.leap
        Makes .leapSecond s { m1 with ptp := { m1.ptp with utc := u, leap := 0 },
                                      bkp := if m1.bkp.locked then m1.bkp else { m1.bkp with utcOffset := u } }))) ∧
  (∀ s : State,
    (∀ (rq : Req) (x : Session), admitted s.m rq x 7 3 false false →
      (∀ v : BitVec 96, (dtValid v = false → Refuses (.timeSet rq v) s rq 7 stRange) ∧
        (dtValid v = true → s.m.ptp.quality ≠ .free → s.m.ptp.quality ≠ .degraded → Refuses (.timeSet rq v) s rq 7 stPtpOwns)) ∧
      (∀ ns : BitVec 32, (1000000000 < ns.toInt.natAbs → Refuses (.timeShift rq ns) s rq 7 stRange) ∧
        (ns.toInt.natAbs ≤ 1000000000 → s.m.ptp.quality ≠ .free → Refuses (.timeShift rq ns) s rq 7 stPtpOwns)) ∧
      (∀ (secs : BitVec 16) (a : Announce), s.m.ptp.parent = some a → a.utcValid = true → Refuses (.utcOffset rq secs) s rq 7 stPtpOwns)) ∧
    (s.m.ptp.shift = none → Makes .timeShiftComplete s s.m) ∧
    (s.m.ptp.leap = 0 → Makes .leapSecond s s.m))

/-- On a live module: an armed unit fires at the first phase at or after its target and its edge goes to its route; a pulse ends at its phase; an edge on a capture source enters the unit's FIFO with its timestamp less the receiver's delay; TCU_POP gives and removes the oldest record. On a running module an act-at-time message for another node changes nothing; one for this node counts and is refused for a wrong length, key or tag, or a time that is no DTIME (which counts in RX alone, log entry 134), discarded as a duplicate, counted as unmapped, or accepted and armed on every unit that its action names. A unit that is not configured or not armed does not fire, none without a running pulse ends one, a capture unit without a source takes no edge, and without a running image no message is heard. -/
def Obligations.TimedOutputsCapturesAndActions : Prop :=
  (∀ s : State, s.m.live = true →
    (∀ (u : Fin 32) (c : TouCfg), s.m.touCfg u = some c →
      ((at_ s.m.tous u {}).armed = true →
        let due := s.m.tb.phaseAt ((ticksOf s.m.tb.now + (shortDiff (at_ s.m.tous u {}).target (s.m.touNow c)).toNat) * 2 ^ 14)
        let m1 := s.m.pass due.1
        let r := (at_ s.m.tous u {}).fire c .fired m1.ptp.quality (shortAdd (shortOf (m1.dtAt due.2)) (m1.touLat c)) (m1.mono + due.2)
        Makes (.touFire u) s (if r.2 then (m1.updTou u fun _ => r.1).touEdge u c else m1.updTou u fun _ => r.1)) ∧
      (∀ d : Nat, (at_ s.m.tous u {}).pulseEnd = some d →
        let due := s.m.tb.phaseOn d
        let m1 := s.m.pass due.1
        Makes (.touPulseEnd u) s ((m1.updTou u fun k => k.trail (m1.mono + due.2)).touEdge u c))) ∧
    (∀ (u : Fin 32) (c : TcuCfg), s.m.tcuCfg u = some c → c.src ≠ 0xFF → ∀ (rising : Bool) (phase : Fin 4),
      let ph := if s.m.tb.slow then 0 else phase.val
      let r := (at_ s.m.tcus u {}).capture c rising (dtOfTicks (dtTicks (s.m.dtAt ph) - Config.receiverDelay c.src)) s.m.tq
        (s.m.mono + ph)
      Makes (.tcuCapture u rising phase) s (if r.2 then (s.m.updTcu u fun _ => r.1).trigger 4 u fun _ => true else s.m.updTcu u fun _ => r.1)) ∧
    (∀ (rq : Req) (x : Session) (u : Fin 32), heard s.m rq x → s.m.maint = false →
      let r := (at_ s.m.tcus u {}).pop
      Makes (.tcuPop rq u) s ((((s.m.touchSession rq.sess).updTcu u fun _ => r.2).pass 1).respond rq stOk (readResult stOk r.1))) ∧
    (∀ msg : Bytes, s.m.cas.running = true →
      let a := parseActMsg msg
      let k := s.m.cfg.cred.actkey
      let here := a.dest = 0 ∨ a.dest = s.m.cfg.ident.node
      let authentic := msg.length = 40 ∧ k.all (· == 0) = false ∧ slice msg 32 8 = actTag k (slice msg 0 32)
      let rx : Mod := { s.m with aat := { s.m.aat with rx := s.m.aat.rx + 1 } }
      let from_ : Aat := rx.aat.heard a.src a.iid
      let seen := (from_.pairs a.src a.iid).contains (a.seq, a.t.toNat)
      let known : Aat := from_.remember a.src a.iid a.seq a.t.toNat
      let named := s.m.cfg.netc.acts.filter fun e => e.action == a.action
      (¬ here → Makes (.actAtMessage msg) s s.m) ∧
      (here → ¬ authentic → Makes (.actAtMessage msg) s { rx with aat := { rx.aat with tagFail := rx.aat.tagFail + 1 } }) ∧
      (here → authentic → dtValid a.t = false → Makes (.actAtMessage msg) s { rx with aat := from_ }) ∧
      (here → authentic → dtValid a.t = true → seen = true → Makes (.actAtMessage msg) s { rx with aat := { from_ with duplicate := from_.duplicate + 1 } }) ∧
      (here → authentic → dtValid a.t = true → seen = false → named = [] →
        Makes (.actAtMessage msg) s { rx with aat := { from_ with unmapped := from_.unmapped + 1 } }) ∧
      (here → authentic → dtValid a.t = true → seen = false → named ≠ [] →
        Makes (.actAtMessage msg) s (named.foldl (fun k e => k.aatArm a.t e)
          { rx with aat := { known with accepted := known.accepted + 1 } })))) ∧
  (∀ s : State,
    (∀ u : Fin 32, s.m.touCfg u = none ∨ (at_ s.m.tous u {}).armed = false → Makes (.touFire u) s s.m) ∧
    (∀ u : Fin 32, (at_ s.m.tous u {}).pulseEnd = none → Makes (.touPulseEnd u) s s.m) ∧
    (∀ (u : Fin 32) (rising : Bool) (phase : Fin 4), (∀ c, s.m.tcuCfg u = some c → c.src = 0xFF) → Makes (.tcuCapture u rising phase) s s.m) ∧
    (∀ msg : Bytes, s.m.cas.running = false → Makes (.actAtMessage msg) s s.m))

/-- On a live module: a cadence tick runs device time to the next tick and does its work; a cycle that executes on its core pair ends when it has executed for its execution time there, and one that waits for another cycle on its pair is unaffected (log entry 140); a pending apply instant is reached and its entry taken; while an image runs, a frame boundary is reached and worked off after a pending switch of the engine. A task in no cycle or without a pending entry is unaffected. Without a running image no frame boundary is worked off. -/
def Obligations.CadenceCyclesAndApplyInstants : Prop :=
  (∀ s : State, s.m.live = true →
    (let m1 := s.m.toNow (s.m.tb.nextTick * tickUnits)
     Makes .cadenceTick s (({ m1 with tb := { m1.tb with nextTick := s.m.tb.nextTick + 1 } } : Mod).cadence s.m.tb.nextTick)) ∧
    (∀ (t : Fin 16) (ns : Nat),
      (∀ c : Cycle, (s.m.task t).running = some c →
        (∀ a : Nat, c.onAt = some a →
          Makes (.cycleFinish t ns) s ((s.m.to (a + (ns * 8 / 5 - c.ran))).finishCycle t ns c)) ∧
        (c.onAt = none → Makes (.cycleFinish t ns) s s.m)) ∧
      ((s.m.task t).running = none → Makes (.cycleFinish t ns) s s.m)) ∧
    (∀ t : Fin 16,
      (∀ (p : PendApply) (rest : List PendApply), (s.m.task t).pend = p :: rest →
        Makes (.applyInstant t) s (((s.m.toNow p.at_).updTask t fun k => { k with pend := rest }).applyEntry t p)) ∧
      ((s.m.task t).pend = [] → Makes (.applyInstant t) s s.m)) ∧
    (s.m.cas.running = true → Makes .frameBoundary s ((s.m.toNow s.m.ce.nextB).switchCe.frameBoundary))) ∧
  (∀ s : State, s.m.cas.running = false → Makes .frameBoundary s s.m)

/-- For the pending entry p of a live module's task: a module that does not execute applies nothing (after a handover the partner does); a halted task's image is discarded; an image finished in time is applied, the overrun count cleared and the outputs refreshed; otherwise the cycle counts as an overrun, and the apply instant refreshes the held outputs, also where the overrun halts the task. -/
def Obligations.ApplyEntryAppliesHoldsOrSkips : Prop :=
  ∀ (s : State) (t : Fin 16) (p : PendApply) (rest : List PendApply), s.m.live = true → (s.m.task t).pend = p :: rest →
    let m := (s.m.toNow p.at_).updTask t fun k => { k with pend := rest }
    (m.executing = false → Makes (.applyInstant t) s m) ∧
    (m.executing = true → (m.task t).halted = true → Makes (.applyInstant t) s (m.discardCan (p.img.getD []))) ∧
    (∀ img : List OutItem, m.executing = true → (m.task t).halted = false → p.img = some img → p.inTime = true →
      Makes (.applyInstant t) s (((m.applyImage t img).updTask t fun k => { k with consec := 0, runMax := 0, applied := some (p.at_, img) }).refresh t)) ∧
    (m.executing = true → (m.task t).halted = false → (p.img = none ∨ p.inTime = false) →
      Makes (.applyInstant t) s (((m.discardCan (p.img.getD [])).overrun t).refresh t))

/-- On a live module: phase 1 ends where the image passes and is planned (phase 2, the plan kept) and is refused otherwise; phase 2 ends on a standby with its tables prepared, else with the header written and the boundary B fixed as the first proposal, or with a refusal where the standby has not prepared the same plan or the header cannot be written; a proposal not acknowledged is repeated 5 ms before B with a new B, at most three times; a standby that has prepared the change writes its header at the first proposal, acknowledges, and becomes DETACHED at the fourth; the holder of ACT notes an acknowledgement of the latest proposal; a waiting plan takes effect at its boundary and HELLO goes out. A change whose image fails its checks, its requirements or its plan is refused with the failing step, 7, or 8 and the reason. Out of its phase, for another role or proposal, and without a waiting plan each of these changes nothing; the fourth proposal detaches a standby in any phase. -/
def Obligations.OnlineChangePhases : Prop :=
  (∀ s : State, s.m.live = true →
    (s.m.change.phase = 1 → ∀ (c : Cfg) (p : Plan), s.m.change.cfg = some c →
      imgCheck s.m.bank.main s.m.cas.ownerKey (s.m.slotImage s.m.change.slot) = none →
      checkReqs (s.m.slotImage s.m.change.slot) s.m.fwMain s.m.bank.si.version s.m.otp.hwRev s.m.otp.variantE = true →
      s.m.planChange c (if s.m.tan.role = .solo then s.m.plan.measured else []) = .inl p →
      let k := ({ s.m with change := { s.m.change with phase := 2, plan := some p },
                           plan := { s.m.plan with state := 2, replans := Nat.min 255 (s.m.plan.replans + 1) } } : Mod).keepPlan p
      Makes .onlinePlanDone s (if s.m.tan.role = .active ∨ s.m.tan.role = .standby then k.announce c.icrc (BitVec.ofNat 256 (beNat p.hash)) else k)) ∧
    (s.m.change.phase = 2 → s.m.tan.role = .standby → Makes .onlinePrepareDone s s.m.prepTabs) ∧
    (s.m.change.phase = 2 → s.m.tan.role ≠ .standby → (s.m.tan.role = .active → s.m.change.peer = 1) →
      let k := ({ s.m.prepTabs with change := { s.m.change with bnum := 0 } } : Mod).changeHeader
      (k.hdrLost = false ∨ 2 ≤ s.m.change.how → Makes .onlinePrepareDone s k.fixB) ∧
      (k.hdrLost = true → s.m.change.how < 2 → Makes .onlinePrepareDone s (k.refuseAs 9 0 0))) ∧
    (s.m.change.phase = 2 → s.m.tan.role = .active → s.m.change.peer ≠ 1 → Makes .onlinePrepareDone s (s.m.prepTabs.refuseChange 8 0).sendHello) ∧
    (∀ b : Nat, s.m.change.phase = 4 → s.m.change.b = some b → s.m.tan.role = .active → s.m.change.partnerAck = false →
      s.m.change.proposals < 3 →
      let m1 := s.m.toNow (b - unitsMs 5)
      Makes .bProposalTimeout s (({ m1 with change := { m1.change with proposals := m1.change.proposals + 1 } } : Mod).fixB)) ∧
    (∀ (b : BitVec 96) (n : BitVec 8), s.m.tan.role = .standby → s.m.change.phase = 4 →
      (4 ≤ n.toNat → Makes (.bPropose b n) s (s.m.detach 9)) ∧
      (n.toNat < 4 →
        let u := dtTicks b * 2 ^ 14
        Makes (.bPropose b n) s
          (({ s.m with change := { s.m.change with b := some u, switchAt := dtimeOf u, bnum := n } } : Mod).control 3 (natLe 1 n.toNat)))) ∧
    (∀ (b : BitVec 96) (n : BitVec 8), s.m.tan.role = .standby → s.m.change.phase = 2 → s.m.prepTabs.changeHeader.hdrLost = false → n.toNat < 4 →
      let k := s.m.prepTabs.changeHeader
      let u := dtTicks b * 2 ^ 14
      Makes (.bPropose b n) s
        (({ k with change := { k.change with phase := 4, b := some u, switchAt := dtimeOf u, bnum := n } } : Mod).control 3 (natLe 1 n.toNat))) ∧
    (s.m.change.phase = 4 → Makes (.bAck s.m.change.bnum) s { s.m with change := { s.m.change with partnerAck := true } }) ∧
    (∀ (p : Plan) (b : Nat), s.m.plan.next = some (p, b) →
      let m1 := ((s.m.toNow b).replan p).sendHello
      Makes .replanSwitch s (if m1.tan.sh.waiting then m1.serveResync else m1))) ∧
  (∀ s : State,
    (s.m.live = true → s.m.change.phase = 1 → ∀ c : Cfg, s.m.change.cfg = some c →
      let check := imgCheck s.m.bank.main s.m.cas.ownerKey (s.m.slotImage s.m.change.slot)
      let fits := checkReqs (s.m.slotImage s.m.change.slot) s.m.fwMain s.m.bank.si.version s.m.otp.hwRev s.m.otp.variantE
      (∀ f, check = some f → Makes .onlinePlanDone s (s.m.refuseChange f.step 0)) ∧
      (check = none → fits = false → Makes .onlinePlanDone s (s.m.refuseChange 7 0)) ∧
      (∀ r, check = none → fits = true → s.m.planChange c (if s.m.tan.role = .solo then s.m.plan.measured else []) = .inr r →
        Makes .onlinePlanDone s ((s.m.planRejected r).refuseChange 8 r.code))) ∧
    (s.m.change.phase ≠ 1 ∨ s.m.change.cfg = none → Makes .onlinePlanDone s s.m) ∧
    (s.m.change.phase ≠ 2 → Makes .onlinePrepareDone s s.m) ∧
    (s.m.change.phase ≠ 4 ∨ s.m.change.b = none ∨ s.m.tan.role ≠ .active ∨ s.m.change.partnerAck = true ∨ 3 ≤ s.m.change.proposals →
      Makes .bProposalTimeout s s.m) ∧
    (∀ (b : BitVec 96) (n : BitVec 8), s.m.tan.role ≠ .standby → Makes (.bPropose b n) s s.m) ∧
    (∀ (b : BitVec 96) (n : BitVec 8), s.m.live = true → s.m.tan.role = .standby →
      (s.m.change.phase ≠ 2 → s.m.change.phase ≠ 4 → Makes (.bPropose b n) s (if 4 ≤ n.toNat then s.m.detach 9 else s.m)) ∧
      (s.m.change.phase = 2 → s.m.prepTabs.changeHeader.hdrLost = false → 4 ≤ n.toNat →
        let k := s.m.prepTabs.changeHeader
        Makes (.bPropose b n) s (({ k with change := { k.change with phase := 4 } } : Mod).detach 9))) ∧
    (∀ n : BitVec 8, s.m.change.phase ≠ 4 ∨ s.m.change.bnum ≠ n → Makes (.bAck n) s s.m) ∧
    (s.m.plan.next = none → Makes .replanSwitch s s.m))

/-- On a live module each of the six commands answers a next state. A change whose image passes and is planned is then prepared with that plan. A prepared change has a boundary B fixed and not yet acknowledged. A proposal that fails counts and gives a new B. A standby that has prepared a change takes the B of a proposal below the fourth as proposed, and is DETACHED with reason 9 by the fourth. The acknowledgement of the latest proposal is noted. A waiting plan becomes the plan in use. -/
def Obligations.OnlineChangeCommandsComplete : Prop :=
  ∀ s : State, s.m.live = true →
    (∀ (c : Cfg) (p : Plan), s.m.change.phase = 1 → s.m.change.cfg = some c →
      imgCheck s.m.bank.main s.m.cas.ownerKey (s.m.slotImage s.m.change.slot) = none →
      checkReqs (s.m.slotImage s.m.change.slot) s.m.fwMain s.m.bank.si.version s.m.otp.hwRev s.m.otp.variantE = true →
      s.m.planChange c (if s.m.tan.role = .solo then s.m.plan.measured else []) = .inl p →
      ∃ t : State, Sys2Proof.Machine.exec .onlinePlanDone s = .next t ∧
        t.m.change.phase = 2 ∧ t.m.change.plan = some p ∧ t.m.plan.state = 2 ∧ t.pending = s.pending) ∧
    (s.m.change.phase = 2 → 2 ≤ s.m.change.how → s.m.tan.role ≠ .standby → (s.m.tan.role = .active → s.m.change.peer = 1) →
      ∃ t : State, Sys2Proof.Machine.exec .onlinePrepareDone s = .next t ∧
        t.m.change.phase = 4 ∧ t.m.change.b.isSome = true ∧ t.m.change.partnerAck = false ∧ t.pending = s.pending) ∧
    (∀ b : Nat, s.m.change.phase = 4 → s.m.change.b = some b → s.m.tan.role = .active → s.m.change.partnerAck = false →
      s.m.change.proposals < 3 →
      ∃ t : State, Sys2Proof.Machine.exec .bProposalTimeout s = .next t ∧
        t.m.change.proposals = s.m.change.proposals + 1 ∧ t.m.change.bnum = s.m.change.bnum + 1 ∧ t.m.change.partnerAck = false ∧
        t.m.change.b = some (boundaryFrom s.m.cfg.tasks ((s.m.toNow (b - unitsMs 5)).tb.now + unitsMs 10)) ∧ t.pending = s.pending) ∧
    (∀ (b : BitVec 96) (n : BitVec 8), s.m.tan.role = .standby → s.m.change.phase = 4 →
      (n.toNat < 4 → ∃ t : State, Sys2Proof.Machine.exec (.bPropose b n) s = .next t ∧
        t.m.change.b = some (dtTicks b * 2 ^ 14) ∧ t.m.change.bnum = n ∧ t.m.change.phase = 4 ∧ t.pending = s.pending) ∧
      (4 ≤ n.toNat → ∃ t : State, Sys2Proof.Machine.exec (.bPropose b n) s = .next t ∧
        t.m.tan.role = .detached ∧ t.m.tan.detach = 9 ∧ t.pending = s.pending)) ∧
    (∀ n : BitVec 8, s.m.change.phase = 4 → s.m.change.bnum = n →
      ∃ t : State, Sys2Proof.Machine.exec (.bAck n) s = .next t ∧ t.m.change.partnerAck = true ∧ t.m.tb = s.m.tb ∧ t.m.tan = s.m.tan ∧
        t.pending = s.pending) ∧
    (∀ (p : Plan) (b : Nat), s.m.plan.next = some (p, b) → s.m.tan.sh.waiting = false →
      ∃ t : State, Sys2Proof.Machine.exec .replanSwitch s = .next t ∧
        t.m.plan.plan = some p ∧ t.m.plan.hash = p.hash ∧ t.m.plan.next = none ∧ t.m.plan.state = 2 ∧ t.pending = s.pending)

/-- On a live module: samples of a channel, 10 µs apart, run time on and, where the channel is in use, pass the filter and release the EVENT tasks once for each filtered change; FLICKER and STUCK_ON are set at the instant they fall due, and nothing happens where none is due; the chatter evaluation runs 1 s after the last one. In every state, also in reset, a new level of a group's field supply is noted with its hysteresis (R455), and its loss is a demand on the group's stages and switches them off, and its return lets an abandoned test come due again, the other group being left as it is. -/
def Obligations.DigitalInputsDebounceAndDiagnose : Prop :=
  ∀ s : State,
    (s.m.live = true → ∀ ch : Fin 32,
      let h := s.m.dioCh ch
      (∀ samples : List Bool,
        let m1 := s.m.to (lastSample s.m.mono + samples.length * samplePh)
        let r := (m1.dioCh ch).samples (m1.dioCfg ch) m1.tb samples
        Makes (.diFilterChange ch samples) s
          (if (m1.dioCfg ch).use = 0 then m1 else (m1.updDio ch fun _ => r.1).dioTriggers ch r.2)) ∧
      (∀ d : Nat, h.flickerDue (s.m.dioCfg ch) = some d →
        Makes (.diFlicker ch) s ((s.m.to d).updDio ch fun h => { h with flicker := true })) ∧
      (h.flickerDue (s.m.dioCfg ch) = none → Makes (.diFlicker ch) s s.m) ∧
      (∀ d : Nat, h.stuckDue (s.m.dioCfg ch) = some d →
        Makes (.diStuckOn ch) s ((s.m.to d).updDio ch fun h => { h with stuckOn := true })) ∧
      (h.stuckDue (s.m.dioCfg ch) = none → Makes (.diStuckOn ch) s s.m) ∧
      (let m1 := s.m.to (h.evalAt + phS 1)
       Makes (.diChatterEvaluation ch) s (m1.updDio ch fun h => h.evaluate (m1.dioCfg ch) m1.mono))) ∧
    (∀ (grp : Fin 2) (mv : Nat),
      let ok := ufPresent (at_ s.m.dio.ufOk grp false) mv
      let was := at_ s.m.dio.ufOk grp false
      Makes (.ufSupplyChange grp mv) s
        { s.m with dio := { s.m.dio with
            ufMv := put s.m.dio.ufMv grp mv
            ufOk := put s.m.dio.ufOk grp ok
            ch := if was = ok then s.m.dio.ch
                  else mapFrom (fun i h => if dioGroup i ≠ grp then h else if ok then h.rested s.m.mono else { h.demand with offAt := s.m.mono })
                    0 s.m.dio.ch } })

/-- On a live module: OVERLOAD, a thermal shutdown and, with OPENLOAD, an open load are taken over while the stage drives its pin ON and change nothing otherwise; recovery ends the shutdown; a latched channel commanded FALSE is released 10 ms after that value began; EXT_DRIVE is set at its instant against a low expected or driven level and clears 1 s after the readback fell; PARTNER_NO_DRIVE is set on a paralleled pin 1 ms after masking; a dark test starts only where allowed, noting start and next test, and ends with its verdict: at once for a fallen readback, after 250 µs otherwise. -/
def Obligations.DigitalOutputsProtectAndTestTheirStages : Prop :=
  ∀ s : State, s.m.live = true → ∀ ch : Fin 32,
    let m := s.m
    let h := m.dioCh ch
    (Makes (.doOverload ch) s (if m.dioDriven ch then m.updDio ch fun h => { h with overload := true } else m)) ∧
    (Makes (.doThermalShutdown ch) s (if m.dioDriven ch then m.updDio ch fun h => h.shutdown m.mono else m)) ∧
    (Makes (.doThermalRecovery ch) s (m.updDio ch fun h => { h with thermal := false })) ∧
    (Makes (.doOpenLoad ch) s
      (if (m.dioCfg ch).openload && m.dioDriven ch then m.updDio ch fun h => { h with openLoad := true } else m)) ∧
    (h.latched = true → h.cmd = false →
      Makes (.thermalLatchRelease ch) s
        ((m.to (h.cmdFalseFrom.getD 0 + phMs 10)).updDio ch fun h => { h with latched := false, thermAt := [] })) ∧
    (h.latched = false ∨ h.cmd = true → Makes (.thermalLatchRelease ch) s m) ∧
    (m.parallel ch = false →
      (m.extDriveSeen ch = true → Makes (.extDrive ch) s
        ((m.to (Nat.max (h.offAt + phMs 1) (h.trueFrom.getD 0) + phMs 1)).updDio ch fun h => { h with extDrive := true, extSeen := true })) ∧
      (m.extDriveSeen ch = false → Makes (.extDrive ch) s m) ∧
      Makes (.partnerNoDrive ch) s m) ∧
    (m.parallel ch = true →
      let n := m.noteExpected ch
      let g := n.dioCh ch
      (n.extDriveSeen ch = true → Makes (.extDrive ch) s
        ((n.to (g.maskFrom + phMs 1)).updDio ch fun h => { h with extDrive := true, extSeen := true })) ∧
      (n.extDriveSeen ch = false → Makes (.extDrive ch) s n) ∧
      (g.expected = true → g.level = false →
        Makes (.partnerNoDrive ch) s ((n.to (g.maskFrom + phMs 1)).updDio ch fun h => { h with partnerNoDrive := true })) ∧
      (g.expected = false ∨ g.level = true → Makes (.partnerNoDrive ch) s n)) ∧
    (h.extDrive = true → h.level = false →
      Makes (.extDriveClear ch) s ((m.to (h.falseFrom + phS 1)).updDio ch fun h => { h with extDrive := false })) ∧
    (h.extDrive = false ∨ h.level = true → Makes (.extDriveClear ch) s m) ∧
    (m.darkAllowed ch = true →
      let m1 := m.updDio ch fun h => { h with testFrom := some m.mono, dtNext := m.mono + phS (m.dioCfg ch).dtest }
      Makes (.darkTestStart ch) s { m1 with dio := { m1.dio with dtLast := put m1.dio.dtLast (dioGroup ch) m.mono } }) ∧
    (m.darkAllowed ch = false → Makes (.darkTestStart ch) s m) ∧
    (∀ a : Nat, h.testFrom = some a →
      Makes (.darkTestEnd ch true) s (m.updDio ch fun h => { h with testFrom := none, darkFail := false, darkSeen := h.darkSeen }) ∧
      Makes (.darkTestEnd ch false) s
        ((m.to (a + phUs 250)).updDio ch fun h => { h with testFrom := none, darkFail := true, darkSeen := true })) ∧
    (∀ low : Bool, h.testFrom = none → Makes (.darkTestEnd ch low) s m)

/-- On a live module: an edge at a pulse input in use and a step, Z pulse or invalid step of an incremental encoder change that input or encoder alone; on an input or encoder not so configured nothing happens. 10 s without an edge set the frequency to 0; 100 ms after the last invalid step the encoder fault clears; an SSI telegram ends 8/5 of its nominal length after it began and is taken over; where none of these is running nothing happens. The overload of the encoder supply sets its fault and its latch. -/
def Obligations.PulseAndEncoderInputsCount : Prop :=
  ∀ s : State, s.m.live = true →
    let m := s.m
    (∀ (p : Fin 8) (rising : Bool) (w : Nat),
      Makes (.piEdge p rising w) s
        (if (m.piCfg p).use = 1 then m.updPi p fun c => c.edge (m.piCfg p) rising w m.dt m.mono else m)) ∧
    (∀ (p : Fin 8) (a : Nat), (at_ m.dio.pi p {}).newest = some a →
      let m1 := m.to (a + phS 10)
      Makes (.piFreqTimeout p) s (m1.updPi p fun c => { c.settle (m1.piCfg p) m1.mono with f := 0 })) ∧
    (∀ p : Fin 8, (at_ m.dio.pi p {}).newest = none → Makes (.piFreqTimeout p) s m) ∧
    (∀ e : Fin 4,
      (∀ up : Bool, Makes (.encCountStep e up) s
        (if (m.encCfg e).kind = 1 then m.updEnc e fun c => c.step (m.encCfg e) up m.mono else m)) ∧
      Makes (.encZEdge e) s (if (m.encCfg e).kind = 1 then m.updEnc e fun c => c.zEdge (m.encCfg e) m.mono else m) ∧
      Makes (.encInvalidStep e) s (if (m.encCfg e).kind = 1 then m.updEnc e fun c => c.invalid m.mono else m) ∧
      (∀ a : Nat, (at_ m.dio.enc e {}).invalidAt = some a →
        Makes (.encFaultExpiry e) s ((m.to (a + phMs 100)).updEnc e fun c => { c with encFault := false, invalidAt := none })) ∧
      ((at_ m.dio.enc e {}).invalidAt = none → Makes (.encFaultExpiry e) s m) ∧
      (∀ (raw : BitVec 32) (low high : Bool),
        (∀ a : Nat, (at_ m.dio.enc e {}).ssiFrom = some a →
          let m1 := m.to (a + (m.encCfg e).telegramNs * 8 / 5)
          Makes (.ssiTelegramComplete e raw low high) s
            (m1.updEnc e fun k => k.telegram (m.encCfg e) raw.toNat low high m1.mono)) ∧
        ((at_ m.dio.enc e {}).ssiFrom = none → Makes (.ssiTelegramComplete e raw low high) s m))) ∧
    Makes .encSupplyOverload s { m with dio := { m.dio with encSupFault := true, encSupSeen := true } }

/-- On a live module: a conversion of a channel in use is taken at the channel's next grid instant with the trim, the shed state, the reference and the malfunction time of that instant; the keeper of the channel opening once the section has been supplied for 10 ms; a channel not used changes nothing. The loop supply is sampled 1 ms after the last sample; its thermal trip acts on a supply that is on, and it restarts 1 s after switching off unless the section is shed. A sense sample of an output comes 50 µs after the last; a compliance fault clears at its instant with OPEN and SHORT; AO_THERMAL sets the junction state. -/
def Obligations.AnalogueChannelsConvertSenseAndProtect : Prop :=
  ∀ s : State, s.m.live = true →
    let m := s.m
    (∀ (ch : Fin 16),
      (∀ raw : Real32,
        ((m.aiCfg ch).use = 0 → Makes (.aiConversion ch raw) s m) ∧
        ((m.aiCfg ch).use ≠ 0 →
          let m1 := m.toNow ((m.aiCh ch).next (m.aiCfg ch))
          Makes (.aiConversion ch raw) s (m1.updAi ch fun h =>
            (h.keep (m1.an.shed || decide (m1.mono < m1.an.suppliedAt + phMs 10))).convert (m.aiCfg ch) raw (m1.trim 0 ch) m1.an.shed m1.an.adcRef (m1.aiMalf ch) m1.tb.now m1.dt))) ∧
      (∀ ua : Nat,
        let m1 := m.to ((m.aiCh ch).lsAt + phMs 1)
        Makes (.lsUpdate ch ua) s (m1.updAi ch fun h => h.lsUpdate (m1.aiCfg ch) ua m1.mono)) ∧
      Makes (.lsThermalOff ch) s (m.updAi ch fun h => if h.lsOn then h.lsThermalTrip m.mono else h) ∧
      ((m.aiCh ch).lsThermal = true → m.an.shed = false →
        Makes (.lsThermalRestart ch) s ((m.to ((m.aiCh ch).lsOffAt + phS 1)).updAi ch fun h => h.lsEnable)) ∧
      ((m.aiCh ch).lsThermal = false ∨ m.an.shed = true → Makes (.lsThermalRestart ch) s m)) ∧
    (∀ ch : Fin 8,
      (∀ mA : Real32,
        let m1 := m.to ((m.aoCh ch).sampleAt + phUs 50)
        Makes (.aoSenseSample ch mA) s (m1.updAo ch fun h => h.sense (m1.aoCfg ch) (m1.trim 1 ch) m1.an.shed mA m1.mono)) ∧
      ((m.aoCh ch).compliance = true →
        Makes (.complianceClear ch) s
          ((m.to (m.aoCh ch).clearDue).updAo ch fun h => { h with compliance := false, open_ := false, short := 0 })) ∧
      ((m.aoCh ch).compliance = false → Makes (.complianceClear ch) s m) ∧
      (∀ hot : Bool, Makes (.aoThermal ch hot) s (m.updAo ch fun h => { h with thermal := hot })))

/-- On a live module: a response to a device of the configuration is heard and, where it answers the command in progress, ends that transaction; a burst is taken over where bursts are accepted; a transaction that times out fails, and nothing happens where none is in progress; a LOST device is identified again and a scan falls due at their instants. HART_PT_REQ, written with role ENGINEER, is queued by a module that holds ACT for an entry that is not LOST while no other is queued, answers OK and leaves 1 in PSTAT; 2 s after its acceptance it ends with TIMEOUT. A HART_PT_REQ of a wrong length is refused with LENGTH, of an entry that does not exist with RANGE, without ACT with NOT_ACTIVE and 3 in PSTAT, while another is queued with BUSY and 5, and a LOST device leaves 4 in PSTAT. -/
def Obligations.HartDevicesAnswerFailAndPassThrough : Prop :=
  (∀ s : State, s.m.live = true →
    let m := s.m
    (∀ k : Fin 24,
      (∀ r : HartRsp, k.val < m.an.hart.length →
        ((m.hartDev k).trans = none → m.act = true → Makes (.hartResponse k r) s (m.hartHeard k r)) ∧
        ((m.hartDev k).trans = none → m.act = false →
          Makes (.hartResponse k r) s ((m.hartHeard k r).updHart k fun d => { d with st := 2 })) ∧
        (∀ t, (m.hartDev k).trans = some t →
          ((hartCmd (m.hartCfg k) t m.an.pt).1 ≠ r.cmd →
            Makes (.hartResponse k r) s (m.hartHeard k r)) ∧
          ((hartCmd (m.hartCfg k) t m.an.pt).1 = r.cmd →
            let m2 := (m.hartHeard k r).updHart k fun d => { d with trans := none, tries := 0, fails := 0 }
            Makes (.hartResponse k r) s ((if t = .pass then m2.ptEnd 0 r.rc r.devStat r.data else m2).hartGo k)))) ∧
      (∀ r : HartRsp, m.an.hart.length ≤ k.val → Makes (.hartResponse k r) s m ∧ Makes (.hartBurst k r) s m) ∧
      (∀ r : HartRsp, k.val < m.an.hart.length →
        ((m.hartCfg k).acceptBurst = true →
          Makes (.hartBurst k r) s (m.updHart k fun d => { d with burstSeen := true, dv := r.dv, devStat := r.devStat, rc := r.rc })) ∧
        ((m.hartCfg k).acceptBurst = false → Makes (.hartBurst k r) s m)) ∧
      ((m.hartDev k).trans.isSome = true → Makes (.hartTransactionTimeout k) s (m.hartFail k)) ∧
      ((m.hartDev k).trans = none → Makes (.hartTransactionTimeout k) s m) ∧
      (∀ a : Nat, (m.hartDev k).st = 3 → (m.hartDev k).reidentAt = some a →
        let m1 := m.to a
        Makes (.hartReidentify k) s ((m1.updHart k fun d => { d with identDue := true, reidentAt := some (m1.mono + phS 10) }).hartGo k)) ∧
      ((m.hartDev k).st ≠ 3 → Makes (.hartReidentify k) s m) ∧
      (∀ a : Nat, (m.hartDev k).scanAt = some a →
        let m1 := m.to a
        Makes (.hartScanDue k) s
          ((m1.updHart k fun d => { d with scanDue := true, scanAt := some (m1.mono + phMs (100 * (m1.hartCfg k).scanPer)) }).hartGo k)) ∧
      ((m.hartDev k).scanAt = none → Makes (.hartScanDue k) s m)) ∧
    (∀ (rq : Req) (x : Session) (data : Bytes), heard m rq x → 3 ≤ x.role → m.maint = false →
      data.length = 4 + (at_ data 2 0).toNat → (at_ data 2 0).toNat ≤ 240 → (at_ data 0 0).toNat < m.cfg.hart.length →
      m.act = true → m.an.pt = none → (m.hartDev (at_ data 0 0).toNat).st ≠ 3 →
      let n := m.touchSession rq.sess
      let p : HartPt := { entry := (at_ data 0 0).toNat, cmd := at_ data 1 0, tag := at_ data 3 0, data := data.drop 4, due := m.mono + phS 2 }
      Makes (.hartPtReq rq data) s
        ((({ n with an := { n.an with pt := some p, ptRsp := ptResponse p 1 0 0 [] } } : Mod).hartGo p.entry).respond
          rq stOk (writeResult stOk))) ∧
    (∀ p : HartPt, m.an.pt = some p →
      let m1 := m.to p.due
      let m2 := m1.ptEnd 2 0 0 []
      Makes .hartPtTimeout s ((m2.updHart p.entry fun d =>
        if d.trans = some .pass then { d with trans := none, tries := 0 } else d).hartGo p.entry)) ∧
    (m.an.pt = none → Makes .hartPtTimeout s m)) ∧
  (∀ (s : State) (rq : Req) (x : Session) (data : Bytes), heard s.m rq x → 3 ≤ x.role → s.m.maint = false →
    let m := s.m.touchSession rq.sess
    let p : HartPt := { entry := (at_ data 0 0).toNat, cmd := at_ data 1 0, tag := at_ data 3 0, data := data.drop 4, due := s.m.mono + phS 2 }
    let tells (pstat : Nat) : Mod := { m with an := { m.an with ptRsp := ptResponse p pstat 0 0 [] } }
    let gives (k : Mod) (st : Nat) : Prop := Makes (.hartPtReq rq data) s (k.respond rq stOk (writeResult st))
    (data.length < 4 ∨ data.length ≠ 4 + (at_ data 2 0).toNat ∨ 240 < (at_ data 2 0).toNat → gives m stLength) ∧
    (data.length = 4 + (at_ data 2 0).toNat → (at_ data 2 0).toNat ≤ 240 →
      (s.m.cfg.hart.length ≤ (at_ data 0 0).toNat → gives m stRange) ∧
      ((at_ data 0 0).toNat < s.m.cfg.hart.length →
        (s.m.act = false → gives (tells 3) stNotActive) ∧
        (s.m.act = true → (s.m.an.pt.isSome = true → gives (tells 5) stBusy) ∧
          (s.m.an.pt = none → (s.m.hartDev (at_ data 0 0).toNat).st = 3 → gives (tells 4) stOk)))))

/-- On a live module whose clocks are on the PLL: a frame ending on the bus is received by the controller unless a link test disconnects it, an object store taking the device time at which the frame began and releasing the EVENT tasks of the object; a transmission that succeeds leaves the module and is counted; lost arbitration and, outside a link test, a bus error change the controller alone, entries to error-passive and bus-off being recorded; TXTMO and RTMO run out at the instant of their object and do nothing where none is armed. In the forced override, as in reset, none of these does anything (R502). -/
def Obligations.CanFramesMoveThroughTheirObjects : Prop :=
  ∀ (s : State) (c : Fin 4),
    let m := s.m
    (m.live = true → m.clk.override = false →
      (∀ f : CanFrame,
        (m.testing (9 + c.val) = true → Makes (.canFrameReceived c f) s m) ∧
        (m.testing (9 + c.val) = false →
          let n := m.draw.2
          let r := (n.can c).receive (n.canCfg c) n.cfg.can.cands f n.act n.dt n.mono m.draw.1.toNat
          let k := ((n.updCan c fun _ => r.1.stamped r.2 (n.canSof c f)).count 0x60 c 1).logCan c (m.can c).st
          (r.2 = none → Makes (.canFrameReceived c f) s k) ∧
          (∀ obj, r.2 = some obj → Makes (.canFrameReceived c f) s (k.trigger 2 obj fun q => q == c.val)))) ∧
      (let r := (m.can c).txSuccess (m.canCfg c)
       (r.2 = none → Makes (.canTxSuccess c) s (m.updCan c fun _ => r.1)) ∧
       (∀ f, r.2 = some f → Makes (.canTxSuccess c) s (((m.updCan c fun _ => r.1).send (.can c f)).count 0x60 c 1))) ∧
      Makes (.canArbitrationLost c) s (m.updCan c fun k => k.arbLost (m.canCfg c) m.mono) ∧
      (∀ (e : CanErr) (tx : Bool), Makes (.canBusError c e tx) s (if m.testing (9 + c.val) = true then m else
        (m.updCan c fun k => k.busError (m.canCfg c) m.cfg.can.cands e tx m.mono m.optime).logCan c (m.can c).st)) ∧
      (∀ obj : Nat,
        (∀ d : Nat, (at_ (m.can c).tx obj {}).due = some d →
          let n := m.to d
          Makes (.canTxtmoExpiry c obj) s (n.updCan c fun k => k.txTimeout obj n.mono)) ∧
        ((at_ (m.can c).tx obj {}).due = none → Makes (.canTxtmoExpiry c obj) s m) ∧
        (∀ d : Nat, (at_ (m.can c).rx obj {}).due = some d →
          Makes (.canRtmoExpiry c obj) s
            ((m.to d).updCan c fun k => { k with rx := upd k.rx obj fun o => { o with timeout := true, due := none } })) ∧
        ((at_ (m.can c).rx obj {}).due = none → Makes (.canRtmoExpiry c obj) s m))) ∧
    (m.live = false ∨ m.clk.override = true →
      (∀ f : CanFrame, Makes (.canFrameReceived c f) s m) ∧ Makes (.canTxSuccess c) s m ∧ Makes (.canArbitrationLost c) s m ∧
      (∀ (e : CanErr) (tx : Bool), Makes (.canBusError c e tx) s m) ∧
      (∀ obj : Nat, Makes (.canTxtmoExpiry c obj) s m ∧ Makes (.canRtmoExpiry c obj) s m))

/-- On a live module whose clocks are on the PLL: the wait after bus-off ends at its instant in recovery, whose completion rejoins the bus; integration needs ACT; 250 ms after the claim the address may be used and the long objects start; the packet timer of a transmission and the timeout of a reassembly or of a transmission that waits for its partner act at the instant of their session, and a session that does not exist or waits for nothing is left as it is. In the forced override, as in reset, none of these does anything. -/
def Obligations.CanRecoveryIntegrationAndTransport : Prop :=
  (∀ (s : State) (c : Fin 4), s.m.live = true → s.m.clk.override = false →
    let m := s.m
    let k := m.can c
    (∀ d : Nat, k.st = .busOff → k.boffDue = some d →
      Makes (.canRecoveryStart c) s ((m.to d).updCan c fun k => { k with st := .recovering, boffDue := none })) ∧
    (k.st ≠ .busOff ∨ k.boffDue = none → Makes (.canRecoveryStart c) s m) ∧
    Makes (.canRecoveryComplete c) s (m.updCan c fun k => k.recovered (m.canCfg c) m.mono) ∧
    (m.act = true → Makes (.canBusIntegration c) s (m.updCan c fun k => k.integrate (m.canCfg c) m.mono)) ∧
    (m.act = false → Makes (.canBusIntegration c) s m) ∧
    (∀ d : Nat, k.claimAt = some d →
      let n := m.to d
      Makes (.addressClaimWait c) s (n.updCan c fun k =>
        (({ k with claimed := true, claimAt := none } : Can).startLongs (n.canCfg c) n.mono).offer (n.canCfg c))) ∧
    (k.claimAt = none → Makes (.addressClaimWait c) s m) ∧
    (∀ (i : Nat) (t : CanTxSess), k.txSess[i]? = some t →
      let n := m.to t.due
      (t.phase = 0 →
        Makes (.transportPacketTimer c i) s (n.updCan c fun k => (k.packetTimer i n.mono).offer (n.canCfg c)) ∧
        Makes (.transportSessionTimeout c false i) s m) ∧
      (t.phase ≠ 0 →
        Makes (.transportPacketTimer c i) s m ∧
        Makes (.transportSessionTimeout c false i) s (n.updCan c fun k => k.sessTimeout false i))) ∧
    (∀ (i : Nat) (t : CanRxSess), k.rxSess[i]? = some t →
      Makes (.transportSessionTimeout c true i) s ((m.to t.due).updCan c fun k => k.sessTimeout true i)) ∧
    (∀ i : Nat, k.txSess[i]? = none → Makes (.transportPacketTimer c i) s m ∧ Makes (.transportSessionTimeout c false i) s m) ∧
    (∀ i : Nat, k.rxSess[i]? = none → Makes (.transportSessionTimeout c true i) s m)) ∧
  (∀ (s : State) (c : Fin 4), s.m.live = false ∨ s.m.clk.override = true →
    Makes (.canRecoveryStart c) s s.m ∧ Makes (.canRecoveryComplete c) s s.m ∧ Makes (.canBusIntegration c) s s.m ∧
    Makes (.addressClaimWait c) s s.m ∧ (∀ i : Nat, Makes (.transportPacketTimer c i) s s.m) ∧
    (∀ (rx : Bool) (i : Nat), Makes (.transportSessionTimeout c rx i) s s.m))

/-- In every state: a CMON window is discarded while CMON is inhibited; otherwise its count is kept and it passes from 226 to 286, and outside that range it is a clock fault of cause 1 unless the override lasts. Loss of lock with the PLL locked outside the override is cause 2. A gate is judged, and a qualified CLKIN asks every domain back to the PLL. A completed switch gives the domain its source, and the one that ends the override ends its effects. A switch not complete after 4,096 cycles counts a stall and is cause 3. A fault is the forced override, and on a live module a fatal condition besides. -/
def Obligations.ClockSupervisionForcesAndLeavesTheOverride : Prop :=
  ∀ s : State,
    let m := s.m
    let faulted (n : Mod) (cause : Nat) : Mod :=
      if (n.overrideOn cause).live then (n.overrideOn cause).fatal 3 0 none else n.overrideOn cause
    (∀ count : Nat,
      let n : Mod := { m with clk := { m.clk with cmonCount := count, clkinOk := decide (226 ≤ count ∧ count ≤ 286) } }
      (m.clk.cmonEn = false → Makes (.cmonWindow count) s m) ∧
      (m.clk.cmonEn = true → (226 ≤ count ∧ count ≤ 286) ∨ m.clk.override = true → Makes (.cmonWindow count) s n) ∧
      (m.clk.cmonEn = true → ¬ (226 ≤ count ∧ count ≤ 286) → m.clk.override = false → Makes (.cmonWindow count) s (faulted n 1))) ∧
    (m.clk.pllLocked = true → m.clk.override = false → Makes .pllUnlock s (faulted m 2)) ∧
    (m.clk.pllLocked = false ∨ m.clk.override = true → Makes .pllUnlock s m) ∧
    (∀ count : Nat,
      ((m.clk.gate count).qualified = true → Makes (.qualificationGate count) s { m with clk := (m.clk.gate count).toPll m.mono }) ∧
      ((m.clk.gate count).qualified = false → Makes (.qualificationGate count) s { m with clk := m.clk.gate count })) ∧
    (∀ d : Domain,
      let c := m.clk.switched (domNo d)
      let n : Mod := { m with clk := c, tb := { m.tb with slow := if c.switching = m.clk.switching then m.tb.slow else at_ c.src 1 true } }
      (m.clk.override = false ∨ c.override = true → Makes (.derailleurSwitch d) s n) ∧
      (m.clk.override = true → c.override = false → Makes (.derailleurSwitch d) s n.overrideOff) ∧
      (∀ w : Nat × Bool × Nat, (m.clk.switching.find? fun w => w.1 == domNo d) = some w →
        let k := m.to (w.2.2 + ceilDiv (4096 * 1600000000) (domHz w.1 w.2.1))
        Makes (.derailleurStall d) s (faulted { k with clk := { k.clk with stall := true, stalls := k.clk.stalls + 1 } } 3)) ∧
      ((m.clk.switching.find? fun w => w.1 == domNo d) = none → Makes (.derailleurStall d) s m))

/-- CLK_SWITCH, heard with role SERVICE, acts only in MAINTENANCE: with the PLL as source outside the override, or the oscillator, of a domain 0 to 4 it replaces that domain's request by a new one unless the domain already runs from that source, and answers OK; outside MAINTENANCE the item answers CONDITION and nothing changes. FMC_REQ with sources up to 7 and a gate of 16 to 16,777,216 starts a measurement, answers OK, and ends at its instant with status 2 and the count. A gate closes on its acknowledgement; 1,024 cycles after the request gating is abandoned; an unrequested block is left as it is. A domain or source that does not exist is refused with RANGE, the PLL during the override with CONDITION; so is a measurement out of range with RANGE, and one while the counter is gated ends at once with status 4. -/
def Obligations.ClockRequestsMeasureSwitchAndGate : Prop :=
  (∀ (s : State),
    let m := s.m
    (∀ (rq : Req) (x : Session) (v : BitVec 16), heard m rq x → 4 ≤ x.role →
      let d := v.toNat % 256
      let osc := decide (v.toNat / 256 = 1)
      let n := m.touchSession rq.sess
      let rest := n.clk.switching.filter fun w => w.1 ≠ d
      (m.maint = false → Makes (.clkSwitch rq v) s (n.respond rq stOk (writeResult stCondition))) ∧
      (m.maint = true → d ≤ 4 → v.toNat / 256 ≤ 1 → (osc = false → m.clk.override = false) →
        Makes (.clkSwitch rq v) s
          (({ n with clk := { n.clk with switching := if at_ n.clk.src d false = osc then rest else rest ++ [(d, osc, m.mono)] } } : Mod).respond
            rq stOk (writeResult stOk)))) ∧
    (∀ (rq : Req) (x : Session) (v : BitVec 64), heard m rq x → 3 ≤ x.role → m.maint = false →
      let meas := v.toNat % 256
      let ref := v.toNat / 256 % 256
      let gate := v.toNat / 2 ^ 32
      meas ≤ 7 → ref ≤ 7 → 16 ≤ gate → gate ≤ 16777216 → m.clk.gated.contains .fmc = false →
      let n := m.touchSession rq.sess
      Makes (.fmcReq rq v) s (({ n with clk := n.clk.fmcStart meas ref gate m.mono } : Mod).respond rq stOk (writeResult stOk))) ∧
    (m.live = true →
      (∀ count : BitVec 32,
        (∀ t : Nat, m.clk.fmc.due = some t →
          let k := m.to t
          Makes (.fmcDone count) s { k with clk := { k.clk with fmc := { k.clk.fmc with status := 2, count := count, due := none } } }) ∧
        (m.clk.fmc.due = none → Makes (.fmcDone count) s m)) ∧
      (∀ b : GateBlk,
        ((m.clk.gating.any fun g => g.1 == b) = true →
          Makes (.gateQuiesceAck b) s { m with clk := { m.clk with gating := m.clk.gating.filter (fun g => g.1 ≠ b), gated := m.clk.gated ++ [b] } }) ∧
        ((m.clk.gating.any fun g => g.1 == b) = false → Makes (.gateQuiesceAck b) s m) ∧
        (∀ g : GateBlk × Nat, (m.clk.gating.find? fun g => g.1 == b) = some g →
          Makes (.gateRefused b) s { m.to g.2 with clk := (m.to g.2).clk.refuse b }) ∧
        ((m.clk.gating.find? fun g => g.1 == b) = none → Makes (.gateRefused b) s m)))) ∧
  (∀ (s : State) (rq : Req) (x : Session), heard s.m rq x →
    let m := s.m.touchSession rq.sess
    (∀ v : BitVec 16, 4 ≤ x.role → s.m.maint = true →
      (4 < v.toNat % 256 ∨ 1 < v.toNat / 256 → Makes (.clkSwitch rq v) s (m.respond rq stOk (writeResult stRange))) ∧
      (v.toNat % 256 ≤ 4 → v.toNat / 256 = 0 → s.m.clk.override = true → Makes (.clkSwitch rq v) s (m.respond rq stOk (writeResult stCondition)))) ∧
    (∀ v : BitVec 64, 3 ≤ x.role → s.m.maint = false →
      let meas := v.toNat % 256
      let ref := v.toNat / 256 % 256
      let gate := v.toNat / 2 ^ 32
      (7 < meas ∨ 7 < ref ∨ gate < 16 ∨ 16777216 < gate → Makes (.fmcReq rq v) s (m.respond rq stOk (writeResult stRange))) ∧
      (meas ≤ 7 → ref ≤ 7 → 16 ≤ gate → gate ≤ 16777216 → s.m.clk.gated.contains .fmc = true →
        Makes (.fmcReq rq v) s
          (({ m with clk := { m.clk with fmc := { m.clk.fmc with status := 4 } } } : Mod).respond rq stOk (writeResult stOk)))))

/-- In every state: a measurement of V_OR or of an input enters its register and moves its flags with the hysteresis of R509. V_OR below 5,400 mV, or a core rail, outside hold-up and reset is a supply failure: hold-up starts, the analogue section is shed, the instant goes into PF_TIME unless the backup interface is locked, and a live module releases its claim and is FAILED; otherwise nothing happens. HOLDUP_READY is set outside hold-up. The supply-failure reset and the exhaustion of the store, 100 ms after the failure, act in that order only. Reading VOR_MIN gives the least value and starts again from the present one, in MAINTENANCE as well. -/
def Obligations.SupplyCrossesFailsAndHoldsUp : Prop :=
  ∀ s : State,
    let m := s.m
    (∀ mv : Nat,
      let island : Si :=
        if m.si.powered = false then m.si
        else if mv < 5000 then (if m.si.monLow then m.si else m.si.trip m.mono)
        else if 5300 ≤ mv then { m.si with monLow := false } else m.si
      Makes (.supplyThresholdCrossing .vor mv) s { m with si := island, sup := { m.sup with
        vorMv := mv, vorMin := Nat.min m.sup.vorMin mv,
        belowErase := (if mv < 9000 then true else if 9400 ≤ mv then false else m.sup.belowErase),
        belowWrite := (if mv < 7200 then true else if 7600 ≤ mv then false else m.sup.belowWrite) } } ∧
      Makes (.supplyThresholdCrossing .vin1 mv) s { m with sup := { m.sup with
        vin1Mv := mv, vin1Ok := !(if mv < 5400 then true else if 5800 ≤ mv then false else !m.sup.vin1Ok) } } ∧
      Makes (.supplyThresholdCrossing .vin2 mv) s { m with sup := { m.sup with
        vin2Mv := mv, vin2Ok := !(if mv < 5400 then true else if 5800 ≤ mv then false else !m.sup.vin2Ok) } } ∧
      (∀ rail : Bool,
        (mv < 5400 ∨ rail = true → m.sup.holdupFrom = none → m.sup.resetAsserted = false →
          let n := ({ m with si := island, sup := { m.sup.vor mv with holdupFrom := some m.mono },
                             bkp := if m.bkp.locked then m.bkp else { m.bkp with pfTime := m.bkp.tai m.mono } } : Mod).shedAnalogue
          (m.live = true → Makes (.supplyFailure mv rail) s ((n.releaseClaim.toFailed 6).updTan fun t => { t with failedAt := none })) ∧
          (m.live = false → Makes (.supplyFailure mv rail) s n)) ∧
        ((5400 ≤ mv ∧ rail = false) ∨ m.sup.holdupFrom.isSome = true ∨ m.sup.resetAsserted = true →
          Makes (.supplyFailure mv rail) s m))) ∧
    (m.sup.holdupFrom = none → Makes .holdupReady s { m with sup := { m.sup with holdupReady := true, storeMv := 38000 } }) ∧
    (m.sup.holdupFrom.isSome = true → Makes .holdupReady s m) ∧
    (m.sup.holdupFrom.isSome = true → m.sup.resetAsserted = false →
      Makes .supplyFailReset s ({ m with sup := { m.sup with resetAsserted := true }, er := m.er.opStop m.mono,
                                         boot := { m.boot with order := none, pressAt := none, held := none } } : Mod).enterReset) ∧
    (m.sup.holdupFrom = none ∨ m.sup.resetAsserted = true → Makes .supplyFailReset s m) ∧
    (∀ a : Nat, m.sup.resetAsserted = true → m.sup.coreLost = false → m.sup.holdupFrom = some a →
      Makes .holdupStoreExhausted s (m.to (a + phMs 100)).corePowerLost) ∧
    (m.sup.resetAsserted = false ∨ m.sup.coreLost = true → Makes .holdupStoreExhausted s m) ∧
    (∀ (rq : Req) (x : Session), heard m rq x →
      let n := m.touchSession rq.sess
      Makes (.vorMin rq) s ((({ n with sup := { n.sup with vorMin := m.sup.vorMv } } : Mod).pass 1).respond rq stOk
        (readResult stOk (natLe 2 m.sup.vorMin))))

/-- In every state, for the backup domain alone but for the time that passes and one record: lockout locks the interface and changes the feed; unlock returns it to the main feed; the power-on reset clears time, alarms and PF_TIME; a change of VBAT moves a domain without the main feed to VBAT or the capacitor; VBAT_LOW and VBAT_ABSENT follow their thresholds and the rise of the first is recorded on a live module; compensation comes at the next second that is a multiple of 16; an armed alarm fires when the count reaches it; PWR_ON ends after 60 s of RTC time. The RTC is disciplined on a live module only while LOCKED and unlocked. -/
def Obligations.BackupDomainKeepsTimeAlarmsAndFeed : Prop :=
  ∀ s : State,
    let m := s.m
    let b := m.bkp
    (∀ mv : Nat,
      let feed (b : Bkp) : Bkp := if 2000 ≤ b.vbatMv then { b with source := 1 } else { b with source := 2, capUsed := true }
      Makes .backupLockout s { m with bkp := feed { b with locked := true } } ∧
      Makes (.vbatChangeover mv) s { m with bkp := if b.source = 0 then { b with vbatMv := mv } else feed { b with vbatMv := mv } } ∧
      (let n : Mod := { m with bkp := { b with vbatMv := mv, vbatLow := decide (mv < 2200), vbatAbsent := decide (mv < 1000) } }
       Makes (.vbatMeasure mv) s (if mv < 2200 ∧ b.vbatLow = false ∧ m.live = true then n.log 1 3 8 0 [] else n))) ∧
    Makes .backupUnlock s (if b.locked = true then { m with bkp := { b with locked := false, source := 0 } } else m) ∧
    Makes .backupPor s { m with bkp := b.powerOn m.mono } ∧
    (∀ t : Int,
      let n := m.to (b.reaches (b.nextComp m.mono))
      Makes (.rtcCompensation t) s { n with bkp := n.bkp.compensate t n.mono }) ∧
    (∀ i : Fin 2,
      let a := at_ b.alms i {}
      (a.armed = true →
        let n := m.to (b.reaches (a.target * 32768))
        Makes (.rtcAlarmFire i) s { n with bkp := (n.bkp.fire i n.mono).1 }) ∧
      (a.armed = false → Makes (.rtcAlarmFire i) s m)) ∧
    (∀ a : Nat, b.pwronFrom = some a →
      let n := m.to (a + ceilDiv (60 * cycleUnit) (100000000 + b.e).toNat)
      Makes .pwronTimeout s { n with bkp := { n.bkp with pwronFrom := none } }) ∧
    (b.pwronFrom = none → Makes .pwronTimeout s m) ∧
    (m.live = true → m.ptp.quality = .locked → b.locked = false → Makes .rtcDiscipline s (m.toNow m.disciplineDue).discipline) ∧
    (m.live = false ∨ m.ptp.quality ≠ .locked ∨ b.locked = true → Makes .rtcDiscipline s m)

/-- For a WRITE heard outside MAINTENANCE: with role ENGINEER, RTC_SHIFT by anything but −32,768 shifts the count and RTC_SET sets the seconds unless time is LOCKED; ALM_ARM arms an alarm at the 40-bit target with the wake of bit 40, a target not above the count firing late at once; with role OPERATE PWRON_ACT ends PWR_ON. Each answers OK, and while the interface is locked each answers the locked status and changes nothing. RTC_SHIFT by −32,768 is refused with RANGE, locked or not. -/
def Obligations.BackupRequestsShiftSetAndArm : Prop :=
  (∀ (s : State) (rq : Req) (x : Session), heard s.m rq x → s.m.maint = false →
    let m := s.m.touchSession rq.sess
    let wrote (b : Bkp) : Mod := ({ m with bkp := b } : Mod).respond rq stOk (writeResult stOk)
    let locked : Mod := m.respond rq stOk (writeResult stBkpLocked)
    (2 ≤ x.role → s.m.bkp.locked = false → Makes (.pwronAct rq) s (wrote { m.bkp with pwronFrom := none })) ∧
    (2 ≤ x.role → s.m.bkp.locked = true → Makes (.pwronAct rq) s locked) ∧
    (3 ≤ x.role →
      (∀ n : BitVec 16, n ≠ 0x8000 →
        (s.m.bkp.locked = false → Makes (.rtcShift rq n) s (wrote (m.bkp.shift n.toInt s.m.mono).1)) ∧
        (s.m.bkp.locked = true → Makes (.rtcShift rq n) s locked)) ∧
      (∀ v : BitVec 64,
        (s.m.bkp.locked = false → s.m.ptp.quality ≠ .locked → Makes (.rtcSet rq v) s (wrote (m.bkp.setSec v.toNat s.m.mono).1)) ∧
        (s.m.bkp.locked = false → s.m.ptp.quality = .locked → Makes (.rtcSet rq v) s (m.respond rq stOk (writeResult stPtpOwns))) ∧
        (s.m.bkp.locked = true → Makes (.rtcSet rq v) s locked) ∧
        (∀ i : Fin 2,
          (s.m.bkp.locked = false →
            Makes (.almArm rq i v) s (wrote (m.bkp.arm i (v.toNat % 2 ^ 40) (bitOf v.toNat 40) s.m.mono).1)) ∧
          (s.m.bkp.locked = true → Makes (.almArm rq i v) s locked))))) ∧
  (∀ (s : State) (rq : Req) (x : Session), heard s.m rq x → 3 ≤ x.role → s.m.maint = false →
    Makes (.rtcShift rq 0x8000) s ((s.m.touchSession rq.sess).respond rq stOk (writeResult stRange)))

/-- For an island that is powered and started, also while the main side is held in reset: the 250 µs cycle, the filter times, the test pulses, discrepancy, output tests, the automatic restart, a held reset, EDM, the re-read of the expected value and the brake-test times each run time on to their instant and change the island alone (the re-read also the bus of the cassette), or do nothing where none is armed. An island that is unpowered or not started is left as it is. -/
def Obligations.IslandRunsByItsOwnClock : Prop :=
  ∀ s : State,
    let i := s.m.si
    (i.powered = true → i.started = true →
      (∀ x : SiIn, ActsOnIsland (.siCycle x) s (some (i.grid (phUs 250) 0 s.m.mono)) fun k now => k.cycle x now) ∧
      (∀ p : Fin 9,
        let r := at_ i.pairs p {}
        ActsOnIsland (.siFilterElapsed p false) s (if r.a = true then none else some (i.filterDue p false r.openA)) (fun k now => k.filterElapsed p false now) ∧
        ActsOnIsland (.siFilterElapsed p true) s (if r.b = true then none else some (i.filterDue p true r.openB)) (fun k now => k.filterElapsed p true now) ∧
        ActsOnIsland (.siDiscrepancyTimeout p) s r.discAt fun k now => k.discrepancy p now) ∧
      (∀ high : BitVec 9,
        ActsOnIsland (.testPulse false high) s (some (i.grid (phMs 10) (phUs 200) s.m.mono)) (fun k _ => (k.testPulse false high).noteFaults) ∧
        ActsOnIsland (.testPulse true high) s (some (i.grid (phMs 10) (phMs 5 + phUs 200) s.m.mono)) fun k _ => (k.testPulse true high).noteFaults) ∧
      (∀ (o : Fin 7) (hs : Bool) (res : OutTest),
        ActsOnIsland (.siOutputTest o hs res) s (some (i.testDue o hs)) fun k now => k.outputTest o hs res now) ∧
      (∀ g : Fin 2, ActsOnIsland (.autoRestartElapsed g) s (if swAuto i.img = true then (at_ i.groups g {}).condFrom.map (· + phMs 100) else none)
        fun k now => if k.groupReady g then k.energise g now else k) ∧
      ActsOnIsland .resetHeld s i.heldDue
        (fun k now => k.holdReset now) ∧
      (∀ o : Fin 4, ActsOnIsland (.edmTimeout o) s (at_ i.outs o {}).edmAt fun k now => k.edmTimeout o now) ∧
      ActsAt .expectedReread s (some (i.lastRead + phS 60))
        (fun k => { k with cas := k.cas.islandReads, si := k.si.reread k.cas.safetyExpected k.mono }) ∧
      (∀ n : Fin 2,
        let b := i.brake n
        ActsOnIsland (.btTorqueTimeout n) s (if b.st = .granted then some (b.at_ + phS 10) else none)
          (fun k now => (k.btEnd n .aborted 5).settle now) ∧
        ActsOnIsland (.btTestTimeElapsed n) s (if b.st = .running then some (b.at_ + phS (swTestS i.img)) else none)
          (fun k now => (if (k.senc - (k.brake n).slipBase).natAbs ≤ swSlip k.img
            then (k.btEnd n .pass 0).updBrake n fun b => { b with runFrom := now } else k.btEnd n .fail 0).settle now) ∧
        ActsOnIsland (.brakeTestDue n) s (if hasBrakeTest (swFunc i.img) n then (intervalPh i.img).map fun t => b.runFrom + (t - b.spent) else none)
          (fun k now => (k.updBrake n fun b => { b with due := true }).settle now) ∧
        ActsOnIsland (.brakeTestOverdue n) s (if hasBrakeTest (swFunc i.img) n then (intervalPh i.img).map fun t => b.runFrom + (t + t / 10 - b.spent) else none)
          (fun k now => (k.updBrake n fun b => { b with due := true, overdue := true }).settle now))) ∧
    (i.powered = false ∨ i.started = false →
      ∀ (x : SiIn) (p : Fin 9) (o : Fin 7) (d : Fin 4) (n : Fin 2) (b : Bool) (high : BitVec 9) (res : OutTest),
        Makes (.siCycle x) s s.m ∧ Makes (.siFilterElapsed p b) s s.m ∧ Makes (.siDiscrepancyTimeout p) s s.m ∧
        Makes (.testPulse b high) s s.m ∧ Makes (.siOutputTest o b res) s s.m ∧ Makes (.autoRestartElapsed n) s s.m ∧
        Makes .resetHeld s s.m ∧ Makes (.edmTimeout d) s s.m ∧ Makes .expectedReread s s.m ∧ Makes (.btTorqueTimeout n) s s.m ∧
        Makes (.btTestTimeElapsed n) s s.m ∧ Makes (.brakeTestDue n) s s.m ∧ Makes (.brakeTestOverdue n) s s.m)

/-- For a powered island that runs: changed switches, UFS_LOW, UB_LOW with an SBC on, a manual reset and the edges of BT_REQ and BT_TORQUE change the island alone; switches as read, UB_LOW with the SBCs off, an edge against the line as it stands and a second BT_REQ rise change nothing. A supply trip and an oscillator fault act on any powered island; a start acts only where the supply monitor has cycled and its input is not low, with the SI image of the bank that R66 selects. On a live module a powered island reports at its instant, its events entering the recorder, and 30 ms after the last report SI_STATUS is no longer valid. An island without power or not started takes up none of its wires. -/
def Obligations.IslandFollowsItsWiresSupplyAndReports : Prop :=
  (∀ s : State,
    let m := s.m
    let i := m.si
    let now := m.mono
    let is (k : Si) : Mod := { m with si := k }
    (i.powered = true → i.started = true →
      (∀ img : BitVec 16, Makes (.switchChange img) s (is (if img.toNat = i.img then i else ({ i with swChanged := true, swRead := img.toNat } : Si).settle now))) ∧
      Makes .ufsLow s (is (({ i with ufsLow := true } : Si).settle now)) ∧
      Makes .ubLow s (is (if (at_ i.outs 4 {}).on || (at_ i.outs 5 {}).on then ({ i with ubLow := true } : Si).settle now else i)) ∧
      Makes .siManualReset s (is (i.manualReset now)) ∧
      (∀ n : Fin 2,
        Makes (.btReqRise n) s (is (if m.act = true ∧ at_ m.btReq n false = true ∧ (i.brake n).req = false then
          (i.updBrake n fun b => { b with req := true, st := .checking, cause := 0 }).settle now else i)) ∧
        Makes (.btReqFall n) s (is (if (i.brake n).req = true ∧ ¬ (m.act = true ∧ at_ m.btReq n false = true) then i.btReqFalls n now else i)) ∧
        (m.btTorqueLine n = true →
          Makes (.btTorqueRise n) s (is ((i.updBrake n fun b =>
            { b with torque := true, at_ := if b.st = .granted then now else b.at_, st := if b.st = .granted then .running else b.st }).settle now)) ∧
          Makes (.btTorqueFall n) s m) ∧
        (m.btTorqueLine n = false →
          Makes (.btTorqueRise n) s m ∧
          Makes (.btTorqueFall n) s
            (is (((if (i.brake n).st = .running then i.btEnd n .aborted 4 else i).updBrake n fun b => { b with torque := false }).settle now))))) ∧
    (i.powered = true →
      Makes .siSupplyTrip s (is (({ i with supplyTrip := true, monLow := true, cycled := true } : Si).settle now)) ∧
      Makes .siOscillatorFault s (is (({ i with core := true } : Si).settle now)) ∧
      (m.live = true → Makes .siStatusReport s (m.to i.reportDue).islandReport)) ∧
    (i.powered = false → Makes .siSupplyTrip s m ∧ Makes .siOscillatorFault s m ∧ Makes .siStatusReport s m) ∧
    (∀ (img : BitVec 16) (good : Bool),
      (i.cycled = false ∨ i.monLow = true ∧ m.sup.vorMv < 5300 → Makes (.siStart img good) s m) ∧
      (i.cycled = true → i.monLow = false ∨ 5300 ≤ m.sup.vorMv →
        Makes (.siStart img good) s { is (i.start img.toNat (good && (if (pickBank m.bankA m.bankB).1 then m.bankB else m.bankA).si.good)
          m.cas.safetyExpected now) with cas := m.cas.islandReads })) ∧
    (m.live = true → ActsAt .siStatusTimeout s (i.repAt.map (· + phMs 30)) fun m => { m with si := { m.si with statusValid := false } })) ∧
  (∀ s : State, s.m.si.powered = false ∨ s.m.si.started = false →
    (∀ img : BitVec 16, Makes (.switchChange img) s s.m) ∧ Makes .ufsLow s s.m ∧ Makes .ubLow s s.m ∧ Makes .siManualReset s s.m ∧
    (∀ n : Fin 2, Makes (.btReqRise n) s s.m ∧ Makes (.btReqFall n) s s.m ∧ Makes (.btTorqueRise n) s s.m ∧ Makes (.btTorqueFall n) s s.m))

/-- On a live module: the head of a launch queue whose launch time is still ahead waits for it and is then no late frame, whatever it still waits for, one that finds its gate closed being counted; one whose launch time has passed is served as a late one; a queue without one is left as it is. A completed transmission frees the port for the next. The gate list runs to the end of its interval, or nothing happens without one. A received frame is dropped without link, counted and dropped with a bad FCS or too long, else taken. ARP is answered for an own address; ICMP at most ten times a second. With redundancy supervision goes out every 2 s. A link change acts on an enabled port out of any test, in the override not up at 1000 Mbit/s. -/
def Obligations.EthernetFramesLaunchGateAndArrive : Prop :=
  ∀ s : State, s.m.live = true →
    let m := s.m
    (∀ (p : Port) (q : Fin 8),
      ((m.eth.head p q).bind (·.launch) = none → Makes (.frameLaunch p q) s m) ∧
      (∀ (f : PoolFrame) (t : BitVec 64), m.eth.head p q = some f → f.launch = some t →
        let m1 := m.toNow (m.unitsOfShort t)
        let open_ := gateFits m1.cfg.netc.gates f ((at_ m1.eth.ports p {}).speed == 2) m1.tb.now
        (shortDiff t m.short < 0 → Makes (.frameLaunch p q) s (m1.kick p)) ∧
        (0 ≤ shortDiff t m.short →
          let m2 : Mod := { m1 with eth := { m1.eth with pool := Eth.launched p q m1.eth.pool } }
          (open_ = true → Makes (.frameLaunch p q) s (m2.kick p)) ∧
          (open_ = false → Makes (.frameLaunch p q) s ((m2.updCnt p fun c => { c with launchGated := c.launchGated + 1 }).kick p))))) ∧
    (∀ p : Port,
      Makes (.frameTxComplete p) s (({ m with eth := m.eth.txDone p } : Mod).kick p) ∧
      Makes (.gateListEntry p) s (m.gateNext p) ∧
      ((m.cfg.netc.gates.find? fun g => g.port == p.val) = none → m.gateNext p = m) ∧
      (∀ (ip : BitVec 32) (asker : BitVec 48),
        (∀ mac, m.ownMac p ip = some mac →
          Makes (.arpRequest p ip asker) s (m.placeOn [p.val] 2 60 (.arp ip mac asker)) ∧
          (m.icmpRecent.length < 10 → Makes (.icmpEcho p ip asker) s
            (({ m with eth := { m.eth with icmp := m.icmpRecent ++ [m.mono] } } : Mod).placeOn [p.val] 2 60 (.icmp ip mac asker))) ∧
          (10 ≤ m.icmpRecent.length → Makes (.icmpEcho p ip asker) s m)) ∧
        (m.ownMac p ip = none → Makes (.arpRequest p ip asker) s m ∧ Makes (.icmpEcho p ip asker) s m)) ∧
      (∀ (up : Bool) (speed : BitVec 2),
        (m.portOn p = true → m.testing (p.val + 1) = false → (m.clk.override && up && m.linkSpeed p speed.toNat == 2) = false →
          Makes (.portLinkChange p up speed) s (m.linkChange p up speed.toNat)) ∧
        (m.portOn p = false ∨ m.testing (p.val + 1) = true ∨ (m.clk.override && up && m.linkSpeed p speed.toNat == 2) = true →
          Makes (.portLinkChange p up speed) s m))) ∧
    (∀ f : RxFrame,
      let link := (at_ m.eth.ports f.port {}).link
      (link = false → Makes (.frameReceive f) s m) ∧
      (link = true → f.fcsOk = false → Makes (.frameReceive f) s (m.updCnt f.port fun c => { c with rxFcs := c.rxFcs + 1 })) ∧
      (link = true → f.fcsOk = true → m.maxFrame f.port < f.len →
        Makes (.frameReceive f) s (m.updCnt f.port fun c => { c with rxOversize := c.rxOversize + 1 })) ∧
      (link = true → f.fcsOk = true → f.len ≤ m.maxFrame f.port → Makes (.frameReceive f) s (m.takeFrame f))) ∧
    (m.cfg.netc.prmode = 0 → Makes .supervisionFrame s m) ∧
    (m.cfg.netc.prmode ≠ 0 →
      let m1 := m.to (m.eth.supAt + phS 2)
      let m2 : Mod := { m1 with eth := { m1.eth with supAt := m1.mono } }
      let m3 := m2.placeOn [0, 1] 6 60 (.supervision m2.otp.mac)
      Makes .supervisionFrame s (if m3.act then m3.placeOn [0, 1] 6 60 (.supervision (stationMac m3.cfg.ident.node)) else m3))

/-- For a LINK_TEST command heard with role SERVICE: a start with a link of 1 to 12, a mode that the link has, a pattern of 1 to 6 and a duration, no test running and the condition of the link met, begins the test, a node loopback sending its request; a stop ends a running test with cause 1. On a live module the test ends complete after its duration, and without lock after 1 s with cause 3; without a running test nothing happens. SHARED_LOW and NODE_MISS give their value; the one starts again from what is free now, the other is cleared. A start that names no such link, mode, pattern or duration is refused with RANGE, one while a test runs with BUSY, and one whose condition is not met with IN_USE, the test showing state 4 and cause 4. -/
def Obligations.LinkTestsAndCountersOfThePorts : Prop :=
  (∀ s : State,
    let m := s.m
    (∀ (rq : Req) (x : Session), admitted m rq x 8 4 false false →
      let n := m.touchSession rq.sess
      (∀ (link mode pattern : BitVec 8) (word : BitVec 32) (dur : BitVec 16),
        link.toNat ≠ 0 → link.toNat ≤ 12 → ltMode link.toNat mode.toNat = true → pattern.toNat ≠ 0 → pattern.toNat ≤ 6 → dur.toNat ≠ 0 →
        m.eth.lt.st ≠ 1 → n.ltCond link.toNat = true →
        Makes (.linkTestStart rq link mode pattern word dur) s
          (commanded ((n.ltLoop link.toNat mode.toNat dur.toNat).ltBegin link.toNat mode.toNat pattern.toNat word dur.toNat)
            rq 8 {} stAccepted [])) ∧
      Makes (.linkTestStop rq) s
        (commanded (if m.eth.lt.st = 1 then (n.ltCounts none none).ltEnd 3 1 else n) rq 8 {} stAccepted [])) ∧
    (m.live = true →
      (∀ bits errors : BitVec 64,
        ActsAt (.linkTestEnd bits errors) s (if m.eth.lt.st = 1 then some (m.eth.lt.startAt + phS m.eth.lt.dur) else none)
          fun k => (k.ltCounts (some bits) (some errors)).ltEnd 2 0) ∧
      ActsAt .linkTestNoLock s (if m.eth.lt.st = 1 then some (m.eth.lt.startAt + phS 1) else none)
        fun k => (k.ltCounts none none).ltEnd 3 3) ∧
    (∀ (rq : Req) (x : Session), heard m rq x → m.maint = false →
      let n := m.touchSession rq.sess
      Makes (.sharedLow rq) s ((({ n with eth := { n.eth with sharedLow := n.eth.sharedFree n.mins } } : Mod).pass 1).respond rq stOk
        (readResult stOk (natLe 2 m.eth.sharedLow))) ∧
      (∀ node : Fin 256, Makes (.nodeMiss rq node) s
        ((({ n with eth := n.eth.updNode (node + 1) fun k => { k with miss := 0 } } : Mod).pass 1).respond rq stOk
          (readResult stOk (natLe 4 (m.eth.node (node + 1)).miss.toNat)))))) ∧
  (∀ (s : State) (rq : Req) (x : Session), admitted s.m rq x 8 4 false false →
    let n := s.m.touchSession rq.sess
    ∀ (link mode pattern : BitVec 8) (word : BitVec 32) (dur : BitVec 16),
      let c := Instr.linkTestStart rq link mode pattern word dur
      let named := link.toNat ≠ 0 ∧ link.toNat ≤ 12 ∧ ltMode link.toNat mode.toNat = true ∧ pattern.toNat ≠ 0 ∧ pattern.toNat ≤ 6 ∧ dur.toNat ≠ 0
      (¬ named → Refuses c s rq 8 stRange) ∧
      (named → (s.m.eth.lt.st = 1 → Refuses c s rq 8 stBusy) ∧
        (s.m.eth.lt.st ≠ 1 → n.ltCond link.toNat = false →
          Makes c s (commanded { n with eth := { n.eth with
            lt := { link := link.toNat, st := 4, mode := mode.toNat, pattern := pattern.toNat, cause := 4 } } } rq 8 { status := stInUse } stInUse []))))

/-- On a live module: the master of a port launches SYNC and OUT at their device times, the OUT frames in order with one MGMT request behind them, unless a handover would have taken ACT by then; TIME_ONLY SYNC leaves 1 ms after the last; a port that is not the master's launches nothing. A MGMT reply at a module with ACT answers the request of its sequence number and command, which then is answered, and no other; the far end without ACT relays it. An IN frame of an unknown node or another port is ignored, one at the master is taken over, one at its partner's own side is relayed. A node in cycle is lost at WDOG misses, with a record. Delay rechecks, the end of split operation and the timeout of a relayed request act at their instants. -/
def Obligations.SpokeMasterRunsItsCycle : Prop :=
  ∀ s : State, s.m.live = true →
    let m := s.m
    (∀ sp : Fin 2,
      (m.spokeMaster sp = none →
        Makes (.spokeSyncLaunch sp) s m ∧ Makes (.spokeTimeOnlySync sp) s m ∧ Makes (.spokeOutLaunch sp) s m) ∧
      (∀ (mseq : BitVec 16) (r : MgmtReply),
        let from_ := (m.spokePort sp).asked.find? fun a => a.mseq == mseq && a.cmd == (replyFrame r).1
        (m.act = true → from_ = none → Makes (.spokeMgmtReply sp mseq r) s m) ∧
        (m.act = true → m.spokeMaster sp = none → Makes (.spokeMgmtReply sp mseq r) s m) ∧
        (m.act = false → m.otp.tandem = true → m.portOn (sp + 2) = true → Makes (.spokeMgmtReply sp mseq r) s
          ((m.updSpoke sp fun p => { p with relayAt := some m.mono }).send
            (.spokeRelay sp (spokeFrame 5 (b2n m.tan.slotB) 0 0 (mgmtBody 0 (replyFrame r).1 mseq (replyFrame r).2))))) ∧
        (∀ (a : MgmtAsked) (t : Nat), m.act = true → m.spokeMaster sp = some t → from_ = some a →
          let k := m.updSpoke sp fun p => { p with asked := p.asked.erase a }
          match r with
          | .ident v p rev fwd serial mi mo tp ta => match (k.spokePort sp).adm with
            | .ident _ => (a.hop = (k.spokePort sp).hop →
                Makes (.spokeMgmtReply sp mseq r) s (k.identReply sp v p rev fwd serial mi mo tp ta)) ∧
              (a.hop ≠ (k.spokePort sp).hop → Makes (.spokeMgmtReply sp mseq r) s k)
            | _ => Makes (.spokeMgmtReply sp mseq r) s k
          | .delay rt turn => Makes (.spokeMgmtReply sp mseq r) s (k.delayReply sp a.hop ((rt : Int) - turn))
          | .config code => Makes (.spokeMgmtReply sp mseq r) s (k.configReply sp a.hop code)
          | .loop => Makes (.spokeMgmtReply sp mseq r) s k
          | .object _ st d => Makes (.spokeMgmtReply sp mseq r) s (k.objectReply sp a.hop st d))) ∧
      (∀ t, m.spokeMaster sp = some t →
        let c := m.taskCfg t
        (let lead := ((m.leads sp).lin * 1000 + (m.leads sp).hstar + 20000) * unitsPerNs
         let n := nextLaunch c (m.launchFrom (m.spokePort sp).syncFrom) (-(lead : Int)) (m.spokePort sp).syncTick
         (m.hoReleaseDue (n * tickUnits - lead) = false →
           Makes (.spokeSyncLaunch sp) s ((m.toNow (n * tickUnits - lead)).syncOut sp t n)) ∧
         (m.hoReleaseDue (n * tickUnits - lead) = true → Makes (.spokeSyncLaunch sp) s m)) ∧
        (let off : Int := ((c.oofs * 1000 * unitsPerNs : Nat) : Int) - ((m.leads sp).lout * 1000 * unitsPerNs : Nat)
         let n := nextLaunch c (m.launchFrom (m.spokePort sp).outFrom) off (m.spokePort sp).outTick
         let u := (((n * tickUnits : Nat) : Int) + off).toNat
         let m1 := m.toNow u
         let m2 := (m1.outFrames sp t n).foldl (fun k b => k.spokeSend sp 6 b) m1
         (m.hoReleaseDue u = false →
           Makes (.spokeOutLaunch sp) s ((m2.updSpoke sp fun p => { p with outTick := n, outFrom := none }).mgmtStep sp)) ∧
         (m.hoReleaseDue u = true → Makes (.spokeOutLaunch sp) s m)) ∧
        ((m.spokePort sp).timeOnlyAt = none → Makes (.spokeTimeOnlySync sp) s m) ∧
        (∀ d : Nat, (m.spokePort sp).timeOnlyAt = some d →
          let m1 := m.to d
          let b := spokeFrame 1 (m1.spokeFlags sp true) (m1.spokePort sp).cycle 0
            (syncBody 0 ((m1.taskCfg t).period * 125000) (m1.eth.inCycle m1.cfg.netc sp) m1.cfg.ident.node)
          Makes (.spokeTimeOnlySync sp) s ((m1.spokeSend sp 7 b).updSpoke sp fun p => { p with timeOnlyAt := some (m1.mono + phMs 1) }))) ∧
      (∀ (sideB : Bool) (cycle : InCycle) (node : Nat) (nstat : BitVec 8) (inp : Bytes),
        (m.nodeCfg node = none → Makes (.spokeInFrame sp sideB cycle node nstat inp) s m) ∧
        (∀ n, m.nodeCfg node = some n →
          (n.port ≠ sp.val + 3 → Makes (.spokeInFrame sp sideB cycle node nstat inp) s m) ∧
          (n.port = sp.val + 3 → m.act = true →
            Makes (.spokeInFrame sp sideB cycle node nstat inp) s (m.masterIn sp sideB cycle.cycle n nstat inp)) ∧
          (n.port = sp.val + 3 → m.act = false → m.otp.tandem = true → sideB = m.tan.slotB →
            Makes (.spokeInFrame sp sideB cycle node nstat inp) s
              ((m.updSpoke sp fun p => { p with relayAt := some m.mono }).send
                (.spokeRelay sp (spokeFrame 3 (b2n sideB) cycle.cycle cycle.stime (natLe 2 node ++ [nstat, 0] ++ inp))))))) ∧
      ActsAt (.splitEnd sp) s
        (if (m.spokePort sp).split && m.act then (m.spokePort sp).bothUpFrom.map (· + phS 1) else none) fun k => k.splitOver sp) ∧
    (∀ node : Nat,
      (∀ n, m.nodeCfg node = some n → (m.eth.node node).st = 3 → n.wdog ≤ (m.eth.node node).missRun →
        Makes (.spokeNodeLost node) s
          ((m.updNode node fun q => { q with st := 4, missRun := 0, recheckAt := none, rdN := 0 }).log 7 4 0x50 node [])) ∧
      ((m.eth.node node).st ≠ 3 → Makes (.spokeNodeLost node) s m) ∧
      ActsAt (.spokeDelayRecheck node) s (if m.act = true ∧ (m.eth.node node).st = 3 then (m.eth.node node).recheckAt else none) fun k =>
        (k.updNode node fun q => { q with rdN := 16, rdSum := 0, recheckAt := some (k.mono + phS 10) }).mgmtQueue
          (nodePort k.cfg.netc node - 3) (m.eth.node node).hop 2 []) ∧
    (m.eth.relays = [] → Makes .nodeRelayTimeout s m) ∧
    (∀ r rest, m.eth.relays = r :: rest →
      let k := m.to (r.at_ + phMs 100)
      Makes .nodeRelayTimeout s (({ k with eth := { k.eth with relays := rest } } : Mod).respond r.rq stTimeout []))

/-- A record is handled on a live module once the scan is done and writes are permitted, else the queue waits; OPTIME_STORE keeps operating time at the instant it has advanced by 1 s, where writes are permitted. ER_CLEAR, in MAINTENANCE with role SERVICE from P5, empties the recorder and records it; outside MAINTENANCE it answers CONDITION. PMC_SEL selects an event and clears its counter, counter 0 taking no event with bit 12; PMC_CLEAR clears the counters of its mask; EXEC_MAX and MARGIN_MIN give the figure and clear it. Display frames, waveform, icons and temperature change the display alone; so does a scan, whether it finds the frame memory changed being free. Where the supply forbids writing, ER_CLEAR is refused with SUPPLY_LOW. -/
def Obligations.RecorderCountersAndDisplay : Prop :=
  (∀ s : State,
    let m := s.m
    (m.live = true →
      Makes .erRecordWrite s (if m.er.scanDone = true ∧ m.sup.mayWrite = true then m.handleEvent else m) ∧
      (∀ hi mid : Nat,
        Makes (.displayFrameStart hi mid) s { m with disp := m.disp.start m.dispContent hi mid (!m.sup.belowWrite) m.mono } ∧
        ActsAt (.displayWaveformEnd hi mid) s (if m.disp.step = 0 then none else some m.disp.endAt) fun k =>
          { k with disp := k.disp.waveformEnd hi mid (!k.sup.belowWrite) k.mono }) ∧
      (∀ t : Int, Makes (.displayTempRead t) s { m with disp := { m.disp with tempC := t, band := bandNext m.disp.band t } }) ∧
      Makes .displayFrameScan s { m.draw.2 with disp := m.disp.scan (Config.frameFlips m.free) } ∧
      Makes .displayIconSample s (if m.cas.running = true then (m.to (m.disp.sampledAt + phS 1)).sampleIcons else m)) ∧
    ActsAt .optimeStore s (if m.sup.mayWrite = true then m.er.storeDue else none) (fun k => { k with er := { k.er with opStored := k.optime } }) ∧
    (∀ (rq : Req) (x : Session), admitted m rq x 12 4 true true →
      let n := m.touchSession rq.sess
      (m.maint = true → m.sup.mayWrite = true →
        Makes (.erClear rq) s
          (commanded (({ n with er := { n.er with held := [], latest := [] } } : Mod).log 10 6 0xF0 0 (serialBytes x.serial)) rq 12 {} stOk [])) ∧
      (m.maint = false → Makes (.erClear rq) s (commanded n rq 12 { status := stCondition } stCondition []))) ∧
    (∀ (rq : Req) (x : Session), heard m rq x → m.maint = false →
      let n := m.touchSession rq.sess
      (3 ≤ x.role →
        (∀ (i : Fin 64) (v : BitVec 16),
          (¬ (i.val = 0 ∧ v.getLsbD 12 = true) →
            Makes (.pmcSel rq i v) s (({ n with pmc := { n.pmc with sel := put n.pmc.sel i (v &&& 0x1FFF), val := put n.pmc.val i 0 } } : Mod).respond
              rq stOk (writeResult stOk))) ∧
          (i.val = 0 ∧ v.getLsbD 12 = true → Makes (.pmcSel rq i v) s (n.respond rq stOk (writeResult stAccess)))) ∧
        (∀ mask : BitVec 64,
          Makes (.pmcClear rq mask) s
            (({ n with pmc := { n.pmc with val := mapFrom (fun i v => if mask.getLsbD i then 0 else v) 0 n.pmc.val } } : Mod).respond
              rq stOk (writeResult stOk)))) ∧
      (∀ t : Fin 16,
        ((m.taskCfg t).kind ≠ 0 →
          Makes (.execMax rq t) s (((n.updTask t fun k => { k with execMax := 0 }).pass 1).respond rq stOk (readResult stOk (natLe 4 (m.task t).execMax))) ∧
          Makes (.marginMin rq t) s (((n.updTask t fun k => { k with margin := none }).pass 1).respond rq stOk
            (readResult stOk (natLe 4 (Nat.min 0xFFFFFFFF ((m.task t).margin.getD 0)))))) ∧
        ((m.taskCfg t).kind = 0 →
          Makes (.execMax rq t) s ((n.pass 1).respond rq stOk (readResult stOk (natLe 4 0))) ∧
          Makes (.marginMin rq t) s ((n.pass 1).respond rq stOk (readResult stOk (natLe 4 0))))))) ∧
  (∀ (s : State) (rq : Req) (x : Session), admitted s.m rq x 12 4 true true → s.m.maint = true → s.m.sup.mayWrite = false →
    Refuses (.erClear rq) s rq 12 stSupplyLow)

/-- On a live module: a handshake on a port or address that does not hear it, or the fifth within one second, changes nothing. One beyond the session limits or with another key than P-256 gets an alert; to any other the module presents its certificate, and one whose certificate no credential admits gets an alert and counts AUTH_FAIL. Otherwise, outside the open access of R562, a session opens with a new number, its port, the role of its certificate and the side it addressed. A session ends 60 s after its last valid record, with its files and subscriptions; NOP answers OK, in MAINTENANCE CONDITION. -/
def Obligations.EngineeringSessionsOpenIdleAndEnd : Prop :=
  ∀ s : State, s.m.live = true →
    let m := s.m
    (∀ (port : Fin 3) (addr : EapAddr) (cert : Cert),
      let recent := m.eap.shakes.filter fun t => decide (m.mono < t + phS 1)
      let n : Mod := { m with eap := { m.eap with shakes := recent ++ [m.mono] } }
      let k := ({ n with eap := { n.eap with unchecked := n.eap.unchecked || (!(m.maint && m.eap.fallback) && m.ptp.timeUnset) } } : Mod).send (n.certificate port)
      (m.reaches port addr = false ∨ 4 ≤ recent.length → Makes (.eapHandshake port addr cert) s m) ∧
      (m.reaches port addr = true → recent.length < 4 →
        (m.sessFull port = true ∨ cert.p256 = false → Makes (.eapHandshake port addr cert) s (n.send (.alert port))) ∧
        (m.sessFull port = false → cert.p256 = true → (k.admits cert port).1 = 0 →
          Makes (.eapHandshake port addr cert) s (({ k with eap := { k.eap with authFail := k.eap.authFail + 1 } } : Mod).send (.alert port))) ∧
        (m.sessFull port = false → cert.p256 = true → (k.admits cert port).1 ≠ 0 → (k.admits cert port).2 = false →
          Makes (.eapHandshake port addr cert) s
            ({ k with eap := { k.eap with
                nextSess := m.eap.nextSess + 1
                sessions := m.eap.sessions ++
                  [{ id := m.eap.nextSess, port := port, station := addr == .station, role := (k.admits cert port).1,
                     serial := cert.serial, lastAt := m.mono }] } } : Mod).ltJudge))) ∧
    (∀ sess : Nat, ActsAt (.sessionTimeout sess) s ((m.eap.sessions.find? fun k => k.id == sess).map fun k => k.lastAt + phS 60) fun k =>
      k.endSessions fun q => q.id == sess) ∧
    (∀ (rq : Req) (x : Session), heard m rq x →
      Makes (.eapNop rq) s ((m.touchSession rq.sess).respond rq (if m.maint = true then stCondition else stOk) []))

/-- For a request heard: a READ of 1 to 16 items and a WRITE of at least one, both addressed to the module, answer OK with the results of their items in order; each READ result is that of its object or, where it no longer fits, LENGTH; each WRITE item acts on its own. SUBSCRIBE that is judged OK opens the subscription with the lowest free identifier and answers it, else answers the code; UNSUBSCRIBE outside MAINTENANCE ends the session's own subscription. On a live module NOTIFY leaves at its earliest instant for a subscription with something to send, and a trend is sampled at its next multiple. A READ of no item or more than 16 and a WRITE of none are answered LENGTH, a WRITE to a node from a role below ENGINEER ROLE. -/
def Obligations.ReadWriteAndSubscriptions : Prop :=
  (∀ s : State,
    let m := s.m
    (∀ (rq : Req) (x : Session), heard m rq x →
      let n := m.touchSession rq.sess
      (∀ items : List ObjRef, items ≠ [] → items.length ≤ 16 →
        Makes (.eapRead rq 0 items) s ((Mod.readItems items n []).1.respond rq stOk (Mod.readItems items n []).2)) ∧
      (∀ items : List WriteItem, items ≠ [] →
        Makes (.eapWrite rq 0 items) s ((Mod.writeItems x.role items n []).1.respond rq stOk (Mod.writeItems x.role items n []).2)) ∧
      (∀ r : SubReq,
        (n.judgeSub x r = stOk →
          Makes (.subscribe rq r) s ((n.openSub x r).respond rq stOk (natLe 1 n.freeSub.toNat ++ [0, 0, 0]))) ∧
        (n.judgeSub x r ≠ stOk → Makes (.subscribe rq r) s (n.respond rq (n.judgeSub x r) []))) ∧
      (∀ subid : BitVec 8,
        let mine (k : Sub) : Bool := k.subid == subid && k.sess == x.id
        (m.maint = false → m.eap.subs.any mine = true →
          Makes (.unsubscribe rq subid) s
            (({ n with eap := { n.eap with subs := n.eap.subs.filter fun k => !mine k } } : Mod).respond rq stOk [])) ∧
        (m.maint = true ∨ m.eap.subs.any mine = false → Makes (.unsubscribe rq subid) s (n.respond rq stCondition [])))) ∧
    (∀ (role : Nat) (r : ObjRef) (w : WriteItem) (t : List ObjRef) (u : List WriteItem) (k : Mod) (acc : Bytes),
      let b := readResult (k.readObj r).2.1 (k.readObj r).2.2
      (acc.length + b.length + 4 * t.length ≤ 1168 → Mod.readItems (r :: t) k acc = Mod.readItems t (k.readObj r).1 (acc ++ b)) ∧
      (1168 < acc.length + b.length + 4 * t.length → Mod.readItems (r :: t) k acc = Mod.readItems t k (acc ++ readResult stLength [])) ∧
      Mod.writeItems role (w :: u) k acc = Mod.writeItems role u (k.writeObj role w).1 (acc ++ writeResult (k.writeObj role w).2) ∧
      Mod.readItems [] k acc = (k, acc) ∧ Mod.writeItems role [] k acc = (k, acc)) ∧
    (m.live = true → ∀ subid : BitVec 8,
      ((m.eap.subs.find? fun k => k.subid == subid) = none → Makes (.notifySend subid) s m ∧ Makes (.trendSample subid) s m) ∧
      (∀ k : Sub, (m.eap.subs.find? fun k => k.subid == subid) = some k →
        (m.notifies k = true → Makes (.notifySend subid) s ((m.to (k.notifyAt.getD m.mono)).notifyNow k)) ∧
        (m.notifies k = false → Makes (.notifySend subid) s m) ∧
        (∀ p items, k.req = .trend p items → Makes (.trendSample subid) s ((m.toNow k.sampleAt).sampleTrend k p items)) ∧
        ((∀ p items, k.req ≠ .trend p items) → Makes (.trendSample subid) s m)))) ∧
  (∀ (s : State) (rq : Req) (x : Session), heard s.m rq x →
    let n := s.m.touchSession rq.sess
    (∀ items : List ObjRef, items = [] ∨ 16 < items.length → Makes (.eapRead rq 0 items) s (n.respond rq stLength [])) ∧
    Makes (.eapWrite rq 0 []) s (n.respond rq stLength []) ∧
    (∀ (tgt : Nat) (items : List WriteItem), tgt ≠ 0 → x.role < 3 → Makes (.eapWrite rq tgt items) s (n.respond rq stRole [])))

/-- For a request heard: a file whose content is to be had opens for reading with the lowest free handle, size and CRC-32, unless the session holds two files; a file that the role may write, no other being written, opens for writing; a block of an open file is read, or at its place taken; a file opened for reading closes; an open file is abandoned, a slot being written becoming EMPTY. A handle that the session does not hold answers CONDITION. On a live module a file being written is given up after 30 s without a block, a RELAY acts while a twin-link lane is up outside MAINTENANCE, a RELAY_ACK is noted, and a close that waits for it ends in time. An open for writing is refused with ACCESS for a file that no role may write, with CONDITION for a table in MAINTENANCE, with ROLE, with BUSY while two files or one for writing are open, and with what its place answers. A block is refused with ACCESS against the direction of the file, with LENGTH beyond 1,024 bytes, with SEQUENCE out of place and with RANGE beyond the total; a block of a slot waits with SUPPLY_LOW or is programmed. A table closes at 2,048 bytes, else with LENGTH; a firmware image closes with its verdict; a slot closes with CONDITION, IMG or OK and its detail, and waits for the partner where the file is relayed and not yet confirmed. -/
def Obligations.FilesOpenTransferAndClose : Prop :=
  (∀ s : State,
    let m := s.m
    (∀ (rq : Req) (x : Session), heard m rq x →
      let n := m.touchSession rq.sess
      (∀ (name : FileName),
        (2 ≤ n.openFiles x.id → Makes (.fileOpenRead rq name) s (n.respond rq stBusy [])) ∧
        (n.openFiles x.id < 2 →
          (∀ b : Bytes, n.fileContent x name = .inr b →
            let f : FileOpen := { sess := x.id, fh := n.freeFh, name := name, write := false, total := b.length, data := b, lastAt := m.mono }
            Makes (.fileOpenRead rq name) s (({ n with eap := { n.eap with files := n.eap.files ++ [f] } } : Mod).respond rq stOk
              (fileBody 1 f.fh (natLe 4 b.length ++ natLe 4 (crc32 b))))) ∧
          (∀ st : Nat, n.fileContent x name = .inl st → Makes (.fileOpenRead rq name) s (n.respond rq st []))) ∧
        (∀ (total r : Nat), writeRole name = some r → r ≤ x.role → m.maint = false → n.openFiles x.id < 2 → m.eap.files.any (·.write) = false →
          (n.prepareWrite x name total).2 = stOk →
          let k := (n.prepareWrite x name total).1.dropAck (relayOf name)
          let f : FileOpen := { sess := x.id, fh := k.freeFh, name := name, write := true, total := total, lastAt := k.mono }
          Makes (.fileOpenWrite rq name total) s
            (({ k with eap := { k.eap with files := k.eap.files ++ [f] } } : Mod).respond rq stOk (fileBody 2 f.fh [])))) ∧
      (∀ fh : BitVec 8,
        ((m.eap.files.find? fun f => f.fh == fh && f.sess == x.id) = none →
          (∀ op : BlockOp, Makes (.fileBlock rq fh op) s (n.respond rq stCondition [])) ∧
          Makes (.fileClose rq fh) s (n.respond rq stCondition []) ∧ Makes (.fileAbandon rq fh) s (n.respond rq stCondition [])) ∧
        (∀ f : FileOpen, (m.eap.files.find? fun f => f.fh == fh && f.sess == x.id) = some f →
          (f.write = false →
            (∀ off len : Nat, Makes (.fileBlock rq fh (.read off len)) s (n.respond rq stOk
              (fileBody 3 fh (slice f.data off (Nat.min (Nat.min len 1024) (f.data.length - off)))))) ∧
            Makes (.fileClose rq fh) s ((n.forgetFile fh).respond rq stOk (fileBody 4 fh []))) ∧
          (∀ b : Bytes, f.write = true → b.length ≤ 1024 → f.pos + b.length ≤ f.total → (∀ k, f.name ≠ .slot k) →
            Makes (.fileBlock rq fh (.write f.pos b)) s
              (((n.updFile f.fh fun g => { g with pos := g.pos + b.length, lastAt := m.mono, data := g.data ++ b }).passOn x f f.pos b).respond
                rq stOk (fileBody 3 f.fh []))) ∧
          Makes (.fileAbandon rq fh) s ((n.dropFile f).respond rq stOk (fileBody 5 fh []))))) ∧
    (m.live = true →
      (∀ f : FileOpen, m.eap.files.find? (·.write) = some f → Makes .fileWriteTimeout s ((m.to (f.lastAt + phS 30)).dropFile f)) ∧
      (m.eap.files.find? (·.write) = none → Makes .fileWriteTimeout s m) ∧
      (∀ (f : RelayFile) (off : Nat) (b : Bytes),
        Makes (.relay f off b) s (if (m.tan.lane0 = true ∨ m.tan.lane1 = true) ∧ m.maint = false then m.relayCame f off b else m)) ∧
      (∀ (f : RelayFile) (crc : BitVec 32), Makes (.relayAck f crc) s (m.relayAcked f crc)) ∧
      (∀ w, m.eap.relayClose = some w → Makes .relayCloseTimeout s ((m.to w.due).endClose w stPartner w.body)) ∧
      (m.eap.relayClose = none → Makes .relayCloseTimeout s m))) ∧
  (∀ (s : State) (rq : Req) (x : Session), heard s.m rq x →
    let n := s.m.touchSession rq.sess
    (∀ (name : FileName) (total : Nat),
      let opens (k : Mod) (st : Nat) : Prop := Makes (.fileOpenWrite rq name total) s (k.respond rq st [])
      (writeRole name = none → opens n stAccess) ∧
      (∀ r, writeRole name = some r →
        (s.m.maint = true → (∃ k, name = .ctab k) → opens n stCondition) ∧
        ((s.m.maint = true → ∀ k, name ≠ .ctab k) →
          let may := (if s.m.maint then 4 else r) ≤ x.role ∧ (s.m.maint = true → x.port = 2)
          (¬ may → opens n stRole) ∧
          (may →
            (2 ≤ n.openFiles x.id ∨ s.m.eap.files.any (·.write) = true → opens n stBusy) ∧
            (n.openFiles x.id < 2 → s.m.eap.files.any (·.write) = false → (n.prepareWrite x name total).2 ≠ stOk →
              opens (n.prepareWrite x name total).1 (n.prepareWrite x name total).2))))) ∧
    (∀ (fh : BitVec 8) (f : FileOpen), (s.m.eap.files.find? fun f => f.fh == fh && f.sess == x.id) = some f →
      (∀ (off : Nat) (b : Bytes),
        let gives (st : Nat) : Prop := Makes (.fileBlock rq fh (.write off b)) s (n.respond rq st [])
        (f.write = false → gives stAccess) ∧
        (f.write = true → (1024 < b.length → gives stLength) ∧
          (b.length ≤ 1024 → (off ≠ f.pos → gives stSequence) ∧
            (off = f.pos → (f.total < off + b.length → gives stRange) ∧
              (∀ k : Fin 8, off + b.length ≤ f.total → f.name = .slot k →
                (n.slotHeld k off b.length = true → Makes (.fileBlock rq fh (.write off b)) s
                  ((n.updFile f.fh fun g => { g with lastAt := s.m.mono }).respond rq stSupplyLow [])) ∧
                (n.slotHeld k off b.length = false → Makes (.fileBlock rq fh (.write off b)) s
                  (((({ n with cas := n.cas.writeSlot k off b } : Mod).updFile f.fh fun g =>
                    { g with pos := g.pos + b.length, lastAt := s.m.mono }).passOn x f off b).respond rq stOk (fileBody 3 f.fh [])))))))) ∧
      (∀ off len : Nat, f.write = true → Makes (.fileBlock rq fh (.read off len)) s (n.respond rq stAccess [])) ∧
      (f.write = true →
        (∀ t, f.name = .ctab t →
          (f.pos ≠ 2048 → Makes (.fileClose rq fh) s ((n.forgetFile fh).respond rq stLength [])) ∧
          (f.pos = 2048 →
            let k := (n.forgetFile fh).completeTab t f.data
            Makes (.fileClose rq fh) s
              ((if n.acked (.ctab t) (crc32 f.data) then k.confirmTab t true else k).respond rq stOk (fileBody 4 fh [])))) ∧
        (∀ kind, fwKind f.name = some kind →
          let good := (parseFw f.data).good && kind == (parseFw f.data).kind
          Makes (.fileClose rq fh) s (((n.forgetFile fh).setFw kind { parseFw f.data with kind := kind, good := good }).respond rq
            (if good then stOk else stImg) (fileBody 4 fh (if good then [0, 0, 0] else [3, 0, 0])))) ∧
        (∀ t : Fin 8, f.name = .slot t →
          let c := (n.forgetFile f.fh).completeSlot t f.pos
          let body := fileBody 4 f.fh (natLe 1 c.2.2.1 ++ natLe 2 c.2.2.2)
          let k := c.1.joinImage
          (c.1.hdrLost = true → Makes (.fileClose rq fh) s (k.respond rq stCondition body)) ∧
          (c.1.hdrLost = false →
            (1 ≤ c.2.2.1 ∧ c.2.2.1 ≤ 6 → Makes (.fileClose rq fh) s (k.respond rq stImg body)) ∧
            (¬ (1 ≤ c.2.2.1 ∧ c.2.2.1 ≤ 6) →
              (n.relays x f.name = false ∨ n.acked (.slot t) c.2.1 = true → Makes (.fileClose rq fh) s (k.respond rq stOk body)) ∧
              (n.relays x f.name = true → n.acked (.slot t) c.2.1 = false → Makes (.fileClose rq fh) s
                (let w : RelayClose := { rq := rq, slot := t, crc := BitVec.ofNat 32 c.2.1, body := body, due := s.m.mono + phS 10 }
                 { k with eap := { k.eap with relayClose := some w } }))))))))

/-- An ordered reset begins at its instant on a live module, needs an order, and waits for the header and journal writes that the supply holds back. A press of the pin begins a reset in any state unless one is already latched or the pin is still ignored; during the power-on reset it is latched only; it drops an order and a start held in reset. The release ends a reset in progress that is not held for the clock: after 1 ms for an ordered one; the end of a power-on reset with the pin pressed leaves the reset of the pin; a live module is left as it is. A pin low for 10 s starts the module with cause RESET_STUCK, or with the cause that a recorded rollback or a commanded bank switch gives. A start goes on only with CLKIN good and outside the override; else it is held in reset for the qualification. -/
def Obligations.ResetsPassThroughAndStartsFollow : Prop :=
  ∀ s : State,
    let m := s.m
    (∀ o : ResetOrder, m.boot.order = some o → m.live = true →
      (m.writesWait = false → Makes .internalReset s (m.to o.due).enterReset) ∧
      (m.writesWait = true → Makes .internalReset s m)) ∧
    (m.boot.order = none ∨ m.live = false → Makes .internalReset s m) ∧
    (m.boot.pressAt.isSome = true → Makes .resetPinPress s m) ∧
    (m.boot.pressAt = none →
      let k := m.pinDead.2
      (m.pinDead.1 = true → Makes .resetPinPress s { k with boot := { k.boot with pinIgnored := some m.mono } }) ∧
      (m.pinDead.1 = false → m.sup.resetAsserted = true →
        Makes .resetPinPress s { k with boot := { k.boot with pressAt := some m.mono, pinIgnored := none } }) ∧
      (m.pinDead.1 = false → m.sup.resetAsserted = false →
        Makes .resetPinPress s
          ({ k with boot := { k.boot with pressAt := some m.mono, order := none, pinIgnored := none, held := none } } : Mod).enterReset)) ∧
    (∀ obs : StartObs,
      (m.live = true ∨ m.boot.held.isSome = true → Makes (.resetRelease obs) s m) ∧
      (m.live = false → m.boot.held = none → m.sup.resetAsserted = true → m.boot.pressAt.isSome = true →
        Makes (.resetRelease obs) s
          { m with er := if m.er.opRun then m.er else m.er.opResume m.mono
                   sup := { m.sup with resetAsserted := false, holdupFrom := none }, boot := { m.boot with pressAt := some m.mono } }) ∧
      (m.live = false → m.boot.held = none → m.sup.resetAsserted = false ∨ m.boot.pressAt = none →
        let k := if m.boot.order.isSome then m.to (m.boot.resetAt + phMs 1) else m
        Makes (.resetRelease obs) s (k.startAt k.startOrder obs)) ∧
      (m.boot.pressAt = none → Makes (.resetStuck obs) s m) ∧
      (∀ a : Nat, m.boot.pressAt = some a →
        let k := m.to (a + phS 10)
        let n : Mod := { k with boot := { k.boot with stuckSeen := true, pinIgnored := some k.mono } }
        let o := k.causeOf { cause := 2 }
        (o.cause ≠ 2 → Makes (.resetStuck obs) s ((n.log 1 5 4 0 []).startAt o obs)) ∧
        (o.cause = 2 → Makes (.resetStuck obs) s (n.startAt o obs)))) ∧
    (∀ (k : Mod) (o : ResetOrder),
      (k.cas.jrn.pend = 2 → k.causeOf o = { o with cause := 5, cold := some true }) ∧
      (k.cas.jrn.pend ≠ 2 → k.boot.bankSwitch = some (pickBank k.bankA k.bankB).1 → k.causeOf o = { o with cause := 8, cold := none }) ∧
      (k.cas.jrn.pend ≠ 2 → k.boot.bankSwitch ≠ some (pickBank k.bankA k.bankB).1 → k.causeOf o = o)) ∧
    (∀ (k : Mod) (o : ResetOrder) (obs : StartObs),
      let n := k.t0 o obs
      (n.clk.override = true →
        k.startAt o obs = { n with clk := { n.clk with cmonEn := true, qualifying := true }, boot := { n.boot with held := some obs } }) ∧
      (n.clk.override = false → obs.clkinWindowsOk = false →
        k.startAt o obs = ({ n with clk := { n.clk.force 4 with cmonEn := true }, boot := { n.boot with held := some obs },
                                    ptp := { n.ptp with quality := .degraded } } : Mod).restage) ∧
      (n.clk.override = false → obs.clkinWindowsOk = true →
        k.startAt o obs = ({ n with
          tb := { n.tb with slow := false }
          clk := { n.clk with cmonEn := true, clkinOk := true, pllLocked := true, src := List.replicate 5 false } } : Mod).startGoesOn obs))

/-- On a live module: while the window runs its served time enters the journal 1 s after the last store, at once where MRAM may be written and as a held write, which is counted, where not; the window completes when its time has been served, recording the commit in the journal and then in the header, or holding it back; a commit whose header write fails stays recorded; without a window neither happens. While writes are forbidden PENDING_WRITE_RESUME changes nothing; once they are permitted it makes what was held. -/
def Obligations.JournalCommitAndHeldWrites : Prop :=
  ∀ s : State, s.m.live = true →
    let m := s.m
    ActsAt .journalWindowWrite s (if m.windowOpen ∧ m.cas.winFrom.isSome then some (m.cas.lastStore + phS 1) else none) (fun k => k.storeWindow) ∧
    ActsAt .commitWindowComplete s
      (if m.windowOpen then m.cas.winFrom.map fun a => a + phMs (m.cas.winMs - m.cas.jrn.servedMs) else none) (fun k => k.commitWindow) ∧
    (m.sup.mayWrite = false → Makes .pendingWriteResume s m) ∧
    (m.sup.mayWrite = true → Makes .pendingWriteResume s m.resumeWrites) ∧
    (∀ k : Mod,
      (k.sup.mayWrite = true → k.storeWindow.cas.jrn.servedMs = k.servedMs ∧ k.storeWindow.cas.lastStore = k.mono ∧
        k.storeWindow.cas.pendW = k.cas.pendW.filter (fun w => w != .journal) ∧ k.storeWindow.cas.mram = k.storeWindow.cas.jrn ∧
        k.storeWindow.sup = k.sup) ∧
      (k.sup.mayWrite = false → PendWrite.window ∈ k.storeWindow.cas.pendW ∧ k.storeWindow.cas.lastStore = k.mono ∧
        k.storeWindow.cas.jrn = k.cas.jrn ∧ k.storeWindow.sup.deferred = k.sup.deferred + 1) ∧
      (k.sup.mayWrite = false → k.commitWindow.cas.winFrom = none ∧ PendWrite.commit ∈ k.commitWindow.cas.pendW ∧
        k.commitWindow.cas.hdr = k.cas.hdr ∧ k.commitWindow.sup.deferred = k.sup.deferred + 1) ∧
      (k.sup.mayWrite = true → k.sup.mayErase = true → k.commitWindow.cas.winFrom = none ∧ k.commitWindow.cas.hdr.commit = 0 ∧
        k.commitWindow.cas.jrn.pend = (if k.commitWindow.cas.hdrFailed then 1 else 0) ∧ k.commitWindow.cas.jrn.servedMs = 0))

/-- A module that enters a reset first releases its claim, where it has one. Then it is not live, is OFFLINE, claims nothing and has ACT clear; sessions, files, subscriptions, an online change, tasks, net and configuration are gone, time, ports and CAN controllers are as after reset, and the increment is nominal outside the override. From what the release left it keeps: the records of the recorder and their sequence number, the journal as MRAM holds it, the retained area, the selection of the counters, which are 0; count, alarms and flags of the backup domain; the island but for its last report; the cassette, the firmware banks, the factory data and the levels of the supply. -/
def Obligations.EveryResetKeepsWhatTheSpecKeeps : Prop :=
  ∀ m : Mod,
    let k := if m.tan.ilk.ownClaim then m.releaseClaim else m
    let n := m.enterReset
    (n.live = false ∧ n.boot.resetAt = k.mono ∧ n.tan.role = .offline ∧ n.tan.ilk.ownClaim = false ∧ n.act = false) ∧
    (n.eap.sessions = [] ∧ n.eap.files = [] ∧ n.eap.subs = [] ∧ n.change = {} ∧ n.tasks = List.replicate 16 {} ∧ n.net = {} ∧ n.cfg = {} ∧
      n.ptp = {} ∧ n.ae = {} ∧ n.ce = {} ∧ n.eth = {} ∧ n.cans = List.replicate 4 {} ∧ n.cas.running = false ∧
      (k.clk.override = false → n.tb.addend = 0xA0000000)) ∧
    (n.er.held = k.er.held ∧ n.er.wseq = k.er.wseq ∧ n.cas.jrn = k.cas.mram ∧ n.cas.mram = k.cas.mram ∧ n.ret = k.ret) ∧
    (n.pmc.sel = k.pmc.sel ∧ n.pmc.val = List.replicate 64 0) ∧
    (n.bkp.base = k.bkp.base ∧ n.bkp.since = k.bkp.since ∧ n.bkp.rest = k.bkp.rest ∧ n.bkp.e = k.bkp.e ∧ n.bkp.alms = k.bkp.alms ∧
      n.bkp.pwronFrom = k.bkp.pwronFrom ∧ n.bkp.pfTime = k.bkp.pfTime ∧ n.bkp.osf = k.bkp.osf) ∧
    n.si = { k.si with rep := {}, repAt := none, statusValid := false } ∧
    (n.cas.mem = k.cas.mem ∧ n.bankA = k.bankA ∧ n.bankB = k.bankB ∧ n.otp = k.otp ∧ n.sup.vorMv = k.sup.vorMv)

/-- On a live module: a lockstep mismatch and an uncorrectable error are fatal conditions with their kind and unit, counted against the pair or lane; a corrected error is counted in the last hour and recorded; a watchdog expiry and a firmware exception are soft faults of their pair. A FAILED module restarts 100 ms after it failed: by a rollback where one is recorded or waits to be, else not after three counted starts within an hour, else with the cause of its failure. In every state the claim keeper releases the claim that the tandem logic no longer refreshes; without a claim nothing happens. -/
def Obligations.FaultsFailTheModule : Prop :=
  ∀ s : State,
    let m := s.m
    (m.live = true →
      (∀ p : Fin 4,
        Makes (.lockstepMismatch p) s (m.fatal 1 p (some p.val)) ∧
        Makes (.watchdogExpiry p) s (m.softFault 1 p) ∧
        Makes (.firmwareException p) s (m.softFault 2 p)) ∧
      (∀ p : Fin 4,
        Makes (.uncorrectableEcc (.tcm p)) s (m.fatal 2 p (some p.val)) ∧
        Makes (.uncorrectableEcc (.ceStore p)) s (m.fatal 2 p (some (4 + p.val)))) ∧
      Makes (.uncorrectableEcc .sram) s (m.fatal 2 0 none) ∧
      Makes (.uncorrectableEcc .dram) s (m.fatal 2 0 none) ∧
      (∀ src : EccSrc, Makes (.correctableEcc src) s
        (((m.updTan fun t => { t with hl := { t.hl with ecc := m.optime :: t.hl.ecc.filter fun a => decide (m.optime < a + 3600000) } }).log
          1 2 7 (eccUnit src).1 []).count 7 0 1)) ∧
      ActsAt .failedRestart s (if m.tan.role = .failed then m.tan.failedAt.map (· + phMs 100) else none) (fun k => k.failedRestart)) ∧
    (m.tan.ilk.ownClaim = true → Makes .claimKeeperExpiry s (m.releaseClaim.updIlk fun k => { k with keeperRefresh := false })) ∧
    (m.tan.ilk.ownClaim = false → Makes .claimKeeperExpiry s m) ∧
    (∀ k : Mod,
      let recent := k.tan.starts.filter fun a => decide (k.optime < a + 3600000)
      let due := k.cas.jrn.pend = 2 ∨ k.cas.pendW.contains .rollback = true
      (due → k.failedRestart = k.orderStart { cause := 5, cold := some true }) ∧
      (¬ due → 3 ≤ recent.length → k.failedRestart = k.updTan fun t => { t with failedAt := none }) ∧
      (¬ due → recent.length < 3 → k.failedRestart = k.orderStart { cause := k.tan.failCause }))

/-- In every state a voltage on the peer line is read and the stages follow, a live module settling a conflict; an output timeout runs time on to the end of the stage's timeout. On a live module the latch sets, the stages leave OFF, a standby claims, slot A withdraws a claim still in conflict, a withdrawn claim is judged again, an open line held for 10 s detaches a standby, a blocked peer detaches an OFFLINE module that heard no bell, and an OFFLINE module decides again, each at its armed instant; a module that waits for its partner restarts once it has gone. Where none is armed nothing happens. -/
def Obligations.InterlockClaimsLatchesAndWithdraws : Prop :=
  ∀ s : State,
    let m := s.m
    let i := m.tan.ilk
    (∀ (mv : Nat) (held : Bool),
      let n := (m.updIlk fun k => k.setPeer (readPeer k.peer mv held) m.mono).restage
      Makes (.ilkPeerChange mv held) s (if m.live = true then n.settleConflict.watchFit else n)) ∧
    (∀ c : Fin 32,
      let from_ := if i.act = true then Nat.max ((m.dioCh c).out.refresh.getD 0) i.actAt else i.actClearedAt
      Makes (.outputTimeout (.dio c)) s (m.to (from_ + phMs (m.dioCfg c).otmoMs)).restage) ∧
    (∀ c : Fin 8,
      let from_ := if i.act = true then Nat.max ((m.aoCh c).out.refresh.getD 0) i.actAt else i.actClearedAt
      Makes (.outputTimeout (.ao c)) s (m.to (from_ + phMs (m.aoCfg c).otmoMs)).restage) ∧
    (m.live = true →
      ActsAt .actLatchSet s i.actDue (fun k => k.actLatched) ∧
      ActsAt .outputEnable s i.enableAt (fun k => (k.updIlk fun q => { q with enableAt := none }).restage) ∧
      ActsAt .standbyClaim s m.tan.standbyClaimDue (fun k => k.assertClaim 1) ∧
      ActsAt .slotAClaimExpiry s (i.conflictAt.map (· + phMs 1)) (fun k => if k.tan.conflict = true then k.withdraw else k) ∧
      ActsAt .claimWithdrawRecheck s i.recheckAt (fun k => k.recheckClaim) ∧
      ActsAt .openWaitExpiry s i.openWaitAt (fun k =>
        let n := k.updIlk fun q => { q with openWaitAt := none }
        if k.tan.role = .standby ∧ k.tan.ilk.peer = .open_ then n.detach 7 else n) ∧
      ActsAt .peerBlockedTimeout s i.peerBlockedAt (fun k =>
        let n := k.updIlk fun q => { q with peerBlockedAt := none }
        if k.tan.role = .offline ∧ i.ownClaim = true ∧ i.act = false ∧ i.openThroughout = true ∧ k.bellHeard = false then n.detach 10 else n) ∧
      ActsAt .offlineRedecide s i.redecideAt (fun k =>
        let n := k.updIlk fun q => { q with redecideAt := none }
        if k.tan.role = .offline then n.decideRole else n) ∧
      ActsAt .partnerGone s
        (if m.tan.waits = false then none else if m.tan.partnerGone m.mono = true then some m.mono
         else if i.peer = .unclaimed then some (i.peerSince + m.tan.trec.loss) else none)
        (fun k => (k.log 5 5 0x30 0 []).orderStart { cause := 6 }))

/-- On a live module: a bell goes out on each path 25 µs after the last; a bell in a twin-link frame, each with a good CRC, is heard while a lane is up, any other ignored; a heartbeat is heard, or counted with a wrong CRC. A path becomes silent, and is restored after 1 s of valid bells, at its instant, the heartbeat not under test. HELLO is judged; a shadow segment is taken by a module that takes batches, a gap in BSEQ discarding; a resync request is served by an executing module; an attempt of resynchronisation ends after 10 s, the second in DETACHED with 8; a lane changes, in the override only down; DETACHED is left when its reason clears. -/
def Obligations.BellsShadowsAndTheTwinLink : Prop :=
  ∀ s : State, s.m.live = true →
    let m := s.m
    Makes .bellSend s (m.to m.tan.bellDue).sendBells ∧
    (∀ frame : Bytes,
      (∀ b : Bell, m.tan.lane0 = true ∨ m.tan.lane1 = true → tlBell frame = some b → Makes (.bellFrame frame) s (m.bellCame b).ltJudge) ∧
      ((m.tan.lane0 = false ∧ m.tan.lane1 = false) ∨ tlBell frame = none → Makes (.bellFrame frame) s m)) ∧
    (∀ bits : BitVec 20,
      (parseHeartbeat bits = none → Makes (.heartbeatFrame bits) s (m.updTan fun t => { t with hbCrcErr := t.hbCrcErr + 1 })) ∧
      (∀ seq fl, parseHeartbeat bits = some (seq, fl) →
        Makes (.heartbeatFrame bits) s
          ((m.updTan fun t => { t with hb := t.hb.valid 8 seq m.mono t.trec.loss, hbFlags := some (BitVec.ofNat 4 (fl / 4)),
                                       ilk := { t.ilk with silenceSpent := false } }).releaseHeard (bitOf fl 3)
            (match m.tan.hbFlags with | some f => f.getLsbD 1 | none => false)))) ∧
    (∀ p : BellPath,
      let q := m.tan.path p
      ActsAt (.bellPathSilent p) s
        (if q.silent = true ∨ p = .heartbeat ∧ m.testing 8 = true then none else some (q.silentDue m.tan.trec.loss m.boot.t0))
        (fun k => (k.pathSilent p).ltJudge) ∧
      ActsAt (.bellPathRestored p) s (if q.silent = true then q.steadyAt m.tan.trec.loss m.mono else none)
        (fun k => k.updTan fun t => t.setPath p fun r => { r with silent := false })) ∧
    (∀ h : Hello, Makes (.hello h) s (if m.maint then m else (m.helloCame h).answerHello)) ∧
    (∀ (h : BatchHdr) (recs : List ShRec),
      (m.takesBatches = false → Makes (.shadowSegment (.start h recs)) s m ∧ Makes (.shadowSegment (.more recs)) s m) ∧
      (m.takesBatches = true →
        (∀ q, m.tan.sh.rxSeq = some q → h.bseq ≠ q + 1 → Makes (.shadowSegment (.start h recs)) s m.batchGap) ∧
        ((∀ q, m.tan.sh.rxSeq = some q → h.bseq = q + 1) →
          Makes (.shadowSegment (.start h recs)) s (m.updTan fun t => { t with sh := { t.sh with hdr := some h, recs := recs } }).batchEnds) ∧
        Makes (.shadowSegment (.more recs)) s (m.updTan fun t => { t with sh := { t.sh with recs := t.sh.recs ++ recs } }).batchEnds)) ∧
    (∀ b : BitVec 32, Makes (.resyncReq b) s (if m.tan.role.executes = true then m.resyncAsked else m)) ∧
    ActsAt .resyncTimeout s (if m.tan.role = .catchingUp ∧ 1 ≤ m.tan.sh.attempt then some (m.tan.sh.attemptAt + phS 10) else none)
      (fun k => if k.tan.sh.attempt = 1 then k.startResync 2 else k.detach 8) ∧
    (∀ l : Fin 2,
      Makes (.twinLinkLaneChange l false) s (m.laneChanged l false).ltJudge ∧
      (m.clk.override = false → Makes (.twinLinkLaneChange l true) s (m.laneChanged l true).ltJudge) ∧
      (m.clk.override = true → Makes (.twinLinkLaneChange l true) s m)) ∧
    ActsAt .detachReasonClear s m.detachClears (fun k => k.rejoin)

/-- On a live module: the holder of ACT judges a request, another module notes its reason; a fit standby without a gap answers HO_SET by HO_ACK, an unfit one by HO_CANCEL with 7, which completes its own HANDOVER command; HO_ACK of the pending T_h marks it; HO_CANCEL ends the pending handover with its cause. 5 ms before T_h a giving module without HO_ACK cancels with 6; at T_h one with it releases; 1 µs later the standby claims. A patrol test ends at its period where it is run; health is computed every 100 ms; swap and revert hold times run out. HANDOVER, REVERT_ACK and SHADOW_LAG, when they may run, do what they command, SHADOW_LAG being cleared. A HANDOVER to the holder of ACT that R340 refuses with 1, 2, 3 or 9 gets BUSY, with another cause NO_PARTNER unless FORCE is given, which makes the request. -/
def Obligations.HandoverAndHealth : Prop :=
  (∀ s : State,
    let m := s.m
    (m.live = true →
      (∀ reason : BitVec 8, Makes (.hoReq reason) s (if m.act = true then m.judgeHo reason.toNat
        else m.updTan fun t => { t with ho := { t.ho with asked := some reason.toNat } })) ∧
      (∀ th : BitVec 96,
        (m.act = true → Makes (.hoSet th) s m) ∧
        (m.act = false → m.tan.role = .standby → m.fit = true → m.tan.sh.gapSeen = false →
          Makes (.hoSet th) s ((m.updTan fun t => { t with ho := { t.ho with
            pend := some { th := th, reason := t.ho.asked.getD 1, giving := false, acked := true } } }).control 6 (natLe 12 th.toNat))) ∧
        (m.act = false → m.tan.role ≠ .standby ∨ m.fit = false ∨ m.tan.sh.gapSeen = true →
          Makes (.hoSet th) s (((m.updTan fun t => { t with ho := { t.ho with asked := none, lastCause := 7 } }).control 7 [7]).cmdDone 3 0 0 7)) ∧
        Makes (.hoAck th) s (m.updTan fun t => { t with ho := { t.ho with
          pend := t.ho.pend.map fun p => if p.giving = true ∧ p.th = th then { p with acked := true } else p } })) ∧
      (∀ cause : BitVec 8, Makes (.hoCancel cause) s
        ((m.updTan fun t => { t with ho := { t.ho with pend := none, asked := none, lastCause := cause.toNat } }).cmdDone 3 0 0 cause.toNat)) ∧
      (m.tan.ho.pend = none → Makes .handoverAckTimeout s m ∧ Makes .handoverRelease s m ∧ Makes .handoverTake s m) ∧
      (∀ p, m.tan.ho.pend = some p →
        Makes .handoverAckTimeout s (if p.giving = true ∧ p.acked = false then (m.toNow (p.units - unitsMs 5)).cancelHo 6 else m) ∧
        Makes .handoverRelease s (if p.giving = true ∧ p.acked = true ∧ m.act = true then (m.toNow p.units).hoRelease else m) ∧
        Makes .handoverTake s
          (if p.giving = false ∧ m.tan.role = .standby then (m.toNow (p.units + 1000 * unitsPerNs)).assertClaim 4 else m)) ∧
      (∀ (t : Patrol) (pass late : Bool),
        let p := phMs (patrolMs t m.act)
        Makes (.patrolTest t pass late) s
          (if (m.tan.role = .standby ∨ m.act = true) ∧ p ≠ 0
           then (m.to (m.patrolLast t + (if late = true then p + p / 10 + 1 else p))).patrolPass t pass late else m)) ∧
      (∀ (c : Int) (pin : Bool), Makes (.healthRecompute c pin) s
        ((m.to (m.tan.hl.recomputedAt + phMs 100)).recomputeHealth c pin).ltJudge) ∧
      ActsAt .swapHoldExpiry s (m.tan.ho.swapFrom.map (· + phS m.tan.trec.swapHoldS))
        (fun k => if k.swapHolds = true then k.requestCounted 3 else k) ∧
      ActsAt .revertDelayExpiry s (m.tan.ho.revertFrom.map (· + phS m.tan.trec.tRevertS))
        (fun k => if k.revertHolds = true then k.requestCounted 2 else k)) ∧
    (∀ (rq : Req) (x : Session) (force : Bool), admitted m rq x 3 3 false false →
      let n := m.touchSession rq.sess
      (n.act = false → n.tan.role ≠ .standby →
        Makes (.handover rq force) s (commanded n rq 3 { status := stNoPartner } stNoPartner [])) ∧
      ((if n.act = true then n.hoRefusal else if n.tan.role = .standby then none else some 4) = none →
        let k := commanded (n.requestHo 1) rq 3 { at_ m.eap.cmds 3 {} with open_ := true } stAccepted []
        Makes (.handover rq force) s (if k.handoverOpen = true then k.settleHandover else k))) ∧
    (∀ (rq : Req) (x : Session), admitted m rq x 4 2 false false →
      let n := m.touchSession rq.sess
      (m.tan.ho.waitAck = false → Makes (.revertAck rq) s (commanded n rq 4 { status := stCondition } stCondition [])) ∧
      (m.tan.ho.waitAck = true → Makes (.revertAck rq) s (commanded n.revertAck.m rq 4 {} stOk []))) ∧
    (∀ (rq : Req) (x : Session), heard m rq x → m.maint = false →
      let n := m.touchSession rq.sess
      Makes (.shadowLag rq) s (((n.updTan fun t => { t with sh := { t.sh with lagNs := 0 } }).pass 1).respond rq stOk
        (readResult stOk (natLe 4 m.tan.sh.lagNs))))) ∧
  (∀ (s : State) (rq : Req) (x : Session) (force : Bool) (c : Nat), admitted s.m rq x 3 3 false false → s.m.act = true →
    let n := s.m.touchSession rq.sess
    n.hoRefusal = some c →
    (c = 1 ∨ c = 2 ∨ c = 3 ∨ c = 9 → Refuses (.handover rq force) s rq 3 stBusy) ∧
    (¬ (c = 1 ∨ c = 2 ∨ c = 3 ∨ c = 9) →
      (force = false → Refuses (.handover rq force) s rq 3 stNoPartner) ∧
      (force = true →
        let k := commanded (n.requestHo 1) rq 3 { at_ s.m.eap.cmds 3 {} with open_ := true } stAccepted []
        Makes (.handover rq force) s (if k.handoverOpen = true then k.settleHandover else k))))

/-- For every command and every state, exec answers a next state: the module becomes what the command makes of it, which does not depend on the waiting commands, and these stay as they are. From any state, as many steps as there are waiting commands all answer a next state; after them no command waits and the module is what the commands make of it one after another, in the order in which they waited. -/
def Obligations.EveryCommandCompletesAndTheQueueDrains : Prop :=
  (∀ (c : Instr) (s : State), Machine.exec c s = .next { s with m := effectOf c s.m }) ∧
  (∀ s : State, afterSteps s.pending.length s = some { pending := [], m := s.pending.foldl (fun k c => effectOf c k) s.m })

/-- In every state whose module is in reset, a command leaves the module as it is, unless it is one of the commands named by actsInReset: those of the safety island, the backup domain, the clock and supply supervisor, the interlock line and the output stages, the reset itself, and the instructions of the control engine. -/
def Obligations.InResetOnlyItsUngatedBlocksAct : Prop :=
  ∀ (c : Instr) (s : State), s.m.live = false → actsInReset c = false → Makes c s s.m

/-- For every command that carries a request: where the module is in reset or holds no session of that number, the request changes nothing. Where the session holds a response with its TID among its last ones, the request is not executed again: the session counts as used and the held response is sent again, and nothing else happens, whatever the request asks for. A repeat of a request that still waits for its answer gets no other answer (the model's choice, log entry 128), and any other request that finds eight of its session waiting is answered BUSY at once. For every COMMAND that is heard: a session of too low a role, or another port where P5 alone may send it, gets ROLE; MAINTENANCE that does not admit it CONDITION; and one to an object that holds a command not yet complete BUSY, which ACTIVATE also records as a refused change. Nothing else happens then. A write to an object of its own row from a session of too low a role answers the item ROLE, and in MAINTENANCE, where it is not admitted, CONDITION; a read of a counter that reading clears answers CONDITION there and clears nothing. -/
def Obligations.RequestsNeedTheirSessionAndRunOnce : Prop :=
  ((∀ (c : Instr) (rq : Req) (s : State), requestOf c = some rq →
    let m := s.m
    (m.live = false ∨ (m.eap.sessions.find? fun x => x.id == rq.sess) = none → Makes c s m) ∧
    (∀ (x : Session) (r : Resp), m.live = true → (m.eap.sessions.find? fun y => y.id == rq.sess) = some x →
      (x.held.find? fun y => y.tid == rq.tid) = some r →
      Makes c s ((m.touchSession rq.sess).resend rq r)) ∧
    (∀ x : Session, m.live = true → (m.eap.sessions.find? fun y => y.id == rq.sess) = some x → (x.held.find? fun y => y.tid == rq.tid) = none →
      (m.waiting.contains rq = true → Makes c s (m.touchSession rq.sess)) ∧
      (m.waiting.contains rq = false → 8 ≤ (m.waiting.filter fun q => q.sess == rq.sess).length →
        Makes c s ((m.touchSession rq.sess).respond rq stBusy [])))) ∧
  (∀ (c : Instr) (rq : Req) (s : State) (x : Session) (idx role : Nat) (p5 im : Bool),
    requestOf c = some rq → commandObject c = some (idx, role, p5, im) → heard s.m rq x →
    let m := s.m.touchSession rq.sess
    (x.role < role ∨ p5 = true ∧ x.port ≠ 2 → Makes c s (m.respond rq stRole [])) ∧
    (role ≤ x.role → (p5 = true → x.port = 2) →
      (s.m.maint = true → im = false → Makes c s (m.respond rq stCondition [])) ∧
      ((s.m.maint = true → im = true) → (at_ s.m.eap.cmds idx {}).open_ = true →
        Makes c s ((if idx = 1 then m.busyChange else m).respond rq stBusy []))))) ∧
  (∀ (c : Instr) (rq : Req) (s : State) (x : Session), requestOf c = some rq → heard s.m rq x →
    let m := s.m.touchSession rq.sess
    (∀ (role : Nat) (im : Bool), writeObject c = some (role, im) →
      (x.role < role → Makes c s (m.respond rq stOk (writeResult stRole))) ∧
      (role ≤ x.role → s.m.maint = true → im = false → Makes c s (m.respond rq stOk (writeResult stCondition)))) ∧
    (readsAndClears c = true → s.m.maint = true → Makes c s (m.respond rq stOk (readResult stCondition []))))

/-- For x and y the lane's signed 16-bit operand registers and a and b its signed 40-bit accumulators: LDAX gives x*2^16, MPY twice the product x*y, MAC and MSU add it to and subtract it from a, ADDA and SUBA take a+b and a-b, ADDX and SUBX take a plus and minus x*2^16, NEGA and ABSA take -a and the magnitude of a, a left shift of SHA takes a*2^s: each is the exact integer brought into the 40-bit range, and AOV becomes set exactly where that changes the value. A right shift by n = 1 to 31 gives (a + 2^(n-1)) divided by 2^n, rounded down, which needs no clamp. -/
def Obligations.AccumulatorArithmeticNeverWraps : Prop :=
  ∀ (s : State) (l a b : Fin 4) (x y : Fin 8) (k : BitVec 6),
    Accumulates (.ceLdax l a x) s l a (fun r => (r.xr x).toInt * 2 ^ 16) ∧
    Accumulates (.ceMpy l a x y) s l a (fun r => (r.xr x).toInt * (r.xr y).toInt * 2) ∧
    Accumulates (.ceMac l a x y) s l a (fun r => (r.acc a).toInt + (r.xr x).toInt * (r.xr y).toInt * 2) ∧
    Accumulates (.ceMsu l a x y) s l a (fun r => (r.acc a).toInt - (r.xr x).toInt * (r.xr y).toInt * 2) ∧
    Accumulates (.ceAdda l a b) s l a (fun r => (r.acc a).toInt + (r.acc b).toInt) ∧
    Accumulates (.ceSuba l a b) s l a (fun r => (r.acc a).toInt - (r.acc b).toInt) ∧
    Accumulates (.ceAddx l a x) s l a (fun r => (r.acc a).toInt + (r.xr x).toInt * 2 ^ 16) ∧
    Accumulates (.ceSubx l a x) s l a (fun r => (r.acc a).toInt - (r.xr x).toInt * 2 ^ 16) ∧
    Accumulates (.ceNega l a) s l a (fun r => -(r.acc a).toInt) ∧
    Accumulates (.ceAbsa l a) s l a (fun r => |(r.acc a).toInt|) ∧
    (0 ≤ k.toInt → Accumulates (.ceSha l a k) s l a (fun r => (r.acc a).toInt * 2 ^ k.toInt.toNat)) ∧
    (∀ n : Nat, 1 ≤ n → n ≤ 31 → k.toInt = -(n : Int) →
      Accumulates (.ceSha l a k) s l a (fun r => ((r.acc a).toInt + 2 ^ (n - 1)) / 2 ^ n) ∧
      (∀ r : Lane, intoRange 39 (((r.acc a).toInt + 2 ^ (n - 1)) / 2 ^ n) = ((r.acc a).toInt + 2 ^ (n - 1)) / 2 ^ n))

/-- MOVQ writes an operand register, and STQ the state word sign-extended to 32 bits, with (a + 0x8000) divided by 2^16, rounded down, brought into the range -32768 to 32767, a being the signed accumulator; SAT becomes set exactly where that changes the value. ADDQ and SUBQ write the sum and the difference of the two signed operand registers brought into the same range, and set SAT exactly where that changes the value. -/
def Obligations.ConversionsToQ15RoundHalfUpAndSaturate : Prop :=
  ∀ (s : State) (l a : Fin 4) (x y : Fin 8) (w : BitVec 8),
    ConvertsTo (.ceMovq l x a) s l x (fun r => ((r.acc a).toInt + 0x8000) / 2 ^ 16) ∧
    ConvertsTo (.ceAddq l x y) s l x (fun r => (r.xr x).toInt + (r.xr y).toInt) ∧
    ConvertsTo (.ceSubq l x y) s l x (fun r => (r.xr x).toInt - (r.xr y).toInt) ∧
    (∃ q : BitVec 16, q.toInt = intoRange 15 ((((s.m.ce.lane l).acc a).toInt + 0x8000) / 2 ^ 16) ∧
      Makes (.ceStq l a w) s (issued s.m l (laneStep (s.m.ce.setWord (s.m.ce.lane l).loop w.toNat (q.signExtend 32)) l 1 fun r =>
        { r with sat := r.sat || decide (intoRange 15 (((r.acc a).toInt + 0x8000) / 2 ^ 16) ≠ ((r.acc a).toInt + 0x8000) / 2 ^ 16) })))

/-- BR goes to its target where its condition holds and to the next index otherwise, taking one cycle: ALWAYS holds always, Z and NZ where Z is 1 and 0, N and NN where N is 1 and 0, LIM and NLIM where LIMF is 1 and 0, FIRST and NFIRST where FIRST is 1 and 0. A word with operation code 0x1B, target t and condition code 0 to 8 decodes to the branch on the condition of that code; with 9 to 15 it decodes to no instruction. -/
def Obligations.BranchConditionsHoldAsTabled : Prop :=
  (∀ (s : State) (l : Fin 4) (t : BitVec 7),
    let on (c : CeCond) (p : Lane → Bool) : Prop := Makes (.ceBr l c t) s (issued s.m l { s.m.ce with lanes := upd s.m.ce.lanes l fun r =>
      { r with pc := if p r then t.toNat else r.pc + 1, cycles := r.cycles + 1 } })
    on .always (fun _ => true) ∧ on .z (fun r => r.z) ∧ on .nz (fun r => !r.z) ∧ on .n (fun r => r.n) ∧ on .nn (fun r => !r.n) ∧
    on .lim (fun r => r.limf) ∧ on .nlim (fun r => !r.limf) ∧ on .first (fun r => r.first) ∧ on .nfirst (fun r => !r.first)) ∧
  (∀ (t : BitVec 7) (c : Fin 16),
    ceDecode (BitVec.ofNat 32 (0x1B * 2 ^ 26 + c.val * 2 ^ 12 + t.toNat)) =
      ([CeCond.always, .z, .nz, .n, .nn, .lim, .nlim, .first, .nfirst][c.val]?).map fun k => .br k t)

/-- For every list with default value d, in canonical form or not: after writing x at key a, key a reads x and every other key reads as before; after writing a list of values from key a on, the keys it covers read its values and every other key reads as before. For a table in canonical form: after erasing keys lo to hi-1, these read d and every other key reads as before; a write, a write of a list and an erasure leave it in canonical form. Two tables in canonical form that read alike at every key are equal. -/
def Obligations.TablesReadBackAndHaveOneForm : Prop :=
  ∀ (α : Type) (_ : DecidableEq α) (d : α) (t : SMap α),
    (∀ (a b : Nat) (x : α), SMap.get d (SMap.set d t a x) b = if b = a then x else SMap.get d t b) ∧
    (∀ (a b : Nat) (l : List α), SMap.get d (SMap.setList d t a l) b = if a ≤ b ∧ b < a + l.length then l.getD (b - a) d else SMap.get d t b) ∧
    (SMap.wf d t = true →
      (∀ lo hi b : Nat, SMap.get d (SMap.erase t lo hi) b = if lo ≤ b ∧ b < hi then d else SMap.get d t b) ∧
      (∀ (a : Nat) (x : α), SMap.wf d (SMap.set d t a x) = true) ∧
      (∀ (a : Nat) (l : List α), SMap.wf d (SMap.setList d t a l) = true) ∧
      (∀ lo hi : Nat, SMap.wf d (SMap.erase t lo hi) = true) ∧
      (∀ u : SMap α, SMap.wf d u = true → (∀ a : Nat, SMap.get d t a = SMap.get d u a) → t = u))

/-- For every instruction of the control engine, with every value of each of its operands, decoding the 32-bit word that encodes it gives that instruction back, and every field of that word that its operation code does not use is 0. A word that decodes to an instruction and whose unused fields are 0 is the word that encodes that instruction. So instructions and admissible words correspond one to one. A word whose operation code is 0x20 to 0x3F decodes to no instruction. -/
def Obligations.EngineInstructionsDecodeFromTheirWords : Prop :=
  (∀ i : CeInstr, ceDecode (ceEncode i) = some i) ∧
  (∀ i : CeInstr, (ceEncode i).toNat &&& (2 ^ 32 - 1 - ceUsed ((ceEncode i).toNat / 2 ^ 26)) = 0) ∧
  (∀ (w : BitVec 32) (i : CeInstr), ceDecode w = some i → w.toNat &&& (2 ^ 32 - 1 - ceUsed (w.toNat / 2 ^ 26)) = 0 → ceEncode i = w) ∧
  (∀ w : BitVec 32, 0x20 ≤ w.toNat / 2 ^ 26 → ceDecode w = none)

/-- A bell frame is 64 bytes long; its bytes 60 to 63 are the CRC-32 of the first 60, least significant byte first; and a receiver that takes it reads exactly the bell that was sent, for every bell with byte-sized role, score, time quality and line reading and eight staged values. A heartbeat of sequence number 0 to 255 and flags 0 to 63 carries both in its first 14 bits and reads back as sent. A received bell of another length, or whose stored CRC differs from that of its first 60 bytes, is not taken, and neither is a heartbeat whose last six bits differ from the CRC-6 of the first 14. -/
def Obligations.BellAndHeartbeatFramesReadBack : Prop :=
  (∀ b : Bell, b.role < 256 → b.score < 256 → b.tq < 256 → b.peerline < 256 → b.aostage.length = 8 →
    b.bytes.length = 64 ∧ leNat (b.bytes.drop 60) = crc32 (b.bytes.take 60) ∧ parseBell b.bytes = some b) ∧
  (∀ seq flags : Nat, seq < 256 → flags < 64 →
    (heartbeatBits seq flags).toNat / 64 = seq * 64 + flags ∧ parseHeartbeat (heartbeatBits seq flags) = some (seq, flags)) ∧
  (∀ f : Bytes, f.length ≠ 64 ∨ leNat ((f.drop 60).take 4) ≠ crc32 (f.take 60) → parseBell f = none) ∧
  (∀ h : BitVec 20, h.toNat % 64 ≠ crc6 14 (h.toNat / 64) 0 → parseHeartbeat h = none)

end
end

