-- ==== Sys2Proof/Laws/Cassette.lean ====
section
/-! SUPPORT. What the flash operations leave as it was: the module's own record of the cassette (its journal, header, held writes). -/

namespace Sys2Proof.Machine

/-- A flash command moves the array, the latch and the bus only. -/
theorem Cas.issue_frame (c : Cas) (cmd : FlashCmd) (a : Nat) (b : Bytes) :
    (c.issue cmd a b).jrn = c.jrn ∧ (c.issue cmd a b).hdr = c.hdr ∧ (c.issue cmd a b).pendW = c.pendW := by
  refine ⟨?_, ?_, ?_⟩ <;> cases cmd <;> simp only [Cas.issue] <;> split <;> rfl

/-- A page program or a sector erase likewise. -/
theorem Cas.modify_frame (c : Cas) (cmd : FlashCmd) (a : Nat) (b : Bytes) :
    (c.modify cmd a b).jrn = c.jrn ∧ (c.modify cmd a b).hdr = c.hdr ∧ (c.modify cmd a b).pendW = c.pendW := by
  have h := Cas.issue_frame ((({ c with wpHigh := true } : Cas).issue .writeEnable 0 []).issue cmd a b) .readStatus 0 []
  have h1 := Cas.issue_frame (({ c with wpHigh := true } : Cas).issue .writeEnable 0 []) cmd a b
  have h2 := Cas.issue_frame ({ c with wpHigh := true } : Cas) .writeEnable 0 []
  exact ⟨h.1.trans (h1.1.trans h2.1), h.2.1.trans (h1.2.1.trans h2.2.1), h.2.2.trans (h1.2.2.trans h2.2.2)⟩

/-- And any sequence of them. -/
theorem Cas.foldl_modify_frame {α : Type} (f : α → FlashCmd × Nat × Bytes) (l : List α) (c : Cas) :
    let k := l.foldl (fun (k : Cas) x => k.modify (f x).1 (f x).2.1 (f x).2.2) c
    k.jrn = c.jrn ∧ k.hdr = c.hdr ∧ k.pendW = c.pendW := by
  induction l generalizing c with
  | nil => exact ⟨rfl, rfl, rfl⟩
  | cons x t ih =>
    have h := Cas.modify_frame c (f x).1 (f x).2.1 (f x).2.2
    have i := ih (c.modify (f x).1 (f x).2.1 (f x).2.2)
    exact ⟨i.1.trans h.1, i.2.1.trans h.2.1, i.2.2.trans h.2.2⟩

theorem Cas.program_frame (c : Cas) (a : Nat) (b : Bytes) :
    (c.program a b).jrn = c.jrn ∧ (c.program a b).hdr = c.hdr ∧ (c.program a b).pendW = c.pendW :=
  Cas.foldl_modify_frame (fun p : Nat × Bytes => (.pageProgram, p.1, p.2)) _ c

theorem Cas.eraseRange_frame (c : Cas) (lo hi : Nat) :
    (c.eraseRange lo hi).jrn = c.jrn ∧ (c.eraseRange lo hi).hdr = c.hdr ∧ (c.eraseRange lo hi).pendW = c.pendW :=
  Cas.foldl_modify_frame (fun a : Nat => (.sectorErase, a, [])) _ c

/-- An attempt at a header copy leaves the header in use and the journal (R46). -/
theorem Cas.tryHdr_frame (c : Cas) (k : Nat) (n : Hdr) :
    (c.tryHdr k n).1.jrn = c.jrn ∧ (c.tryHdr k n).1.hdr = c.hdr ∧ (c.tryHdr k n).1.pendW = c.pendW := by
  have e := Cas.eraseRange_frame c (k * 65536) ((k + 1) * 65536)
  have p := Cas.program_frame (c.eraseRange (k * 65536) ((k + 1) * 65536)) (k * 65536)
    (if Config.flashFails c.tries then (Config.flashHolds c.tries).take 256 else n.bytes)
  exact ⟨p.1.trans e.1, p.2.1.trans e.2.1, p.2.2.trans e.2.2⟩

/-- All that a header write can do to the record (R46): the new header with the next sequence number, or the old one with the failure
noted; the journal stays, and no header write is held any longer. -/
theorem Cas.writeHdr_cases (c : Cas) (h : Hdr) :
    (c.writeHdr h).jrn = c.jrn ∧ (c.writeHdr h).pendW = c.pendW.filter (fun w => w != .header) ∧
      (((c.writeHdr h).hdrFailed = false ∧ (c.writeHdr h).hdr = { h with seq := (c.hdr.seq + 1) % 2 ^ 32 }) ∨
        ((c.writeHdr h).hdrFailed = true ∧ (c.writeHdr h).degraded = true ∧ (c.writeHdr h).hdr = c.hdr)) := by
  obtain ⟨d, q, hj, hh, e⟩ : ∃ (d : Cas × Bool) (q : Nat), d.1.jrn = c.jrn ∧ d.1.hdr = c.hdr ∧ c.writeHdr h = if d.2 then
      { d.1 with hdr := { h with seq := (c.hdr.seq + 1) % 2 ^ 32 }, copy := some q, pendW := c.pendW.filter fun w => w != .header, hdrFailed := false }
      else { d.1 with degraded := true, pendW := c.pendW.filter fun w => w != .header, hdrFailed := true } := by
    let n : Hdr := { h with seq := (c.hdr.seq + 1) % 2 ^ 32 }
    let k : Nat := match c.copy with | some 0 => 1 | _ => 0
    refine ⟨if (c.tryHdr k n).2 then c.tryHdr k n else (c.tryHdr k n).1.tryHdr k n, k, ?_, ?_, rfl⟩
    · split
      · exact (Cas.tryHdr_frame ..).1
      · exact (Cas.tryHdr_frame ..).1.trans (Cas.tryHdr_frame ..).1
    · split
      · exact (Cas.tryHdr_frame ..).2.1
      · exact (Cas.tryHdr_frame ..).2.1.trans (Cas.tryHdr_frame ..).2.1
  rw [e]
  cases d.2
  · exact ⟨hj, rfl, .inr ⟨rfl, rfl, hh⟩⟩
  · exact ⟨hj, rfl, .inl ⟨rfl, rfl⟩⟩

/-! A change of the journal, whatever the supply permits. -/

@[simp] theorem Mod.setJrn_jrn (m : Mod) (f : Journal → Journal) : (m.setJrn f).cas.jrn = f m.cas.jrn := by
  unfold Mod.setJrn; dsimp only; split
  · rfl
  · split <;> rfl
@[simp] theorem Mod.setJrn_hdr (m : Mod) (f : Journal → Journal) : (m.setJrn f).cas.hdr = m.cas.hdr := by
  unfold Mod.setJrn; dsimp only; split
  · rfl
  · split <;> rfl
@[simp] theorem Mod.setJrn_hdrFailed (m : Mod) (f : Journal → Journal) : (m.setJrn f).cas.hdrFailed = m.cas.hdrFailed := by
  unfold Mod.setJrn; dsimp only; split
  · rfl
  · split <;> rfl
@[simp] theorem Mod.setJrn_mayErase (m : Mod) (f : Journal → Journal) : (m.setJrn f).sup.mayErase = m.sup.mayErase := by
  unfold Mod.setJrn; dsimp only; split
  · rfl
  · split <;> rfl
@[simp] theorem Mod.setJrn_tan (m : Mod) (f : Journal → Journal) : (m.setJrn f).tan = m.tan := by
  unfold Mod.setJrn; dsimp only; split
  · rfl
  · split <;> rfl
/-- A role taken is the role held, and the rest of the tandem stays. -/
@[simp] theorem Mod.setRole_tan (m : Mod) (r : Role) : (m.setRole r).tan = { m.tan with role := r } := by
  unfold Mod.setRole; dsimp only; split
  · rfl
  · rw [Mod.setJrn_tan]; rfl
/-- A header change that the supply permits (R46): the write and, where it failed for good, its record. -/
theorem Mod.changeHdr_cas (m : Mod) (h : Hdr) (e : m.sup.mayErase = true) : (m.changeHdr h).cas = m.cas.writeHdr h := by
  unfold Mod.changeHdr
  rw [if_pos e]
  dsimp only
  split <;> rfl
/-- A change that the journal records, where the supply permits it (R46, R62, R63): the header is the new one, and the record in the
journal stands until the header has been written. -/
theorem Mod.changeRecorded_cas (m : Mod) (h : Hdr) (f : Journal → Journal) (e : m.sup.mayErase = true) :
    let k := m.changeRecorded h f
    k.cas.hdr = { h with seq := k.cas.hdr.seq } ∧
      k.cas.jrn = { f m.cas.jrn with pend := if k.cas.hdrFailed then m.cas.jrn.pend else 0 } := by
  obtain ⟨j1, -, ⟨j2, j3⟩ | ⟨j2, -, j3⟩⟩ := Cas.writeHdr_cases m.cas h
  · simp [Mod.changeRecorded, Mod.changeHdr_cas m h e, e, j1, j2, j3]
  · simp [Mod.changeRecorded, Mod.changeHdr_cas m h e, e, j1, j2]

end Sys2Proof.Machine
end

