-- ==== Sys2Proof/Laws/State.lean ====
section
/-! SUPPORT. The laws of the state's updates: one line for each field under each named update, and how the guards act. -/

namespace Sys2Proof.Machine

@[simp] theorem State.idle_pending (s : State) : s.idle.pending = s.pending := rfl
@[simp] theorem State.idle_m (s : State) : s.idle.m = s.m.pass 1 := rfl
theorem State.run_def (s : State) (f : Mod → Mod) : s.run f = .next { s with m := f s.m } := rfl
theorem Mod.whenLive_live {m : Mod} (f : Mod → Mod) (h : m.live = true) : m.whenLive f = f m := by simp [Mod.whenLive, h]
theorem Mod.whenLive_held {m : Mod} (f : Mod → Mod) (h : m.live = false) : m.whenLive f = m := by simp [Mod.whenLive, h]
@[simp] theorem Mod.onDue_none (m : Mod) (f : Mod → Mod) : m.onDue none f = m := rfl
@[simp] theorem Mod.onDue_some (m : Mod) (d : Nat) (f : Mod → Mod) : m.onDue (some d) f = f (m.to d) := rfl

@[simp] theorem Mod.pass_tb (m : Mod) (n : Nat) : (m.pass n).tb = m.tb.pass n := by rfl
@[simp] theorem Mod.pass_ptp (m : Mod) (n : Nat) : (m.pass n).ptp = m.ptp := by rfl
@[simp] theorem Mod.pass_tous (m : Mod) (n : Nat) : (m.pass n).tous = m.tous := by rfl
@[simp] theorem Mod.pass_tcus (m : Mod) (n : Nat) : (m.pass n).tcus = m.tcus := by rfl
@[simp] theorem Mod.pass_aat (m : Mod) (n : Nat) : (m.pass n).aat = m.aat := by rfl
@[simp] theorem Mod.pass_er (m : Mod) (n : Nat) : (m.pass n).er = m.er := by rfl
@[simp] theorem Mod.pass_pmc (m : Mod) (n : Nat) : (m.pass n).pmc = m.pmc.cycles m.free n := by rfl
@[simp] theorem Mod.pass_ce (m : Mod) (n : Nat) : (m.pass n).ce = m.ce := by rfl
@[simp] theorem Mod.pass_ae (m : Mod) (n : Nat) : (m.pass n).ae = m.ae := by rfl
@[simp] theorem Mod.pass_tasks (m : Mod) (n : Nat) : (m.pass n).tasks = m.tasks := by rfl
@[simp] theorem Mod.pass_net (m : Mod) (n : Nat) : (m.pass n).net = m.net := by rfl
@[simp] theorem Mod.pass_plan (m : Mod) (n : Nat) : (m.pass n).plan = m.plan := by rfl
@[simp] theorem Mod.pass_ret (m : Mod) (n : Nat) : (m.pass n).ret = m.ret := by rfl
@[simp] theorem Mod.pass_tan (m : Mod) (n : Nat) : (m.pass n).tan = m.tan := by rfl
@[simp] theorem Mod.pass_si (m : Mod) (n : Nat) : (m.pass n).si = m.si := by rfl
@[simp] theorem Mod.pass_eth (m : Mod) (n : Nat) : (m.pass n).eth = m.eth := by rfl
@[simp] theorem Mod.pass_cans (m : Mod) (n : Nat) : (m.pass n).cans = m.cans := by rfl
@[simp] theorem Mod.pass_dio (m : Mod) (n : Nat) : (m.pass n).dio = m.dio := by rfl
@[simp] theorem Mod.pass_an (m : Mod) (n : Nat) : (m.pass n).an = m.an := by rfl
@[simp] theorem Mod.pass_clk (m : Mod) (n : Nat) : (m.pass n).clk = m.clk := by rfl
@[simp] theorem Mod.pass_sup (m : Mod) (n : Nat) : (m.pass n).sup = m.sup := by rfl
@[simp] theorem Mod.pass_bkp (m : Mod) (n : Nat) : (m.pass n).bkp = m.setRtc n := by rfl
@[simp] theorem Mod.pass_disp (m : Mod) (n : Nat) : (m.pass n).disp = m.disp := by rfl
@[simp] theorem Mod.pass_cas (m : Mod) (n : Nat) : (m.pass n).cas = m.cas := by rfl
@[simp] theorem Mod.pass_bankA (m : Mod) (n : Nat) : (m.pass n).bankA = m.bankA := by rfl
@[simp] theorem Mod.pass_bankB (m : Mod) (n : Nat) : (m.pass n).bankB = m.bankB := by rfl
@[simp] theorem Mod.pass_onB (m : Mod) (n : Nat) : (m.pass n).onB = m.onB := by rfl
@[simp] theorem Mod.pass_eap (m : Mod) (n : Nat) : (m.pass n).eap = m.eap := by rfl
@[simp] theorem Mod.pass_boot (m : Mod) (n : Nat) : (m.pass n).boot = m.boot := by rfl
@[simp] theorem Mod.pass_otp (m : Mod) (n : Nat) : (m.pass n).otp = m.otp := by rfl
@[simp] theorem Mod.pass_cfg (m : Mod) (n : Nat) : (m.pass n).cfg = m.cfg := by rfl
@[simp] theorem Mod.pass_change (m : Mod) (n : Nat) : (m.pass n).change = m.change := by rfl
@[simp] theorem Mod.pass_rioOut (m : Mod) (n : Nat) : (m.pass n).rioOut = m.rioOut := by rfl
@[simp] theorem Mod.pass_btReq (m : Mod) (n : Nat) : (m.pass n).btReq = m.btReq := by rfl
@[simp] theorem Mod.pass_free (m : Mod) (n : Nat) : (m.pass n).free = m.free + 64 := by rfl
@[simp] theorem Mod.pass_out (m : Mod) (n : Nat) : (m.pass n).out = m.out := by rfl
@[simp] theorem Mod.to_tb (m : Mod) (d : Nat) : (m.to d).tb = m.tb.pass (m.tb.cyclesTo d) := by rfl
@[simp] theorem Mod.to_ptp (m : Mod) (d : Nat) : (m.to d).ptp = m.ptp := by rfl
@[simp] theorem Mod.to_tous (m : Mod) (d : Nat) : (m.to d).tous = m.tous := by rfl
@[simp] theorem Mod.to_tcus (m : Mod) (d : Nat) : (m.to d).tcus = m.tcus := by rfl
@[simp] theorem Mod.to_aat (m : Mod) (d : Nat) : (m.to d).aat = m.aat := by rfl
@[simp] theorem Mod.to_er (m : Mod) (d : Nat) : (m.to d).er = m.er := by rfl
@[simp] theorem Mod.to_ce (m : Mod) (d : Nat) : (m.to d).ce = m.ce := by rfl
@[simp] theorem Mod.to_ae (m : Mod) (d : Nat) : (m.to d).ae = m.ae := by rfl
@[simp] theorem Mod.to_tasks (m : Mod) (d : Nat) : (m.to d).tasks = m.tasks := by rfl
@[simp] theorem Mod.to_net (m : Mod) (d : Nat) : (m.to d).net = m.net := by rfl
@[simp] theorem Mod.to_plan (m : Mod) (d : Nat) : (m.to d).plan = m.plan := by rfl
@[simp] theorem Mod.to_ret (m : Mod) (d : Nat) : (m.to d).ret = m.ret := by rfl
@[simp] theorem Mod.to_tan (m : Mod) (d : Nat) : (m.to d).tan = m.tan := by rfl
@[simp] theorem Mod.to_si (m : Mod) (d : Nat) : (m.to d).si = m.si := by rfl
@[simp] theorem Mod.to_eth (m : Mod) (d : Nat) : (m.to d).eth = m.eth := by rfl
@[simp] theorem Mod.to_cans (m : Mod) (d : Nat) : (m.to d).cans = m.cans := by rfl
@[simp] theorem Mod.to_dio (m : Mod) (d : Nat) : (m.to d).dio = m.dio := by rfl
@[simp] theorem Mod.to_an (m : Mod) (d : Nat) : (m.to d).an = m.an := by rfl
@[simp] theorem Mod.to_clk (m : Mod) (d : Nat) : (m.to d).clk = m.clk := by rfl
@[simp] theorem Mod.to_sup (m : Mod) (d : Nat) : (m.to d).sup = m.sup := by rfl
@[simp] theorem Mod.to_disp (m : Mod) (d : Nat) : (m.to d).disp = m.disp := by rfl
@[simp] theorem Mod.to_cas (m : Mod) (d : Nat) : (m.to d).cas = m.cas := by rfl
@[simp] theorem Mod.to_bankA (m : Mod) (d : Nat) : (m.to d).bankA = m.bankA := by rfl
@[simp] theorem Mod.to_bankB (m : Mod) (d : Nat) : (m.to d).bankB = m.bankB := by rfl
@[simp] theorem Mod.to_onB (m : Mod) (d : Nat) : (m.to d).onB = m.onB := by rfl
@[simp] theorem Mod.to_eap (m : Mod) (d : Nat) : (m.to d).eap = m.eap := by rfl
@[simp] theorem Mod.to_boot (m : Mod) (d : Nat) : (m.to d).boot = m.boot := by rfl
@[simp] theorem Mod.to_otp (m : Mod) (d : Nat) : (m.to d).otp = m.otp := by rfl
@[simp] theorem Mod.to_cfg (m : Mod) (d : Nat) : (m.to d).cfg = m.cfg := by rfl
@[simp] theorem Mod.to_change (m : Mod) (d : Nat) : (m.to d).change = m.change := by rfl
@[simp] theorem Mod.to_rioOut (m : Mod) (d : Nat) : (m.to d).rioOut = m.rioOut := by rfl
@[simp] theorem Mod.to_btReq (m : Mod) (d : Nat) : (m.to d).btReq = m.btReq := by rfl
@[simp] theorem Mod.to_free (m : Mod) (d : Nat) : (m.to d).free = m.free + 64 := by rfl
@[simp] theorem Mod.to_out (m : Mod) (d : Nat) : (m.to d).out = m.out := by rfl
@[simp] theorem Mod.toNow_tb (m : Mod) (u : Nat) : (m.toNow u).tb = m.tb.pass (m.tb.cyclesToNow u) := by rfl
@[simp] theorem Mod.toNow_ptp (m : Mod) (u : Nat) : (m.toNow u).ptp = m.ptp := by rfl
@[simp] theorem Mod.toNow_tous (m : Mod) (u : Nat) : (m.toNow u).tous = m.tous := by rfl
@[simp] theorem Mod.toNow_tcus (m : Mod) (u : Nat) : (m.toNow u).tcus = m.tcus := by rfl
@[simp] theorem Mod.toNow_aat (m : Mod) (u : Nat) : (m.toNow u).aat = m.aat := by rfl
@[simp] theorem Mod.toNow_er (m : Mod) (u : Nat) : (m.toNow u).er = m.er := by rfl
@[simp] theorem Mod.toNow_ce (m : Mod) (u : Nat) : (m.toNow u).ce = m.ce := by rfl
@[simp] theorem Mod.toNow_ae (m : Mod) (u : Nat) : (m.toNow u).ae = m.ae := by rfl
@[simp] theorem Mod.toNow_tasks (m : Mod) (u : Nat) : (m.toNow u).tasks = m.tasks := by rfl
@[simp] theorem Mod.toNow_net (m : Mod) (u : Nat) : (m.toNow u).net = m.net := by rfl
@[simp] theorem Mod.toNow_plan (m : Mod) (u : Nat) : (m.toNow u).plan = m.plan := by rfl
@[simp] theorem Mod.toNow_ret (m : Mod) (u : Nat) : (m.toNow u).ret = m.ret := by rfl
@[simp] theorem Mod.toNow_tan (m : Mod) (u : Nat) : (m.toNow u).tan = m.tan := by rfl
@[simp] theorem Mod.toNow_si (m : Mod) (u : Nat) : (m.toNow u).si = m.si := by rfl
@[simp] theorem Mod.toNow_eth (m : Mod) (u : Nat) : (m.toNow u).eth = m.eth := by rfl
@[simp] theorem Mod.toNow_cans (m : Mod) (u : Nat) : (m.toNow u).cans = m.cans := by rfl
@[simp] theorem Mod.toNow_dio (m : Mod) (u : Nat) : (m.toNow u).dio = m.dio := by rfl
@[simp] theorem Mod.toNow_an (m : Mod) (u : Nat) : (m.toNow u).an = m.an := by rfl
@[simp] theorem Mod.toNow_clk (m : Mod) (u : Nat) : (m.toNow u).clk = m.clk := by rfl
@[simp] theorem Mod.toNow_sup (m : Mod) (u : Nat) : (m.toNow u).sup = m.sup := by rfl
@[simp] theorem Mod.toNow_disp (m : Mod) (u : Nat) : (m.toNow u).disp = m.disp := by rfl
@[simp] theorem Mod.toNow_cas (m : Mod) (u : Nat) : (m.toNow u).cas = m.cas := by rfl
@[simp] theorem Mod.toNow_bankA (m : Mod) (u : Nat) : (m.toNow u).bankA = m.bankA := by rfl
@[simp] theorem Mod.toNow_bankB (m : Mod) (u : Nat) : (m.toNow u).bankB = m.bankB := by rfl
@[simp] theorem Mod.toNow_onB (m : Mod) (u : Nat) : (m.toNow u).onB = m.onB := by rfl
@[simp] theorem Mod.toNow_eap (m : Mod) (u : Nat) : (m.toNow u).eap = m.eap := by rfl
@[simp] theorem Mod.toNow_boot (m : Mod) (u : Nat) : (m.toNow u).boot = m.boot := by rfl
@[simp] theorem Mod.toNow_otp (m : Mod) (u : Nat) : (m.toNow u).otp = m.otp := by rfl
@[simp] theorem Mod.toNow_cfg (m : Mod) (u : Nat) : (m.toNow u).cfg = m.cfg := by rfl
@[simp] theorem Mod.toNow_change (m : Mod) (u : Nat) : (m.toNow u).change = m.change := by rfl
@[simp] theorem Mod.toNow_rioOut (m : Mod) (u : Nat) : (m.toNow u).rioOut = m.rioOut := by rfl
@[simp] theorem Mod.toNow_btReq (m : Mod) (u : Nat) : (m.toNow u).btReq = m.btReq := by rfl
@[simp] theorem Mod.toNow_free (m : Mod) (u : Nat) : (m.toNow u).free = m.free + 64 := by rfl
@[simp] theorem Mod.toNow_out (m : Mod) (u : Nat) : (m.toNow u).out = m.out := by rfl
@[simp] theorem Mod.send_tb (m : Mod) (o : Out) : (m.send o).tb = m.tb := by rfl
@[simp] theorem Mod.send_ptp (m : Mod) (o : Out) : (m.send o).ptp = m.ptp := by rfl
@[simp] theorem Mod.send_tous (m : Mod) (o : Out) : (m.send o).tous = m.tous := by rfl
@[simp] theorem Mod.send_tcus (m : Mod) (o : Out) : (m.send o).tcus = m.tcus := by rfl
@[simp] theorem Mod.send_aat (m : Mod) (o : Out) : (m.send o).aat = m.aat := by rfl
@[simp] theorem Mod.send_er (m : Mod) (o : Out) : (m.send o).er = m.er := by rfl
@[simp] theorem Mod.send_pmc (m : Mod) (o : Out) : (m.send o).pmc = m.pmc := by rfl
@[simp] theorem Mod.send_ce (m : Mod) (o : Out) : (m.send o).ce = m.ce := by rfl
@[simp] theorem Mod.send_ae (m : Mod) (o : Out) : (m.send o).ae = m.ae := by rfl
@[simp] theorem Mod.send_tasks (m : Mod) (o : Out) : (m.send o).tasks = m.tasks := by rfl
@[simp] theorem Mod.send_net (m : Mod) (o : Out) : (m.send o).net = m.net := by rfl
@[simp] theorem Mod.send_plan (m : Mod) (o : Out) : (m.send o).plan = m.plan := by rfl
@[simp] theorem Mod.send_ret (m : Mod) (o : Out) : (m.send o).ret = m.ret := by rfl
@[simp] theorem Mod.send_tan (m : Mod) (o : Out) : (m.send o).tan = m.tan := by rfl
@[simp] theorem Mod.send_si (m : Mod) (o : Out) : (m.send o).si = m.si := by rfl
@[simp] theorem Mod.send_eth (m : Mod) (o : Out) : (m.send o).eth = m.eth := by rfl
@[simp] theorem Mod.send_cans (m : Mod) (o : Out) : (m.send o).cans = m.cans := by rfl
@[simp] theorem Mod.send_dio (m : Mod) (o : Out) : (m.send o).dio = m.dio := by rfl
@[simp] theorem Mod.send_an (m : Mod) (o : Out) : (m.send o).an = m.an := by rfl
@[simp] theorem Mod.send_clk (m : Mod) (o : Out) : (m.send o).clk = m.clk := by rfl
@[simp] theorem Mod.send_sup (m : Mod) (o : Out) : (m.send o).sup = m.sup := by rfl
@[simp] theorem Mod.send_bkp (m : Mod) (o : Out) : (m.send o).bkp = m.bkp := by rfl
@[simp] theorem Mod.send_disp (m : Mod) (o : Out) : (m.send o).disp = m.disp := by rfl
@[simp] theorem Mod.send_cas (m : Mod) (o : Out) : (m.send o).cas = m.cas := by rfl
@[simp] theorem Mod.send_bankA (m : Mod) (o : Out) : (m.send o).bankA = m.bankA := by rfl
@[simp] theorem Mod.send_bankB (m : Mod) (o : Out) : (m.send o).bankB = m.bankB := by rfl
@[simp] theorem Mod.send_onB (m : Mod) (o : Out) : (m.send o).onB = m.onB := by rfl
@[simp] theorem Mod.send_eap (m : Mod) (o : Out) : (m.send o).eap = m.eap := by rfl
@[simp] theorem Mod.send_boot (m : Mod) (o : Out) : (m.send o).boot = m.boot := by rfl
@[simp] theorem Mod.send_otp (m : Mod) (o : Out) : (m.send o).otp = m.otp := by rfl
@[simp] theorem Mod.send_cfg (m : Mod) (o : Out) : (m.send o).cfg = m.cfg := by rfl
@[simp] theorem Mod.send_change (m : Mod) (o : Out) : (m.send o).change = m.change := by rfl
@[simp] theorem Mod.send_rioOut (m : Mod) (o : Out) : (m.send o).rioOut = m.rioOut := by rfl
@[simp] theorem Mod.send_btReq (m : Mod) (o : Out) : (m.send o).btReq = m.btReq := by rfl
@[simp] theorem Mod.send_free (m : Mod) (o : Out) : (m.send o).free = m.free := by rfl
@[simp] theorem Mod.send_out (m : Mod) (o : Out) : (m.send o).out = o :: m.out := by rfl
@[simp] theorem Mod.logAt_tb (m : Mod) (a b c d : Nat) (p : Bytes) (t : BitVec 96) : (m.logAt a b c d p t).tb = m.tb := by rfl
@[simp] theorem Mod.logAt_ptp (m : Mod) (a b c d : Nat) (p : Bytes) (t : BitVec 96) : (m.logAt a b c d p t).ptp = m.ptp := by rfl
@[simp] theorem Mod.logAt_tous (m : Mod) (a b c d : Nat) (p : Bytes) (t : BitVec 96) : (m.logAt a b c d p t).tous = m.tous := by rfl
@[simp] theorem Mod.logAt_tcus (m : Mod) (a b c d : Nat) (p : Bytes) (t : BitVec 96) : (m.logAt a b c d p t).tcus = m.tcus := by rfl
@[simp] theorem Mod.logAt_aat (m : Mod) (a b c d : Nat) (p : Bytes) (t : BitVec 96) : (m.logAt a b c d p t).aat = m.aat := by rfl
@[simp] theorem Mod.logAt_pmc (m : Mod) (a b c d : Nat) (p : Bytes) (t : BitVec 96) : (m.logAt a b c d p t).pmc = m.pmc := by rfl
@[simp] theorem Mod.logAt_ce (m : Mod) (a b c d : Nat) (p : Bytes) (t : BitVec 96) : (m.logAt a b c d p t).ce = m.ce := by rfl
@[simp] theorem Mod.logAt_ae (m : Mod) (a b c d : Nat) (p : Bytes) (t : BitVec 96) : (m.logAt a b c d p t).ae = m.ae := by rfl
@[simp] theorem Mod.logAt_tasks (m : Mod) (a b c d : Nat) (p : Bytes) (t : BitVec 96) : (m.logAt a b c d p t).tasks = m.tasks := by rfl
@[simp] theorem Mod.logAt_net (m : Mod) (a b c d : Nat) (p : Bytes) (t : BitVec 96) : (m.logAt a b c d p t).net = m.net := by rfl
@[simp] theorem Mod.logAt_plan (m : Mod) (a b c d : Nat) (p : Bytes) (t : BitVec 96) : (m.logAt a b c d p t).plan = m.plan := by rfl
@[simp] theorem Mod.logAt_ret (m : Mod) (a b c d : Nat) (p : Bytes) (t : BitVec 96) : (m.logAt a b c d p t).ret = m.ret := by rfl
@[simp] theorem Mod.logAt_tan (m : Mod) (a b c d : Nat) (p : Bytes) (t : BitVec 96) : (m.logAt a b c d p t).tan = m.tan := by rfl
@[simp] theorem Mod.logAt_si (m : Mod) (a b c d : Nat) (p : Bytes) (t : BitVec 96) : (m.logAt a b c d p t).si = m.si := by rfl
@[simp] theorem Mod.logAt_eth (m : Mod) (a b c d : Nat) (p : Bytes) (t : BitVec 96) : (m.logAt a b c d p t).eth = m.eth := by rfl
@[simp] theorem Mod.logAt_cans (m : Mod) (a b c d : Nat) (p : Bytes) (t : BitVec 96) : (m.logAt a b c d p t).cans = m.cans := by rfl
@[simp] theorem Mod.logAt_dio (m : Mod) (a b c d : Nat) (p : Bytes) (t : BitVec 96) : (m.logAt a b c d p t).dio = m.dio := by rfl
@[simp] theorem Mod.logAt_an (m : Mod) (a b c d : Nat) (p : Bytes) (t : BitVec 96) : (m.logAt a b c d p t).an = m.an := by rfl
@[simp] theorem Mod.logAt_clk (m : Mod) (a b c d : Nat) (p : Bytes) (t : BitVec 96) : (m.logAt a b c d p t).clk = m.clk := by rfl
@[simp] theorem Mod.logAt_sup (m : Mod) (a b c d : Nat) (p : Bytes) (t : BitVec 96) : (m.logAt a b c d p t).sup = m.sup := by rfl
@[simp] theorem Mod.logAt_bkp (m : Mod) (a b c d : Nat) (p : Bytes) (t : BitVec 96) : (m.logAt a b c d p t).bkp = m.bkp := by rfl
@[simp] theorem Mod.logAt_disp (m : Mod) (a b c d : Nat) (p : Bytes) (t : BitVec 96) : (m.logAt a b c d p t).disp = m.disp := by rfl
@[simp] theorem Mod.logAt_cas (m : Mod) (a b c d : Nat) (p : Bytes) (t : BitVec 96) : (m.logAt a b c d p t).cas = m.cas := by rfl
@[simp] theorem Mod.logAt_bankA (m : Mod) (a b c d : Nat) (p : Bytes) (t : BitVec 96) : (m.logAt a b c d p t).bankA = m.bankA := by rfl
@[simp] theorem Mod.logAt_bankB (m : Mod) (a b c d : Nat) (p : Bytes) (t : BitVec 96) : (m.logAt a b c d p t).bankB = m.bankB := by rfl
@[simp] theorem Mod.logAt_onB (m : Mod) (a b c d : Nat) (p : Bytes) (t : BitVec 96) : (m.logAt a b c d p t).onB = m.onB := by rfl
@[simp] theorem Mod.logAt_eap (m : Mod) (a b c d : Nat) (p : Bytes) (t : BitVec 96) : (m.logAt a b c d p t).eap = m.eap := by rfl
@[simp] theorem Mod.logAt_boot (m : Mod) (a b c d : Nat) (p : Bytes) (t : BitVec 96) : (m.logAt a b c d p t).boot = m.boot := by rfl
@[simp] theorem Mod.logAt_otp (m : Mod) (a b c d : Nat) (p : Bytes) (t : BitVec 96) : (m.logAt a b c d p t).otp = m.otp := by rfl
@[simp] theorem Mod.logAt_cfg (m : Mod) (a b c d : Nat) (p : Bytes) (t : BitVec 96) : (m.logAt a b c d p t).cfg = m.cfg := by rfl
@[simp] theorem Mod.logAt_change (m : Mod) (a b c d : Nat) (p : Bytes) (t : BitVec 96) : (m.logAt a b c d p t).change = m.change := by rfl
@[simp] theorem Mod.logAt_rioOut (m : Mod) (a b c d : Nat) (p : Bytes) (t : BitVec 96) : (m.logAt a b c d p t).rioOut = m.rioOut := by rfl
@[simp] theorem Mod.logAt_btReq (m : Mod) (a b c d : Nat) (p : Bytes) (t : BitVec 96) : (m.logAt a b c d p t).btReq = m.btReq := by rfl
@[simp] theorem Mod.logAt_free (m : Mod) (a b c d : Nat) (p : Bytes) (t : BitVec 96) : (m.logAt a b c d p t).free = m.free := by rfl
@[simp] theorem Mod.logAt_out (m : Mod) (a b c d : Nat) (p : Bytes) (t : BitVec 96) : (m.logAt a b c d p t).out = m.out := by rfl
@[simp] theorem Mod.log_tb (m : Mod) (a b c d : Nat) (p : Bytes) : (m.log a b c d p).tb = m.tb := by rfl
@[simp] theorem Mod.log_ptp (m : Mod) (a b c d : Nat) (p : Bytes) : (m.log a b c d p).ptp = m.ptp := by rfl
@[simp] theorem Mod.log_tous (m : Mod) (a b c d : Nat) (p : Bytes) : (m.log a b c d p).tous = m.tous := by rfl
@[simp] theorem Mod.log_tcus (m : Mod) (a b c d : Nat) (p : Bytes) : (m.log a b c d p).tcus = m.tcus := by rfl
@[simp] theorem Mod.log_aat (m : Mod) (a b c d : Nat) (p : Bytes) : (m.log a b c d p).aat = m.aat := by rfl
@[simp] theorem Mod.log_pmc (m : Mod) (a b c d : Nat) (p : Bytes) : (m.log a b c d p).pmc = m.pmc := by rfl
@[simp] theorem Mod.log_ce (m : Mod) (a b c d : Nat) (p : Bytes) : (m.log a b c d p).ce = m.ce := by rfl
@[simp] theorem Mod.log_ae (m : Mod) (a b c d : Nat) (p : Bytes) : (m.log a b c d p).ae = m.ae := by rfl
@[simp] theorem Mod.log_tasks (m : Mod) (a b c d : Nat) (p : Bytes) : (m.log a b c d p).tasks = m.tasks := by rfl
@[simp] theorem Mod.log_net (m : Mod) (a b c d : Nat) (p : Bytes) : (m.log a b c d p).net = m.net := by rfl
@[simp] theorem Mod.log_plan (m : Mod) (a b c d : Nat) (p : Bytes) : (m.log a b c d p).plan = m.plan := by rfl
@[simp] theorem Mod.log_ret (m : Mod) (a b c d : Nat) (p : Bytes) : (m.log a b c d p).ret = m.ret := by rfl
@[simp] theorem Mod.log_tan (m : Mod) (a b c d : Nat) (p : Bytes) : (m.log a b c d p).tan = m.tan := by rfl
@[simp] theorem Mod.log_si (m : Mod) (a b c d : Nat) (p : Bytes) : (m.log a b c d p).si = m.si := by rfl
@[simp] theorem Mod.log_eth (m : Mod) (a b c d : Nat) (p : Bytes) : (m.log a b c d p).eth = m.eth := by rfl
@[simp] theorem Mod.log_cans (m : Mod) (a b c d : Nat) (p : Bytes) : (m.log a b c d p).cans = m.cans := by rfl
@[simp] theorem Mod.log_dio (m : Mod) (a b c d : Nat) (p : Bytes) : (m.log a b c d p).dio = m.dio := by rfl
@[simp] theorem Mod.log_an (m : Mod) (a b c d : Nat) (p : Bytes) : (m.log a b c d p).an = m.an := by rfl
@[simp] theorem Mod.log_clk (m : Mod) (a b c d : Nat) (p : Bytes) : (m.log a b c d p).clk = m.clk := by rfl
@[simp] theorem Mod.log_sup (m : Mod) (a b c d : Nat) (p : Bytes) : (m.log a b c d p).sup = m.sup := by rfl
@[simp] theorem Mod.log_bkp (m : Mod) (a b c d : Nat) (p : Bytes) : (m.log a b c d p).bkp = m.bkp := by rfl
@[simp] theorem Mod.log_disp (m : Mod) (a b c d : Nat) (p : Bytes) : (m.log a b c d p).disp = m.disp := by rfl
@[simp] theorem Mod.log_cas (m : Mod) (a b c d : Nat) (p : Bytes) : (m.log a b c d p).cas = m.cas := by rfl
@[simp] theorem Mod.log_bankA (m : Mod) (a b c d : Nat) (p : Bytes) : (m.log a b c d p).bankA = m.bankA := by rfl
@[simp] theorem Mod.log_bankB (m : Mod) (a b c d : Nat) (p : Bytes) : (m.log a b c d p).bankB = m.bankB := by rfl
@[simp] theorem Mod.log_onB (m : Mod) (a b c d : Nat) (p : Bytes) : (m.log a b c d p).onB = m.onB := by rfl
@[simp] theorem Mod.log_eap (m : Mod) (a b c d : Nat) (p : Bytes) : (m.log a b c d p).eap = m.eap := by rfl
@[simp] theorem Mod.log_boot (m : Mod) (a b c d : Nat) (p : Bytes) : (m.log a b c d p).boot = m.boot := by rfl
@[simp] theorem Mod.log_otp (m : Mod) (a b c d : Nat) (p : Bytes) : (m.log a b c d p).otp = m.otp := by rfl
@[simp] theorem Mod.log_cfg (m : Mod) (a b c d : Nat) (p : Bytes) : (m.log a b c d p).cfg = m.cfg := by rfl
@[simp] theorem Mod.log_change (m : Mod) (a b c d : Nat) (p : Bytes) : (m.log a b c d p).change = m.change := by rfl
@[simp] theorem Mod.log_rioOut (m : Mod) (a b c d : Nat) (p : Bytes) : (m.log a b c d p).rioOut = m.rioOut := by rfl
@[simp] theorem Mod.log_btReq (m : Mod) (a b c d : Nat) (p : Bytes) : (m.log a b c d p).btReq = m.btReq := by rfl
@[simp] theorem Mod.log_free (m : Mod) (a b c d : Nat) (p : Bytes) : (m.log a b c d p).free = m.free := by rfl
@[simp] theorem Mod.log_out (m : Mod) (a b c d : Nat) (p : Bytes) : (m.log a b c d p).out = m.out := by rfl
@[simp] theorem Mod.count_tb (m : Mod) (e u n : Nat) : (m.count e u n).tb = m.tb := by rfl
@[simp] theorem Mod.count_ptp (m : Mod) (e u n : Nat) : (m.count e u n).ptp = m.ptp := by rfl
@[simp] theorem Mod.count_tous (m : Mod) (e u n : Nat) : (m.count e u n).tous = m.tous := by rfl
@[simp] theorem Mod.count_tcus (m : Mod) (e u n : Nat) : (m.count e u n).tcus = m.tcus := by rfl
@[simp] theorem Mod.count_aat (m : Mod) (e u n : Nat) : (m.count e u n).aat = m.aat := by rfl
@[simp] theorem Mod.count_er (m : Mod) (e u n : Nat) : (m.count e u n).er = m.er := by rfl
@[simp] theorem Mod.count_pmc (m : Mod) (e u n : Nat) : (m.count e u n).pmc = m.pmc.count e u n := by rfl
@[simp] theorem Mod.count_ce (m : Mod) (e u n : Nat) : (m.count e u n).ce = m.ce := by rfl
@[simp] theorem Mod.count_ae (m : Mod) (e u n : Nat) : (m.count e u n).ae = m.ae := by rfl
@[simp] theorem Mod.count_tasks (m : Mod) (e u n : Nat) : (m.count e u n).tasks = m.tasks := by rfl
@[simp] theorem Mod.count_net (m : Mod) (e u n : Nat) : (m.count e u n).net = m.net := by rfl
@[simp] theorem Mod.count_plan (m : Mod) (e u n : Nat) : (m.count e u n).plan = m.plan := by rfl
@[simp] theorem Mod.count_ret (m : Mod) (e u n : Nat) : (m.count e u n).ret = m.ret := by rfl
@[simp] theorem Mod.count_tan (m : Mod) (e u n : Nat) : (m.count e u n).tan = m.tan := by rfl
@[simp] theorem Mod.count_si (m : Mod) (e u n : Nat) : (m.count e u n).si = m.si := by rfl
@[simp] theorem Mod.count_eth (m : Mod) (e u n : Nat) : (m.count e u n).eth = m.eth := by rfl
@[simp] theorem Mod.count_cans (m : Mod) (e u n : Nat) : (m.count e u n).cans = m.cans := by rfl
@[simp] theorem Mod.count_dio (m : Mod) (e u n : Nat) : (m.count e u n).dio = m.dio := by rfl
@[simp] theorem Mod.count_an (m : Mod) (e u n : Nat) : (m.count e u n).an = m.an := by rfl
@[simp] theorem Mod.count_clk (m : Mod) (e u n : Nat) : (m.count e u n).clk = m.clk := by rfl
@[simp] theorem Mod.count_sup (m : Mod) (e u n : Nat) : (m.count e u n).sup = m.sup := by rfl
@[simp] theorem Mod.count_bkp (m : Mod) (e u n : Nat) : (m.count e u n).bkp = m.bkp := by rfl
@[simp] theorem Mod.count_disp (m : Mod) (e u n : Nat) : (m.count e u n).disp = m.disp := by rfl
@[simp] theorem Mod.count_cas (m : Mod) (e u n : Nat) : (m.count e u n).cas = m.cas := by rfl
@[simp] theorem Mod.count_bankA (m : Mod) (e u n : Nat) : (m.count e u n).bankA = m.bankA := by rfl
@[simp] theorem Mod.count_bankB (m : Mod) (e u n : Nat) : (m.count e u n).bankB = m.bankB := by rfl
@[simp] theorem Mod.count_onB (m : Mod) (e u n : Nat) : (m.count e u n).onB = m.onB := by rfl
@[simp] theorem Mod.count_eap (m : Mod) (e u n : Nat) : (m.count e u n).eap = m.eap := by rfl
@[simp] theorem Mod.count_boot (m : Mod) (e u n : Nat) : (m.count e u n).boot = m.boot := by rfl
@[simp] theorem Mod.count_otp (m : Mod) (e u n : Nat) : (m.count e u n).otp = m.otp := by rfl
@[simp] theorem Mod.count_cfg (m : Mod) (e u n : Nat) : (m.count e u n).cfg = m.cfg := by rfl
@[simp] theorem Mod.count_change (m : Mod) (e u n : Nat) : (m.count e u n).change = m.change := by rfl
@[simp] theorem Mod.count_rioOut (m : Mod) (e u n : Nat) : (m.count e u n).rioOut = m.rioOut := by rfl
@[simp] theorem Mod.count_btReq (m : Mod) (e u n : Nat) : (m.count e u n).btReq = m.btReq := by rfl
@[simp] theorem Mod.count_free (m : Mod) (e u n : Nat) : (m.count e u n).free = m.free := by rfl
@[simp] theorem Mod.count_out (m : Mod) (e u n : Nat) : (m.count e u n).out = m.out := by rfl
@[simp] theorem Mod.updTask_tb (m : Mod) (i : Nat) (f : Task → Task) : (m.updTask i f).tb = m.tb := by rfl
@[simp] theorem Mod.updTask_ptp (m : Mod) (i : Nat) (f : Task → Task) : (m.updTask i f).ptp = m.ptp := by rfl
@[simp] theorem Mod.updTask_tous (m : Mod) (i : Nat) (f : Task → Task) : (m.updTask i f).tous = m.tous := by rfl
@[simp] theorem Mod.updTask_tcus (m : Mod) (i : Nat) (f : Task → Task) : (m.updTask i f).tcus = m.tcus := by rfl
@[simp] theorem Mod.updTask_aat (m : Mod) (i : Nat) (f : Task → Task) : (m.updTask i f).aat = m.aat := by rfl
@[simp] theorem Mod.updTask_er (m : Mod) (i : Nat) (f : Task → Task) : (m.updTask i f).er = m.er := by rfl
@[simp] theorem Mod.updTask_pmc (m : Mod) (i : Nat) (f : Task → Task) : (m.updTask i f).pmc = m.pmc := by rfl
@[simp] theorem Mod.updTask_ce (m : Mod) (i : Nat) (f : Task → Task) : (m.updTask i f).ce = m.ce := by rfl
@[simp] theorem Mod.updTask_ae (m : Mod) (i : Nat) (f : Task → Task) : (m.updTask i f).ae = m.ae := by rfl
@[simp] theorem Mod.updTask_tasks (m : Mod) (i : Nat) (f : Task → Task) : (m.updTask i f).tasks = upd m.tasks i f := by rfl
@[simp] theorem Mod.updTask_net (m : Mod) (i : Nat) (f : Task → Task) : (m.updTask i f).net = m.net := by rfl
@[simp] theorem Mod.updTask_plan (m : Mod) (i : Nat) (f : Task → Task) : (m.updTask i f).plan = m.plan := by rfl
@[simp] theorem Mod.updTask_ret (m : Mod) (i : Nat) (f : Task → Task) : (m.updTask i f).ret = m.ret := by rfl
@[simp] theorem Mod.updTask_tan (m : Mod) (i : Nat) (f : Task → Task) : (m.updTask i f).tan = m.tan := by rfl
@[simp] theorem Mod.updTask_si (m : Mod) (i : Nat) (f : Task → Task) : (m.updTask i f).si = m.si := by rfl
@[simp] theorem Mod.updTask_eth (m : Mod) (i : Nat) (f : Task → Task) : (m.updTask i f).eth = m.eth := by rfl
@[simp] theorem Mod.updTask_cans (m : Mod) (i : Nat) (f : Task → Task) : (m.updTask i f).cans = m.cans := by rfl
@[simp] theorem Mod.updTask_dio (m : Mod) (i : Nat) (f : Task → Task) : (m.updTask i f).dio = m.dio := by rfl
@[simp] theorem Mod.updTask_an (m : Mod) (i : Nat) (f : Task → Task) : (m.updTask i f).an = m.an := by rfl
@[simp] theorem Mod.updTask_clk (m : Mod) (i : Nat) (f : Task → Task) : (m.updTask i f).clk = m.clk := by rfl
@[simp] theorem Mod.updTask_sup (m : Mod) (i : Nat) (f : Task → Task) : (m.updTask i f).sup = m.sup := by rfl
@[simp] theorem Mod.updTask_bkp (m : Mod) (i : Nat) (f : Task → Task) : (m.updTask i f).bkp = m.bkp := by rfl
@[simp] theorem Mod.updTask_disp (m : Mod) (i : Nat) (f : Task → Task) : (m.updTask i f).disp = m.disp := by rfl
@[simp] theorem Mod.updTask_cas (m : Mod) (i : Nat) (f : Task → Task) : (m.updTask i f).cas = m.cas := by rfl
@[simp] theorem Mod.updTask_bankA (m : Mod) (i : Nat) (f : Task → Task) : (m.updTask i f).bankA = m.bankA := by rfl
@[simp] theorem Mod.updTask_bankB (m : Mod) (i : Nat) (f : Task → Task) : (m.updTask i f).bankB = m.bankB := by rfl
@[simp] theorem Mod.updTask_onB (m : Mod) (i : Nat) (f : Task → Task) : (m.updTask i f).onB = m.onB := by rfl
@[simp] theorem Mod.updTask_eap (m : Mod) (i : Nat) (f : Task → Task) : (m.updTask i f).eap = m.eap := by rfl
@[simp] theorem Mod.updTask_boot (m : Mod) (i : Nat) (f : Task → Task) : (m.updTask i f).boot = m.boot := by rfl
@[simp] theorem Mod.updTask_otp (m : Mod) (i : Nat) (f : Task → Task) : (m.updTask i f).otp = m.otp := by rfl
@[simp] theorem Mod.updTask_cfg (m : Mod) (i : Nat) (f : Task → Task) : (m.updTask i f).cfg = m.cfg := by rfl
@[simp] theorem Mod.updTask_change (m : Mod) (i : Nat) (f : Task → Task) : (m.updTask i f).change = m.change := by rfl
@[simp] theorem Mod.updTask_rioOut (m : Mod) (i : Nat) (f : Task → Task) : (m.updTask i f).rioOut = m.rioOut := by rfl
@[simp] theorem Mod.updTask_btReq (m : Mod) (i : Nat) (f : Task → Task) : (m.updTask i f).btReq = m.btReq := by rfl
@[simp] theorem Mod.updTask_free (m : Mod) (i : Nat) (f : Task → Task) : (m.updTask i f).free = m.free := by rfl
@[simp] theorem Mod.updTask_out (m : Mod) (i : Nat) (f : Task → Task) : (m.updTask i f).out = m.out := by rfl
@[simp] theorem Mod.updDio_tb (m : Mod) (i : Nat) (f : DioCh → DioCh) : (m.updDio i f).tb = m.tb := by rfl
@[simp] theorem Mod.updDio_ptp (m : Mod) (i : Nat) (f : DioCh → DioCh) : (m.updDio i f).ptp = m.ptp := by rfl
@[simp] theorem Mod.updDio_tous (m : Mod) (i : Nat) (f : DioCh → DioCh) : (m.updDio i f).tous = m.tous := by rfl
@[simp] theorem Mod.updDio_tcus (m : Mod) (i : Nat) (f : DioCh → DioCh) : (m.updDio i f).tcus = m.tcus := by rfl
@[simp] theorem Mod.updDio_aat (m : Mod) (i : Nat) (f : DioCh → DioCh) : (m.updDio i f).aat = m.aat := by rfl
@[simp] theorem Mod.updDio_er (m : Mod) (i : Nat) (f : DioCh → DioCh) : (m.updDio i f).er = m.er := by rfl
@[simp] theorem Mod.updDio_pmc (m : Mod) (i : Nat) (f : DioCh → DioCh) : (m.updDio i f).pmc = m.pmc := by rfl
@[simp] theorem Mod.updDio_ce (m : Mod) (i : Nat) (f : DioCh → DioCh) : (m.updDio i f).ce = m.ce := by rfl
@[simp] theorem Mod.updDio_ae (m : Mod) (i : Nat) (f : DioCh → DioCh) : (m.updDio i f).ae = m.ae := by rfl
@[simp] theorem Mod.updDio_tasks (m : Mod) (i : Nat) (f : DioCh → DioCh) : (m.updDio i f).tasks = m.tasks := by rfl
@[simp] theorem Mod.updDio_net (m : Mod) (i : Nat) (f : DioCh → DioCh) : (m.updDio i f).net = m.net := by rfl
@[simp] theorem Mod.updDio_plan (m : Mod) (i : Nat) (f : DioCh → DioCh) : (m.updDio i f).plan = m.plan := by rfl
@[simp] theorem Mod.updDio_ret (m : Mod) (i : Nat) (f : DioCh → DioCh) : (m.updDio i f).ret = m.ret := by rfl
@[simp] theorem Mod.updDio_tan (m : Mod) (i : Nat) (f : DioCh → DioCh) : (m.updDio i f).tan = m.tan := by rfl
@[simp] theorem Mod.updDio_si (m : Mod) (i : Nat) (f : DioCh → DioCh) : (m.updDio i f).si = m.si := by rfl
@[simp] theorem Mod.updDio_eth (m : Mod) (i : Nat) (f : DioCh → DioCh) : (m.updDio i f).eth = m.eth := by rfl
@[simp] theorem Mod.updDio_cans (m : Mod) (i : Nat) (f : DioCh → DioCh) : (m.updDio i f).cans = m.cans := by rfl
@[simp] theorem Mod.updDio_dio (m : Mod) (i : Nat) (f : DioCh → DioCh) : (m.updDio i f).dio = { m.dio with ch := upd m.dio.ch i f } := by rfl
@[simp] theorem Mod.updDio_an (m : Mod) (i : Nat) (f : DioCh → DioCh) : (m.updDio i f).an = m.an := by rfl
@[simp] theorem Mod.updDio_clk (m : Mod) (i : Nat) (f : DioCh → DioCh) : (m.updDio i f).clk = m.clk := by rfl
@[simp] theorem Mod.updDio_sup (m : Mod) (i : Nat) (f : DioCh → DioCh) : (m.updDio i f).sup = m.sup := by rfl
@[simp] theorem Mod.updDio_bkp (m : Mod) (i : Nat) (f : DioCh → DioCh) : (m.updDio i f).bkp = m.bkp := by rfl
@[simp] theorem Mod.updDio_disp (m : Mod) (i : Nat) (f : DioCh → DioCh) : (m.updDio i f).disp = m.disp := by rfl
@[simp] theorem Mod.updDio_cas (m : Mod) (i : Nat) (f : DioCh → DioCh) : (m.updDio i f).cas = m.cas := by rfl
@[simp] theorem Mod.updDio_bankA (m : Mod) (i : Nat) (f : DioCh → DioCh) : (m.updDio i f).bankA = m.bankA := by rfl
@[simp] theorem Mod.updDio_bankB (m : Mod) (i : Nat) (f : DioCh → DioCh) : (m.updDio i f).bankB = m.bankB := by rfl
@[simp] theorem Mod.updDio_onB (m : Mod) (i : Nat) (f : DioCh → DioCh) : (m.updDio i f).onB = m.onB := by rfl
@[simp] theorem Mod.updDio_eap (m : Mod) (i : Nat) (f : DioCh → DioCh) : (m.updDio i f).eap = m.eap := by rfl
@[simp] theorem Mod.updDio_boot (m : Mod) (i : Nat) (f : DioCh → DioCh) : (m.updDio i f).boot = m.boot := by rfl
@[simp] theorem Mod.updDio_otp (m : Mod) (i : Nat) (f : DioCh → DioCh) : (m.updDio i f).otp = m.otp := by rfl
@[simp] theorem Mod.updDio_cfg (m : Mod) (i : Nat) (f : DioCh → DioCh) : (m.updDio i f).cfg = m.cfg := by rfl
@[simp] theorem Mod.updDio_change (m : Mod) (i : Nat) (f : DioCh → DioCh) : (m.updDio i f).change = m.change := by rfl
@[simp] theorem Mod.updDio_rioOut (m : Mod) (i : Nat) (f : DioCh → DioCh) : (m.updDio i f).rioOut = m.rioOut := by rfl
@[simp] theorem Mod.updDio_btReq (m : Mod) (i : Nat) (f : DioCh → DioCh) : (m.updDio i f).btReq = m.btReq := by rfl
@[simp] theorem Mod.updDio_free (m : Mod) (i : Nat) (f : DioCh → DioCh) : (m.updDio i f).free = m.free := by rfl
@[simp] theorem Mod.updDio_out (m : Mod) (i : Nat) (f : DioCh → DioCh) : (m.updDio i f).out = m.out := by rfl
@[simp] theorem Mod.updPi_tb (m : Mod) (i : Nat) (f : PiCh → PiCh) : (m.updPi i f).tb = m.tb := by rfl
@[simp] theorem Mod.updPi_ptp (m : Mod) (i : Nat) (f : PiCh → PiCh) : (m.updPi i f).ptp = m.ptp := by rfl
@[simp] theorem Mod.updPi_tous (m : Mod) (i : Nat) (f : PiCh → PiCh) : (m.updPi i f).tous = m.tous := by rfl
@[simp] theorem Mod.updPi_tcus (m : Mod) (i : Nat) (f : PiCh → PiCh) : (m.updPi i f).tcus = m.tcus := by rfl
@[simp] theorem Mod.updPi_aat (m : Mod) (i : Nat) (f : PiCh → PiCh) : (m.updPi i f).aat = m.aat := by rfl
@[simp] theorem Mod.updPi_er (m : Mod) (i : Nat) (f : PiCh → PiCh) : (m.updPi i f).er = m.er := by rfl
@[simp] theorem Mod.updPi_pmc (m : Mod) (i : Nat) (f : PiCh → PiCh) : (m.updPi i f).pmc = m.pmc := by rfl
@[simp] theorem Mod.updPi_ce (m : Mod) (i : Nat) (f : PiCh → PiCh) : (m.updPi i f).ce = m.ce := by rfl
@[simp] theorem Mod.updPi_ae (m : Mod) (i : Nat) (f : PiCh → PiCh) : (m.updPi i f).ae = m.ae := by rfl
@[simp] theorem Mod.updPi_tasks (m : Mod) (i : Nat) (f : PiCh → PiCh) : (m.updPi i f).tasks = m.tasks := by rfl
@[simp] theorem Mod.updPi_net (m : Mod) (i : Nat) (f : PiCh → PiCh) : (m.updPi i f).net = m.net := by rfl
@[simp] theorem Mod.updPi_plan (m : Mod) (i : Nat) (f : PiCh → PiCh) : (m.updPi i f).plan = m.plan := by rfl
@[simp] theorem Mod.updPi_ret (m : Mod) (i : Nat) (f : PiCh → PiCh) : (m.updPi i f).ret = m.ret := by rfl
@[simp] theorem Mod.updPi_tan (m : Mod) (i : Nat) (f : PiCh → PiCh) : (m.updPi i f).tan = m.tan := by rfl
@[simp] theorem Mod.updPi_si (m : Mod) (i : Nat) (f : PiCh → PiCh) : (m.updPi i f).si = m.si := by rfl
@[simp] theorem Mod.updPi_eth (m : Mod) (i : Nat) (f : PiCh → PiCh) : (m.updPi i f).eth = m.eth := by rfl
@[simp] theorem Mod.updPi_cans (m : Mod) (i : Nat) (f : PiCh → PiCh) : (m.updPi i f).cans = m.cans := by rfl
@[simp] theorem Mod.updPi_dio (m : Mod) (i : Nat) (f : PiCh → PiCh) : (m.updPi i f).dio = { m.dio with pi := upd m.dio.pi i f } := by rfl
@[simp] theorem Mod.updPi_an (m : Mod) (i : Nat) (f : PiCh → PiCh) : (m.updPi i f).an = m.an := by rfl
@[simp] theorem Mod.updPi_clk (m : Mod) (i : Nat) (f : PiCh → PiCh) : (m.updPi i f).clk = m.clk := by rfl
@[simp] theorem Mod.updPi_sup (m : Mod) (i : Nat) (f : PiCh → PiCh) : (m.updPi i f).sup = m.sup := by rfl
@[simp] theorem Mod.updPi_bkp (m : Mod) (i : Nat) (f : PiCh → PiCh) : (m.updPi i f).bkp = m.bkp := by rfl
@[simp] theorem Mod.updPi_disp (m : Mod) (i : Nat) (f : PiCh → PiCh) : (m.updPi i f).disp = m.disp := by rfl
@[simp] theorem Mod.updPi_cas (m : Mod) (i : Nat) (f : PiCh → PiCh) : (m.updPi i f).cas = m.cas := by rfl
@[simp] theorem Mod.updPi_bankA (m : Mod) (i : Nat) (f : PiCh → PiCh) : (m.updPi i f).bankA = m.bankA := by rfl
@[simp] theorem Mod.updPi_bankB (m : Mod) (i : Nat) (f : PiCh → PiCh) : (m.updPi i f).bankB = m.bankB := by rfl
@[simp] theorem Mod.updPi_onB (m : Mod) (i : Nat) (f : PiCh → PiCh) : (m.updPi i f).onB = m.onB := by rfl
@[simp] theorem Mod.updPi_eap (m : Mod) (i : Nat) (f : PiCh → PiCh) : (m.updPi i f).eap = m.eap := by rfl
@[simp] theorem Mod.updPi_boot (m : Mod) (i : Nat) (f : PiCh → PiCh) : (m.updPi i f).boot = m.boot := by rfl
@[simp] theorem Mod.updPi_otp (m : Mod) (i : Nat) (f : PiCh → PiCh) : (m.updPi i f).otp = m.otp := by rfl
@[simp] theorem Mod.updPi_cfg (m : Mod) (i : Nat) (f : PiCh → PiCh) : (m.updPi i f).cfg = m.cfg := by rfl
@[simp] theorem Mod.updPi_change (m : Mod) (i : Nat) (f : PiCh → PiCh) : (m.updPi i f).change = m.change := by rfl
@[simp] theorem Mod.updPi_rioOut (m : Mod) (i : Nat) (f : PiCh → PiCh) : (m.updPi i f).rioOut = m.rioOut := by rfl
@[simp] theorem Mod.updPi_btReq (m : Mod) (i : Nat) (f : PiCh → PiCh) : (m.updPi i f).btReq = m.btReq := by rfl
@[simp] theorem Mod.updPi_free (m : Mod) (i : Nat) (f : PiCh → PiCh) : (m.updPi i f).free = m.free := by rfl
@[simp] theorem Mod.updPi_out (m : Mod) (i : Nat) (f : PiCh → PiCh) : (m.updPi i f).out = m.out := by rfl
@[simp] theorem Mod.updEnc_tb (m : Mod) (i : Nat) (f : EncCh → EncCh) : (m.updEnc i f).tb = m.tb := by rfl
@[simp] theorem Mod.updEnc_ptp (m : Mod) (i : Nat) (f : EncCh → EncCh) : (m.updEnc i f).ptp = m.ptp := by rfl
@[simp] theorem Mod.updEnc_tous (m : Mod) (i : Nat) (f : EncCh → EncCh) : (m.updEnc i f).tous = m.tous := by rfl
@[simp] theorem Mod.updEnc_tcus (m : Mod) (i : Nat) (f : EncCh → EncCh) : (m.updEnc i f).tcus = m.tcus := by rfl
@[simp] theorem Mod.updEnc_aat (m : Mod) (i : Nat) (f : EncCh → EncCh) : (m.updEnc i f).aat = m.aat := by rfl
@[simp] theorem Mod.updEnc_er (m : Mod) (i : Nat) (f : EncCh → EncCh) : (m.updEnc i f).er = m.er := by rfl
@[simp] theorem Mod.updEnc_pmc (m : Mod) (i : Nat) (f : EncCh → EncCh) : (m.updEnc i f).pmc = m.pmc := by rfl
@[simp] theorem Mod.updEnc_ce (m : Mod) (i : Nat) (f : EncCh → EncCh) : (m.updEnc i f).ce = m.ce := by rfl
@[simp] theorem Mod.updEnc_ae (m : Mod) (i : Nat) (f : EncCh → EncCh) : (m.updEnc i f).ae = m.ae := by rfl
@[simp] theorem Mod.updEnc_tasks (m : Mod) (i : Nat) (f : EncCh → EncCh) : (m.updEnc i f).tasks = m.tasks := by rfl
@[simp] theorem Mod.updEnc_net (m : Mod) (i : Nat) (f : EncCh → EncCh) : (m.updEnc i f).net = m.net := by rfl
@[simp] theorem Mod.updEnc_plan (m : Mod) (i : Nat) (f : EncCh → EncCh) : (m.updEnc i f).plan = m.plan := by rfl
@[simp] theorem Mod.updEnc_ret (m : Mod) (i : Nat) (f : EncCh → EncCh) : (m.updEnc i f).ret = m.ret := by rfl
@[simp] theorem Mod.updEnc_tan (m : Mod) (i : Nat) (f : EncCh → EncCh) : (m.updEnc i f).tan = m.tan := by rfl
@[simp] theorem Mod.updEnc_si (m : Mod) (i : Nat) (f : EncCh → EncCh) : (m.updEnc i f).si = m.si := by rfl
@[simp] theorem Mod.updEnc_eth (m : Mod) (i : Nat) (f : EncCh → EncCh) : (m.updEnc i f).eth = m.eth := by rfl
@[simp] theorem Mod.updEnc_cans (m : Mod) (i : Nat) (f : EncCh → EncCh) : (m.updEnc i f).cans = m.cans := by rfl
@[simp] theorem Mod.updEnc_dio (m : Mod) (i : Nat) (f : EncCh → EncCh) : (m.updEnc i f).dio = { m.dio with enc := upd m.dio.enc i f } := by rfl
@[simp] theorem Mod.updEnc_an (m : Mod) (i : Nat) (f : EncCh → EncCh) : (m.updEnc i f).an = m.an := by rfl
@[simp] theorem Mod.updEnc_clk (m : Mod) (i : Nat) (f : EncCh → EncCh) : (m.updEnc i f).clk = m.clk := by rfl
@[simp] theorem Mod.updEnc_sup (m : Mod) (i : Nat) (f : EncCh → EncCh) : (m.updEnc i f).sup = m.sup := by rfl
@[simp] theorem Mod.updEnc_bkp (m : Mod) (i : Nat) (f : EncCh → EncCh) : (m.updEnc i f).bkp = m.bkp := by rfl
@[simp] theorem Mod.updEnc_disp (m : Mod) (i : Nat) (f : EncCh → EncCh) : (m.updEnc i f).disp = m.disp := by rfl
@[simp] theorem Mod.updEnc_cas (m : Mod) (i : Nat) (f : EncCh → EncCh) : (m.updEnc i f).cas = m.cas := by rfl
@[simp] theorem Mod.updEnc_bankA (m : Mod) (i : Nat) (f : EncCh → EncCh) : (m.updEnc i f).bankA = m.bankA := by rfl
@[simp] theorem Mod.updEnc_bankB (m : Mod) (i : Nat) (f : EncCh → EncCh) : (m.updEnc i f).bankB = m.bankB := by rfl
@[simp] theorem Mod.updEnc_onB (m : Mod) (i : Nat) (f : EncCh → EncCh) : (m.updEnc i f).onB = m.onB := by rfl
@[simp] theorem Mod.updEnc_eap (m : Mod) (i : Nat) (f : EncCh → EncCh) : (m.updEnc i f).eap = m.eap := by rfl
@[simp] theorem Mod.updEnc_boot (m : Mod) (i : Nat) (f : EncCh → EncCh) : (m.updEnc i f).boot = m.boot := by rfl
@[simp] theorem Mod.updEnc_otp (m : Mod) (i : Nat) (f : EncCh → EncCh) : (m.updEnc i f).otp = m.otp := by rfl
@[simp] theorem Mod.updEnc_cfg (m : Mod) (i : Nat) (f : EncCh → EncCh) : (m.updEnc i f).cfg = m.cfg := by rfl
@[simp] theorem Mod.updEnc_change (m : Mod) (i : Nat) (f : EncCh → EncCh) : (m.updEnc i f).change = m.change := by rfl
@[simp] theorem Mod.updEnc_rioOut (m : Mod) (i : Nat) (f : EncCh → EncCh) : (m.updEnc i f).rioOut = m.rioOut := by rfl
@[simp] theorem Mod.updEnc_btReq (m : Mod) (i : Nat) (f : EncCh → EncCh) : (m.updEnc i f).btReq = m.btReq := by rfl
@[simp] theorem Mod.updEnc_free (m : Mod) (i : Nat) (f : EncCh → EncCh) : (m.updEnc i f).free = m.free := by rfl
@[simp] theorem Mod.updEnc_out (m : Mod) (i : Nat) (f : EncCh → EncCh) : (m.updEnc i f).out = m.out := by rfl
@[simp] theorem Mod.updAi_tb (m : Mod) (i : Nat) (f : AiCh → AiCh) : (m.updAi i f).tb = m.tb := by rfl
@[simp] theorem Mod.updAi_ptp (m : Mod) (i : Nat) (f : AiCh → AiCh) : (m.updAi i f).ptp = m.ptp := by rfl
@[simp] theorem Mod.updAi_tous (m : Mod) (i : Nat) (f : AiCh → AiCh) : (m.updAi i f).tous = m.tous := by rfl
@[simp] theorem Mod.updAi_tcus (m : Mod) (i : Nat) (f : AiCh → AiCh) : (m.updAi i f).tcus = m.tcus := by rfl
@[simp] theorem Mod.updAi_aat (m : Mod) (i : Nat) (f : AiCh → AiCh) : (m.updAi i f).aat = m.aat := by rfl
@[simp] theorem Mod.updAi_er (m : Mod) (i : Nat) (f : AiCh → AiCh) : (m.updAi i f).er = m.er := by rfl
@[simp] theorem Mod.updAi_pmc (m : Mod) (i : Nat) (f : AiCh → AiCh) : (m.updAi i f).pmc = m.pmc := by rfl
@[simp] theorem Mod.updAi_ce (m : Mod) (i : Nat) (f : AiCh → AiCh) : (m.updAi i f).ce = m.ce := by rfl
@[simp] theorem Mod.updAi_ae (m : Mod) (i : Nat) (f : AiCh → AiCh) : (m.updAi i f).ae = m.ae := by rfl
@[simp] theorem Mod.updAi_tasks (m : Mod) (i : Nat) (f : AiCh → AiCh) : (m.updAi i f).tasks = m.tasks := by rfl
@[simp] theorem Mod.updAi_net (m : Mod) (i : Nat) (f : AiCh → AiCh) : (m.updAi i f).net = m.net := by rfl
@[simp] theorem Mod.updAi_plan (m : Mod) (i : Nat) (f : AiCh → AiCh) : (m.updAi i f).plan = m.plan := by rfl
@[simp] theorem Mod.updAi_ret (m : Mod) (i : Nat) (f : AiCh → AiCh) : (m.updAi i f).ret = m.ret := by rfl
@[simp] theorem Mod.updAi_tan (m : Mod) (i : Nat) (f : AiCh → AiCh) : (m.updAi i f).tan = m.tan := by rfl
@[simp] theorem Mod.updAi_si (m : Mod) (i : Nat) (f : AiCh → AiCh) : (m.updAi i f).si = m.si := by rfl
@[simp] theorem Mod.updAi_eth (m : Mod) (i : Nat) (f : AiCh → AiCh) : (m.updAi i f).eth = m.eth := by rfl
@[simp] theorem Mod.updAi_cans (m : Mod) (i : Nat) (f : AiCh → AiCh) : (m.updAi i f).cans = m.cans := by rfl
@[simp] theorem Mod.updAi_dio (m : Mod) (i : Nat) (f : AiCh → AiCh) : (m.updAi i f).dio = m.dio := by rfl
@[simp] theorem Mod.updAi_an (m : Mod) (i : Nat) (f : AiCh → AiCh) : (m.updAi i f).an = { m.an with ai := upd m.an.ai i f } := by rfl
@[simp] theorem Mod.updAi_clk (m : Mod) (i : Nat) (f : AiCh → AiCh) : (m.updAi i f).clk = m.clk := by rfl
@[simp] theorem Mod.updAi_sup (m : Mod) (i : Nat) (f : AiCh → AiCh) : (m.updAi i f).sup = m.sup := by rfl
@[simp] theorem Mod.updAi_bkp (m : Mod) (i : Nat) (f : AiCh → AiCh) : (m.updAi i f).bkp = m.bkp := by rfl
@[simp] theorem Mod.updAi_disp (m : Mod) (i : Nat) (f : AiCh → AiCh) : (m.updAi i f).disp = m.disp := by rfl
@[simp] theorem Mod.updAi_cas (m : Mod) (i : Nat) (f : AiCh → AiCh) : (m.updAi i f).cas = m.cas := by rfl
@[simp] theorem Mod.updAi_bankA (m : Mod) (i : Nat) (f : AiCh → AiCh) : (m.updAi i f).bankA = m.bankA := by rfl
@[simp] theorem Mod.updAi_bankB (m : Mod) (i : Nat) (f : AiCh → AiCh) : (m.updAi i f).bankB = m.bankB := by rfl
@[simp] theorem Mod.updAi_onB (m : Mod) (i : Nat) (f : AiCh → AiCh) : (m.updAi i f).onB = m.onB := by rfl
@[simp] theorem Mod.updAi_eap (m : Mod) (i : Nat) (f : AiCh → AiCh) : (m.updAi i f).eap = m.eap := by rfl
@[simp] theorem Mod.updAi_boot (m : Mod) (i : Nat) (f : AiCh → AiCh) : (m.updAi i f).boot = m.boot := by rfl
@[simp] theorem Mod.updAi_otp (m : Mod) (i : Nat) (f : AiCh → AiCh) : (m.updAi i f).otp = m.otp := by rfl
@[simp] theorem Mod.updAi_cfg (m : Mod) (i : Nat) (f : AiCh → AiCh) : (m.updAi i f).cfg = m.cfg := by rfl
@[simp] theorem Mod.updAi_change (m : Mod) (i : Nat) (f : AiCh → AiCh) : (m.updAi i f).change = m.change := by rfl
@[simp] theorem Mod.updAi_rioOut (m : Mod) (i : Nat) (f : AiCh → AiCh) : (m.updAi i f).rioOut = m.rioOut := by rfl
@[simp] theorem Mod.updAi_btReq (m : Mod) (i : Nat) (f : AiCh → AiCh) : (m.updAi i f).btReq = m.btReq := by rfl
@[simp] theorem Mod.updAi_free (m : Mod) (i : Nat) (f : AiCh → AiCh) : (m.updAi i f).free = m.free := by rfl
@[simp] theorem Mod.updAi_out (m : Mod) (i : Nat) (f : AiCh → AiCh) : (m.updAi i f).out = m.out := by rfl
@[simp] theorem Mod.updAo_tb (m : Mod) (i : Nat) (f : AoCh → AoCh) : (m.updAo i f).tb = m.tb := by rfl
@[simp] theorem Mod.updAo_ptp (m : Mod) (i : Nat) (f : AoCh → AoCh) : (m.updAo i f).ptp = m.ptp := by rfl
@[simp] theorem Mod.updAo_tous (m : Mod) (i : Nat) (f : AoCh → AoCh) : (m.updAo i f).tous = m.tous := by rfl
@[simp] theorem Mod.updAo_tcus (m : Mod) (i : Nat) (f : AoCh → AoCh) : (m.updAo i f).tcus = m.tcus := by rfl
@[simp] theorem Mod.updAo_aat (m : Mod) (i : Nat) (f : AoCh → AoCh) : (m.updAo i f).aat = m.aat := by rfl
@[simp] theorem Mod.updAo_er (m : Mod) (i : Nat) (f : AoCh → AoCh) : (m.updAo i f).er = m.er := by rfl
@[simp] theorem Mod.updAo_pmc (m : Mod) (i : Nat) (f : AoCh → AoCh) : (m.updAo i f).pmc = m.pmc := by rfl
@[simp] theorem Mod.updAo_ce (m : Mod) (i : Nat) (f : AoCh → AoCh) : (m.updAo i f).ce = m.ce := by rfl
@[simp] theorem Mod.updAo_ae (m : Mod) (i : Nat) (f : AoCh → AoCh) : (m.updAo i f).ae = m.ae := by rfl
@[simp] theorem Mod.updAo_tasks (m : Mod) (i : Nat) (f : AoCh → AoCh) : (m.updAo i f).tasks = m.tasks := by rfl
@[simp] theorem Mod.updAo_net (m : Mod) (i : Nat) (f : AoCh → AoCh) : (m.updAo i f).net = m.net := by rfl
@[simp] theorem Mod.updAo_plan (m : Mod) (i : Nat) (f : AoCh → AoCh) : (m.updAo i f).plan = m.plan := by rfl
@[simp] theorem Mod.updAo_ret (m : Mod) (i : Nat) (f : AoCh → AoCh) : (m.updAo i f).ret = m.ret := by rfl
@[simp] theorem Mod.updAo_tan (m : Mod) (i : Nat) (f : AoCh → AoCh) : (m.updAo i f).tan = m.tan := by rfl
@[simp] theorem Mod.updAo_si (m : Mod) (i : Nat) (f : AoCh → AoCh) : (m.updAo i f).si = m.si := by rfl
@[simp] theorem Mod.updAo_eth (m : Mod) (i : Nat) (f : AoCh → AoCh) : (m.updAo i f).eth = m.eth := by rfl
@[simp] theorem Mod.updAo_cans (m : Mod) (i : Nat) (f : AoCh → AoCh) : (m.updAo i f).cans = m.cans := by rfl
@[simp] theorem Mod.updAo_dio (m : Mod) (i : Nat) (f : AoCh → AoCh) : (m.updAo i f).dio = m.dio := by rfl
@[simp] theorem Mod.updAo_an (m : Mod) (i : Nat) (f : AoCh → AoCh) : (m.updAo i f).an = { m.an with ao := upd m.an.ao i f } := by rfl
@[simp] theorem Mod.updAo_clk (m : Mod) (i : Nat) (f : AoCh → AoCh) : (m.updAo i f).clk = m.clk := by rfl
@[simp] theorem Mod.updAo_sup (m : Mod) (i : Nat) (f : AoCh → AoCh) : (m.updAo i f).sup = m.sup := by rfl
@[simp] theorem Mod.updAo_bkp (m : Mod) (i : Nat) (f : AoCh → AoCh) : (m.updAo i f).bkp = m.bkp := by rfl
@[simp] theorem Mod.updAo_disp (m : Mod) (i : Nat) (f : AoCh → AoCh) : (m.updAo i f).disp = m.disp := by rfl
@[simp] theorem Mod.updAo_cas (m : Mod) (i : Nat) (f : AoCh → AoCh) : (m.updAo i f).cas = m.cas := by rfl
@[simp] theorem Mod.updAo_bankA (m : Mod) (i : Nat) (f : AoCh → AoCh) : (m.updAo i f).bankA = m.bankA := by rfl
@[simp] theorem Mod.updAo_bankB (m : Mod) (i : Nat) (f : AoCh → AoCh) : (m.updAo i f).bankB = m.bankB := by rfl
@[simp] theorem Mod.updAo_onB (m : Mod) (i : Nat) (f : AoCh → AoCh) : (m.updAo i f).onB = m.onB := by rfl
@[simp] theorem Mod.updAo_eap (m : Mod) (i : Nat) (f : AoCh → AoCh) : (m.updAo i f).eap = m.eap := by rfl
@[simp] theorem Mod.updAo_boot (m : Mod) (i : Nat) (f : AoCh → AoCh) : (m.updAo i f).boot = m.boot := by rfl
@[simp] theorem Mod.updAo_otp (m : Mod) (i : Nat) (f : AoCh → AoCh) : (m.updAo i f).otp = m.otp := by rfl
@[simp] theorem Mod.updAo_cfg (m : Mod) (i : Nat) (f : AoCh → AoCh) : (m.updAo i f).cfg = m.cfg := by rfl
@[simp] theorem Mod.updAo_change (m : Mod) (i : Nat) (f : AoCh → AoCh) : (m.updAo i f).change = m.change := by rfl
@[simp] theorem Mod.updAo_rioOut (m : Mod) (i : Nat) (f : AoCh → AoCh) : (m.updAo i f).rioOut = m.rioOut := by rfl
@[simp] theorem Mod.updAo_btReq (m : Mod) (i : Nat) (f : AoCh → AoCh) : (m.updAo i f).btReq = m.btReq := by rfl
@[simp] theorem Mod.updAo_free (m : Mod) (i : Nat) (f : AoCh → AoCh) : (m.updAo i f).free = m.free := by rfl
@[simp] theorem Mod.updAo_out (m : Mod) (i : Nat) (f : AoCh → AoCh) : (m.updAo i f).out = m.out := by rfl
@[simp] theorem Mod.updCan_tb (m : Mod) (i : Nat) (f : Can → Can) : (m.updCan i f).tb = m.tb := by rfl
@[simp] theorem Mod.updCan_ptp (m : Mod) (i : Nat) (f : Can → Can) : (m.updCan i f).ptp = m.ptp := by rfl
@[simp] theorem Mod.updCan_tous (m : Mod) (i : Nat) (f : Can → Can) : (m.updCan i f).tous = m.tous := by rfl
@[simp] theorem Mod.updCan_tcus (m : Mod) (i : Nat) (f : Can → Can) : (m.updCan i f).tcus = m.tcus := by rfl
@[simp] theorem Mod.updCan_aat (m : Mod) (i : Nat) (f : Can → Can) : (m.updCan i f).aat = m.aat := by rfl
@[simp] theorem Mod.updCan_er (m : Mod) (i : Nat) (f : Can → Can) : (m.updCan i f).er = m.er := by rfl
@[simp] theorem Mod.updCan_pmc (m : Mod) (i : Nat) (f : Can → Can) : (m.updCan i f).pmc = m.pmc := by rfl
@[simp] theorem Mod.updCan_ce (m : Mod) (i : Nat) (f : Can → Can) : (m.updCan i f).ce = m.ce := by rfl
@[simp] theorem Mod.updCan_ae (m : Mod) (i : Nat) (f : Can → Can) : (m.updCan i f).ae = m.ae := by rfl
@[simp] theorem Mod.updCan_tasks (m : Mod) (i : Nat) (f : Can → Can) : (m.updCan i f).tasks = m.tasks := by rfl
@[simp] theorem Mod.updCan_net (m : Mod) (i : Nat) (f : Can → Can) : (m.updCan i f).net = m.net := by rfl
@[simp] theorem Mod.updCan_plan (m : Mod) (i : Nat) (f : Can → Can) : (m.updCan i f).plan = m.plan := by rfl
@[simp] theorem Mod.updCan_ret (m : Mod) (i : Nat) (f : Can → Can) : (m.updCan i f).ret = m.ret := by rfl
@[simp] theorem Mod.updCan_tan (m : Mod) (i : Nat) (f : Can → Can) : (m.updCan i f).tan = m.tan := by rfl
@[simp] theorem Mod.updCan_si (m : Mod) (i : Nat) (f : Can → Can) : (m.updCan i f).si = m.si := by rfl
@[simp] theorem Mod.updCan_eth (m : Mod) (i : Nat) (f : Can → Can) : (m.updCan i f).eth = m.eth := by rfl
@[simp] theorem Mod.updCan_cans (m : Mod) (i : Nat) (f : Can → Can) : (m.updCan i f).cans = upd m.cans i f := by rfl
@[simp] theorem Mod.updCan_dio (m : Mod) (i : Nat) (f : Can → Can) : (m.updCan i f).dio = m.dio := by rfl
@[simp] theorem Mod.updCan_an (m : Mod) (i : Nat) (f : Can → Can) : (m.updCan i f).an = m.an := by rfl
@[simp] theorem Mod.updCan_clk (m : Mod) (i : Nat) (f : Can → Can) : (m.updCan i f).clk = m.clk := by rfl
@[simp] theorem Mod.updCan_sup (m : Mod) (i : Nat) (f : Can → Can) : (m.updCan i f).sup = m.sup := by rfl
@[simp] theorem Mod.updCan_bkp (m : Mod) (i : Nat) (f : Can → Can) : (m.updCan i f).bkp = m.bkp := by rfl
@[simp] theorem Mod.updCan_disp (m : Mod) (i : Nat) (f : Can → Can) : (m.updCan i f).disp = m.disp := by rfl
@[simp] theorem Mod.updCan_cas (m : Mod) (i : Nat) (f : Can → Can) : (m.updCan i f).cas = m.cas := by rfl
@[simp] theorem Mod.updCan_bankA (m : Mod) (i : Nat) (f : Can → Can) : (m.updCan i f).bankA = m.bankA := by rfl
@[simp] theorem Mod.updCan_bankB (m : Mod) (i : Nat) (f : Can → Can) : (m.updCan i f).bankB = m.bankB := by rfl
@[simp] theorem Mod.updCan_onB (m : Mod) (i : Nat) (f : Can → Can) : (m.updCan i f).onB = m.onB := by rfl
@[simp] theorem Mod.updCan_eap (m : Mod) (i : Nat) (f : Can → Can) : (m.updCan i f).eap = m.eap := by rfl
@[simp] theorem Mod.updCan_boot (m : Mod) (i : Nat) (f : Can → Can) : (m.updCan i f).boot = m.boot := by rfl
@[simp] theorem Mod.updCan_otp (m : Mod) (i : Nat) (f : Can → Can) : (m.updCan i f).otp = m.otp := by rfl
@[simp] theorem Mod.updCan_cfg (m : Mod) (i : Nat) (f : Can → Can) : (m.updCan i f).cfg = m.cfg := by rfl
@[simp] theorem Mod.updCan_change (m : Mod) (i : Nat) (f : Can → Can) : (m.updCan i f).change = m.change := by rfl
@[simp] theorem Mod.updCan_rioOut (m : Mod) (i : Nat) (f : Can → Can) : (m.updCan i f).rioOut = m.rioOut := by rfl
@[simp] theorem Mod.updCan_btReq (m : Mod) (i : Nat) (f : Can → Can) : (m.updCan i f).btReq = m.btReq := by rfl
@[simp] theorem Mod.updCan_free (m : Mod) (i : Nat) (f : Can → Can) : (m.updCan i f).free = m.free := by rfl
@[simp] theorem Mod.updCan_out (m : Mod) (i : Nat) (f : Can → Can) : (m.updCan i f).out = m.out := by rfl
@[simp] theorem Mod.updTou_tb (m : Mod) (i : Nat) (f : Tou → Tou) : (m.updTou i f).tb = m.tb := by rfl
@[simp] theorem Mod.updTou_ptp (m : Mod) (i : Nat) (f : Tou → Tou) : (m.updTou i f).ptp = m.ptp := by rfl
@[simp] theorem Mod.updTou_tous (m : Mod) (i : Nat) (f : Tou → Tou) : (m.updTou i f).tous = upd m.tous i f := by rfl
@[simp] theorem Mod.updTou_tcus (m : Mod) (i : Nat) (f : Tou → Tou) : (m.updTou i f).tcus = m.tcus := by rfl
@[simp] theorem Mod.updTou_aat (m : Mod) (i : Nat) (f : Tou → Tou) : (m.updTou i f).aat = m.aat := by rfl
@[simp] theorem Mod.updTou_er (m : Mod) (i : Nat) (f : Tou → Tou) : (m.updTou i f).er = m.er := by rfl
@[simp] theorem Mod.updTou_pmc (m : Mod) (i : Nat) (f : Tou → Tou) : (m.updTou i f).pmc = m.pmc := by rfl
@[simp] theorem Mod.updTou_ce (m : Mod) (i : Nat) (f : Tou → Tou) : (m.updTou i f).ce = m.ce := by rfl
@[simp] theorem Mod.updTou_ae (m : Mod) (i : Nat) (f : Tou → Tou) : (m.updTou i f).ae = m.ae := by rfl
@[simp] theorem Mod.updTou_tasks (m : Mod) (i : Nat) (f : Tou → Tou) : (m.updTou i f).tasks = m.tasks := by rfl
@[simp] theorem Mod.updTou_net (m : Mod) (i : Nat) (f : Tou → Tou) : (m.updTou i f).net = m.net := by rfl
@[simp] theorem Mod.updTou_plan (m : Mod) (i : Nat) (f : Tou → Tou) : (m.updTou i f).plan = m.plan := by rfl
@[simp] theorem Mod.updTou_ret (m : Mod) (i : Nat) (f : Tou → Tou) : (m.updTou i f).ret = m.ret := by rfl
@[simp] theorem Mod.updTou_tan (m : Mod) (i : Nat) (f : Tou → Tou) : (m.updTou i f).tan = m.tan := by rfl
@[simp] theorem Mod.updTou_si (m : Mod) (i : Nat) (f : Tou → Tou) : (m.updTou i f).si = m.si := by rfl
@[simp] theorem Mod.updTou_eth (m : Mod) (i : Nat) (f : Tou → Tou) : (m.updTou i f).eth = m.eth := by rfl
@[simp] theorem Mod.updTou_cans (m : Mod) (i : Nat) (f : Tou → Tou) : (m.updTou i f).cans = m.cans := by rfl
@[simp] theorem Mod.updTou_dio (m : Mod) (i : Nat) (f : Tou → Tou) : (m.updTou i f).dio = m.dio := by rfl
@[simp] theorem Mod.updTou_an (m : Mod) (i : Nat) (f : Tou → Tou) : (m.updTou i f).an = m.an := by rfl
@[simp] theorem Mod.updTou_clk (m : Mod) (i : Nat) (f : Tou → Tou) : (m.updTou i f).clk = m.clk := by rfl
@[simp] theorem Mod.updTou_sup (m : Mod) (i : Nat) (f : Tou → Tou) : (m.updTou i f).sup = m.sup := by rfl
@[simp] theorem Mod.updTou_bkp (m : Mod) (i : Nat) (f : Tou → Tou) : (m.updTou i f).bkp = m.bkp := by rfl
@[simp] theorem Mod.updTou_disp (m : Mod) (i : Nat) (f : Tou → Tou) : (m.updTou i f).disp = m.disp := by rfl
@[simp] theorem Mod.updTou_cas (m : Mod) (i : Nat) (f : Tou → Tou) : (m.updTou i f).cas = m.cas := by rfl
@[simp] theorem Mod.updTou_bankA (m : Mod) (i : Nat) (f : Tou → Tou) : (m.updTou i f).bankA = m.bankA := by rfl
@[simp] theorem Mod.updTou_bankB (m : Mod) (i : Nat) (f : Tou → Tou) : (m.updTou i f).bankB = m.bankB := by rfl
@[simp] theorem Mod.updTou_onB (m : Mod) (i : Nat) (f : Tou → Tou) : (m.updTou i f).onB = m.onB := by rfl
@[simp] theorem Mod.updTou_eap (m : Mod) (i : Nat) (f : Tou → Tou) : (m.updTou i f).eap = m.eap := by rfl
@[simp] theorem Mod.updTou_boot (m : Mod) (i : Nat) (f : Tou → Tou) : (m.updTou i f).boot = m.boot := by rfl
@[simp] theorem Mod.updTou_otp (m : Mod) (i : Nat) (f : Tou → Tou) : (m.updTou i f).otp = m.otp := by rfl
@[simp] theorem Mod.updTou_cfg (m : Mod) (i : Nat) (f : Tou → Tou) : (m.updTou i f).cfg = m.cfg := by rfl
@[simp] theorem Mod.updTou_change (m : Mod) (i : Nat) (f : Tou → Tou) : (m.updTou i f).change = m.change := by rfl
@[simp] theorem Mod.updTou_rioOut (m : Mod) (i : Nat) (f : Tou → Tou) : (m.updTou i f).rioOut = m.rioOut := by rfl
@[simp] theorem Mod.updTou_btReq (m : Mod) (i : Nat) (f : Tou → Tou) : (m.updTou i f).btReq = m.btReq := by rfl
@[simp] theorem Mod.updTou_free (m : Mod) (i : Nat) (f : Tou → Tou) : (m.updTou i f).free = m.free := by rfl
@[simp] theorem Mod.updTou_out (m : Mod) (i : Nat) (f : Tou → Tou) : (m.updTou i f).out = m.out := by rfl
@[simp] theorem Mod.updTcu_tb (m : Mod) (i : Nat) (f : Tcu → Tcu) : (m.updTcu i f).tb = m.tb := by rfl
@[simp] theorem Mod.updTcu_ptp (m : Mod) (i : Nat) (f : Tcu → Tcu) : (m.updTcu i f).ptp = m.ptp := by rfl
@[simp] theorem Mod.updTcu_tous (m : Mod) (i : Nat) (f : Tcu → Tcu) : (m.updTcu i f).tous = m.tous := by rfl
@[simp] theorem Mod.updTcu_tcus (m : Mod) (i : Nat) (f : Tcu → Tcu) : (m.updTcu i f).tcus = upd m.tcus i f := by rfl
@[simp] theorem Mod.updTcu_aat (m : Mod) (i : Nat) (f : Tcu → Tcu) : (m.updTcu i f).aat = m.aat := by rfl
@[simp] theorem Mod.updTcu_er (m : Mod) (i : Nat) (f : Tcu → Tcu) : (m.updTcu i f).er = m.er := by rfl
@[simp] theorem Mod.updTcu_pmc (m : Mod) (i : Nat) (f : Tcu → Tcu) : (m.updTcu i f).pmc = m.pmc := by rfl
@[simp] theorem Mod.updTcu_ce (m : Mod) (i : Nat) (f : Tcu → Tcu) : (m.updTcu i f).ce = m.ce := by rfl
@[simp] theorem Mod.updTcu_ae (m : Mod) (i : Nat) (f : Tcu → Tcu) : (m.updTcu i f).ae = m.ae := by rfl
@[simp] theorem Mod.updTcu_tasks (m : Mod) (i : Nat) (f : Tcu → Tcu) : (m.updTcu i f).tasks = m.tasks := by rfl
@[simp] theorem Mod.updTcu_net (m : Mod) (i : Nat) (f : Tcu → Tcu) : (m.updTcu i f).net = m.net := by rfl
@[simp] theorem Mod.updTcu_plan (m : Mod) (i : Nat) (f : Tcu → Tcu) : (m.updTcu i f).plan = m.plan := by rfl
@[simp] theorem Mod.updTcu_ret (m : Mod) (i : Nat) (f : Tcu → Tcu) : (m.updTcu i f).ret = m.ret := by rfl
@[simp] theorem Mod.updTcu_tan (m : Mod) (i : Nat) (f : Tcu → Tcu) : (m.updTcu i f).tan = m.tan := by rfl
@[simp] theorem Mod.updTcu_si (m : Mod) (i : Nat) (f : Tcu → Tcu) : (m.updTcu i f).si = m.si := by rfl
@[simp] theorem Mod.updTcu_eth (m : Mod) (i : Nat) (f : Tcu → Tcu) : (m.updTcu i f).eth = m.eth := by rfl
@[simp] theorem Mod.updTcu_cans (m : Mod) (i : Nat) (f : Tcu → Tcu) : (m.updTcu i f).cans = m.cans := by rfl
@[simp] theorem Mod.updTcu_dio (m : Mod) (i : Nat) (f : Tcu → Tcu) : (m.updTcu i f).dio = m.dio := by rfl
@[simp] theorem Mod.updTcu_an (m : Mod) (i : Nat) (f : Tcu → Tcu) : (m.updTcu i f).an = m.an := by rfl
@[simp] theorem Mod.updTcu_clk (m : Mod) (i : Nat) (f : Tcu → Tcu) : (m.updTcu i f).clk = m.clk := by rfl
@[simp] theorem Mod.updTcu_sup (m : Mod) (i : Nat) (f : Tcu → Tcu) : (m.updTcu i f).sup = m.sup := by rfl
@[simp] theorem Mod.updTcu_bkp (m : Mod) (i : Nat) (f : Tcu → Tcu) : (m.updTcu i f).bkp = m.bkp := by rfl
@[simp] theorem Mod.updTcu_disp (m : Mod) (i : Nat) (f : Tcu → Tcu) : (m.updTcu i f).disp = m.disp := by rfl
@[simp] theorem Mod.updTcu_cas (m : Mod) (i : Nat) (f : Tcu → Tcu) : (m.updTcu i f).cas = m.cas := by rfl
@[simp] theorem Mod.updTcu_bankA (m : Mod) (i : Nat) (f : Tcu → Tcu) : (m.updTcu i f).bankA = m.bankA := by rfl
@[simp] theorem Mod.updTcu_bankB (m : Mod) (i : Nat) (f : Tcu → Tcu) : (m.updTcu i f).bankB = m.bankB := by rfl
@[simp] theorem Mod.updTcu_onB (m : Mod) (i : Nat) (f : Tcu → Tcu) : (m.updTcu i f).onB = m.onB := by rfl
@[simp] theorem Mod.updTcu_eap (m : Mod) (i : Nat) (f : Tcu → Tcu) : (m.updTcu i f).eap = m.eap := by rfl
@[simp] theorem Mod.updTcu_boot (m : Mod) (i : Nat) (f : Tcu → Tcu) : (m.updTcu i f).boot = m.boot := by rfl
@[simp] theorem Mod.updTcu_otp (m : Mod) (i : Nat) (f : Tcu → Tcu) : (m.updTcu i f).otp = m.otp := by rfl
@[simp] theorem Mod.updTcu_cfg (m : Mod) (i : Nat) (f : Tcu → Tcu) : (m.updTcu i f).cfg = m.cfg := by rfl
@[simp] theorem Mod.updTcu_change (m : Mod) (i : Nat) (f : Tcu → Tcu) : (m.updTcu i f).change = m.change := by rfl
@[simp] theorem Mod.updTcu_rioOut (m : Mod) (i : Nat) (f : Tcu → Tcu) : (m.updTcu i f).rioOut = m.rioOut := by rfl
@[simp] theorem Mod.updTcu_btReq (m : Mod) (i : Nat) (f : Tcu → Tcu) : (m.updTcu i f).btReq = m.btReq := by rfl
@[simp] theorem Mod.updTcu_free (m : Mod) (i : Nat) (f : Tcu → Tcu) : (m.updTcu i f).free = m.free := by rfl
@[simp] theorem Mod.updTcu_out (m : Mod) (i : Nat) (f : Tcu → Tcu) : (m.updTcu i f).out = m.out := by rfl
@[simp] theorem Mod.updTan_tb (m : Mod) (f : Tandem → Tandem) : (m.updTan f).tb = m.tb := by rfl
@[simp] theorem Mod.updTan_ptp (m : Mod) (f : Tandem → Tandem) : (m.updTan f).ptp = m.ptp := by rfl
@[simp] theorem Mod.updTan_tous (m : Mod) (f : Tandem → Tandem) : (m.updTan f).tous = m.tous := by rfl
@[simp] theorem Mod.updTan_tcus (m : Mod) (f : Tandem → Tandem) : (m.updTan f).tcus = m.tcus := by rfl
@[simp] theorem Mod.updTan_aat (m : Mod) (f : Tandem → Tandem) : (m.updTan f).aat = m.aat := by rfl
@[simp] theorem Mod.updTan_er (m : Mod) (f : Tandem → Tandem) : (m.updTan f).er = m.er := by rfl
@[simp] theorem Mod.updTan_pmc (m : Mod) (f : Tandem → Tandem) : (m.updTan f).pmc = m.pmc := by rfl
@[simp] theorem Mod.updTan_ce (m : Mod) (f : Tandem → Tandem) : (m.updTan f).ce = m.ce := by rfl
@[simp] theorem Mod.updTan_ae (m : Mod) (f : Tandem → Tandem) : (m.updTan f).ae = m.ae := by rfl
@[simp] theorem Mod.updTan_tasks (m : Mod) (f : Tandem → Tandem) : (m.updTan f).tasks = m.tasks := by rfl
@[simp] theorem Mod.updTan_net (m : Mod) (f : Tandem → Tandem) : (m.updTan f).net = m.net := by rfl
@[simp] theorem Mod.updTan_plan (m : Mod) (f : Tandem → Tandem) : (m.updTan f).plan = m.plan := by rfl
@[simp] theorem Mod.updTan_ret (m : Mod) (f : Tandem → Tandem) : (m.updTan f).ret = m.ret := by rfl
@[simp] theorem Mod.updTan_tan (m : Mod) (f : Tandem → Tandem) : (m.updTan f).tan = f m.tan := by rfl
@[simp] theorem Mod.updTan_si (m : Mod) (f : Tandem → Tandem) : (m.updTan f).si = m.si := by rfl
@[simp] theorem Mod.updTan_eth (m : Mod) (f : Tandem → Tandem) : (m.updTan f).eth = m.eth := by rfl
@[simp] theorem Mod.updTan_cans (m : Mod) (f : Tandem → Tandem) : (m.updTan f).cans = m.cans := by rfl
@[simp] theorem Mod.updTan_dio (m : Mod) (f : Tandem → Tandem) : (m.updTan f).dio = m.dio := by rfl
@[simp] theorem Mod.updTan_an (m : Mod) (f : Tandem → Tandem) : (m.updTan f).an = m.an := by rfl
@[simp] theorem Mod.updTan_clk (m : Mod) (f : Tandem → Tandem) : (m.updTan f).clk = m.clk := by rfl
@[simp] theorem Mod.updTan_sup (m : Mod) (f : Tandem → Tandem) : (m.updTan f).sup = m.sup := by rfl
@[simp] theorem Mod.updTan_bkp (m : Mod) (f : Tandem → Tandem) : (m.updTan f).bkp = m.bkp := by rfl
@[simp] theorem Mod.updTan_disp (m : Mod) (f : Tandem → Tandem) : (m.updTan f).disp = m.disp := by rfl
@[simp] theorem Mod.updTan_cas (m : Mod) (f : Tandem → Tandem) : (m.updTan f).cas = m.cas := by rfl
@[simp] theorem Mod.updTan_bankA (m : Mod) (f : Tandem → Tandem) : (m.updTan f).bankA = m.bankA := by rfl
@[simp] theorem Mod.updTan_bankB (m : Mod) (f : Tandem → Tandem) : (m.updTan f).bankB = m.bankB := by rfl
@[simp] theorem Mod.updTan_onB (m : Mod) (f : Tandem → Tandem) : (m.updTan f).onB = m.onB := by rfl
@[simp] theorem Mod.updTan_eap (m : Mod) (f : Tandem → Tandem) : (m.updTan f).eap = m.eap := by rfl
@[simp] theorem Mod.updTan_boot (m : Mod) (f : Tandem → Tandem) : (m.updTan f).boot = m.boot := by rfl
@[simp] theorem Mod.updTan_otp (m : Mod) (f : Tandem → Tandem) : (m.updTan f).otp = m.otp := by rfl
@[simp] theorem Mod.updTan_cfg (m : Mod) (f : Tandem → Tandem) : (m.updTan f).cfg = m.cfg := by rfl
@[simp] theorem Mod.updTan_change (m : Mod) (f : Tandem → Tandem) : (m.updTan f).change = m.change := by rfl
@[simp] theorem Mod.updTan_rioOut (m : Mod) (f : Tandem → Tandem) : (m.updTan f).rioOut = m.rioOut := by rfl
@[simp] theorem Mod.updTan_btReq (m : Mod) (f : Tandem → Tandem) : (m.updTan f).btReq = m.btReq := by rfl
@[simp] theorem Mod.updTan_free (m : Mod) (f : Tandem → Tandem) : (m.updTan f).free = m.free := by rfl
@[simp] theorem Mod.updTan_out (m : Mod) (f : Tandem → Tandem) : (m.updTan f).out = m.out := by rfl
@[simp] theorem Mod.updIlk_tb (m : Mod) (f : Ilk → Ilk) : (m.updIlk f).tb = m.tb := by rfl
@[simp] theorem Mod.updIlk_ptp (m : Mod) (f : Ilk → Ilk) : (m.updIlk f).ptp = m.ptp := by rfl
@[simp] theorem Mod.updIlk_tous (m : Mod) (f : Ilk → Ilk) : (m.updIlk f).tous = m.tous := by rfl
@[simp] theorem Mod.updIlk_tcus (m : Mod) (f : Ilk → Ilk) : (m.updIlk f).tcus = m.tcus := by rfl
@[simp] theorem Mod.updIlk_aat (m : Mod) (f : Ilk → Ilk) : (m.updIlk f).aat = m.aat := by rfl
@[simp] theorem Mod.updIlk_er (m : Mod) (f : Ilk → Ilk) : (m.updIlk f).er = m.er := by rfl
@[simp] theorem Mod.updIlk_pmc (m : Mod) (f : Ilk → Ilk) : (m.updIlk f).pmc = m.pmc := by rfl
@[simp] theorem Mod.updIlk_ce (m : Mod) (f : Ilk → Ilk) : (m.updIlk f).ce = m.ce := by rfl
@[simp] theorem Mod.updIlk_ae (m : Mod) (f : Ilk → Ilk) : (m.updIlk f).ae = m.ae := by rfl
@[simp] theorem Mod.updIlk_tasks (m : Mod) (f : Ilk → Ilk) : (m.updIlk f).tasks = m.tasks := by rfl
@[simp] theorem Mod.updIlk_net (m : Mod) (f : Ilk → Ilk) : (m.updIlk f).net = m.net := by rfl
@[simp] theorem Mod.updIlk_plan (m : Mod) (f : Ilk → Ilk) : (m.updIlk f).plan = m.plan := by rfl
@[simp] theorem Mod.updIlk_ret (m : Mod) (f : Ilk → Ilk) : (m.updIlk f).ret = m.ret := by rfl
@[simp] theorem Mod.updIlk_tan (m : Mod) (f : Ilk → Ilk) : (m.updIlk f).tan = { m.tan with ilk := f m.tan.ilk } := by rfl
@[simp] theorem Mod.updIlk_si (m : Mod) (f : Ilk → Ilk) : (m.updIlk f).si = m.si := by rfl
@[simp] theorem Mod.updIlk_eth (m : Mod) (f : Ilk → Ilk) : (m.updIlk f).eth = m.eth := by rfl
@[simp] theorem Mod.updIlk_cans (m : Mod) (f : Ilk → Ilk) : (m.updIlk f).cans = m.cans := by rfl
@[simp] theorem Mod.updIlk_dio (m : Mod) (f : Ilk → Ilk) : (m.updIlk f).dio = m.dio := by rfl
@[simp] theorem Mod.updIlk_an (m : Mod) (f : Ilk → Ilk) : (m.updIlk f).an = m.an := by rfl
@[simp] theorem Mod.updIlk_clk (m : Mod) (f : Ilk → Ilk) : (m.updIlk f).clk = m.clk := by rfl
@[simp] theorem Mod.updIlk_sup (m : Mod) (f : Ilk → Ilk) : (m.updIlk f).sup = m.sup := by rfl
@[simp] theorem Mod.updIlk_bkp (m : Mod) (f : Ilk → Ilk) : (m.updIlk f).bkp = m.bkp := by rfl
@[simp] theorem Mod.updIlk_disp (m : Mod) (f : Ilk → Ilk) : (m.updIlk f).disp = m.disp := by rfl
@[simp] theorem Mod.updIlk_cas (m : Mod) (f : Ilk → Ilk) : (m.updIlk f).cas = m.cas := by rfl
@[simp] theorem Mod.updIlk_bankA (m : Mod) (f : Ilk → Ilk) : (m.updIlk f).bankA = m.bankA := by rfl
@[simp] theorem Mod.updIlk_bankB (m : Mod) (f : Ilk → Ilk) : (m.updIlk f).bankB = m.bankB := by rfl
@[simp] theorem Mod.updIlk_onB (m : Mod) (f : Ilk → Ilk) : (m.updIlk f).onB = m.onB := by rfl
@[simp] theorem Mod.updIlk_eap (m : Mod) (f : Ilk → Ilk) : (m.updIlk f).eap = m.eap := by rfl
@[simp] theorem Mod.updIlk_boot (m : Mod) (f : Ilk → Ilk) : (m.updIlk f).boot = m.boot := by rfl
@[simp] theorem Mod.updIlk_otp (m : Mod) (f : Ilk → Ilk) : (m.updIlk f).otp = m.otp := by rfl
@[simp] theorem Mod.updIlk_cfg (m : Mod) (f : Ilk → Ilk) : (m.updIlk f).cfg = m.cfg := by rfl
@[simp] theorem Mod.updIlk_change (m : Mod) (f : Ilk → Ilk) : (m.updIlk f).change = m.change := by rfl
@[simp] theorem Mod.updIlk_rioOut (m : Mod) (f : Ilk → Ilk) : (m.updIlk f).rioOut = m.rioOut := by rfl
@[simp] theorem Mod.updIlk_btReq (m : Mod) (f : Ilk → Ilk) : (m.updIlk f).btReq = m.btReq := by rfl
@[simp] theorem Mod.updIlk_free (m : Mod) (f : Ilk → Ilk) : (m.updIlk f).free = m.free := by rfl
@[simp] theorem Mod.updIlk_out (m : Mod) (f : Ilk → Ilk) : (m.updIlk f).out = m.out := by rfl
@[simp] theorem Mod.updFo_tb (m : Mod) (i : Nat) (f : Fo → Fo) : (m.updFo i f).tb = m.tb := by rfl
@[simp] theorem Mod.updFo_ptp (m : Mod) (i : Nat) (f : Fo → Fo) : (m.updFo i f).ptp = m.ptp := by rfl
@[simp] theorem Mod.updFo_tous (m : Mod) (i : Nat) (f : Fo → Fo) : (m.updFo i f).tous = m.tous := by rfl
@[simp] theorem Mod.updFo_tcus (m : Mod) (i : Nat) (f : Fo → Fo) : (m.updFo i f).tcus = m.tcus := by rfl
@[simp] theorem Mod.updFo_aat (m : Mod) (i : Nat) (f : Fo → Fo) : (m.updFo i f).aat = m.aat := by rfl
@[simp] theorem Mod.updFo_er (m : Mod) (i : Nat) (f : Fo → Fo) : (m.updFo i f).er = m.er := by rfl
@[simp] theorem Mod.updFo_pmc (m : Mod) (i : Nat) (f : Fo → Fo) : (m.updFo i f).pmc = m.pmc := by rfl
@[simp] theorem Mod.updFo_ce (m : Mod) (i : Nat) (f : Fo → Fo) : (m.updFo i f).ce = m.ce := by rfl
@[simp] theorem Mod.updFo_ae (m : Mod) (i : Nat) (f : Fo → Fo) : (m.updFo i f).ae = { m.ae with fos := upd m.ae.fos i f } := by rfl
@[simp] theorem Mod.updFo_tasks (m : Mod) (i : Nat) (f : Fo → Fo) : (m.updFo i f).tasks = m.tasks := by rfl
@[simp] theorem Mod.updFo_net (m : Mod) (i : Nat) (f : Fo → Fo) : (m.updFo i f).net = m.net := by rfl
@[simp] theorem Mod.updFo_plan (m : Mod) (i : Nat) (f : Fo → Fo) : (m.updFo i f).plan = m.plan := by rfl
@[simp] theorem Mod.updFo_ret (m : Mod) (i : Nat) (f : Fo → Fo) : (m.updFo i f).ret = m.ret := by rfl
@[simp] theorem Mod.updFo_tan (m : Mod) (i : Nat) (f : Fo → Fo) : (m.updFo i f).tan = m.tan := by rfl
@[simp] theorem Mod.updFo_si (m : Mod) (i : Nat) (f : Fo → Fo) : (m.updFo i f).si = m.si := by rfl
@[simp] theorem Mod.updFo_eth (m : Mod) (i : Nat) (f : Fo → Fo) : (m.updFo i f).eth = m.eth := by rfl
@[simp] theorem Mod.updFo_cans (m : Mod) (i : Nat) (f : Fo → Fo) : (m.updFo i f).cans = m.cans := by rfl
@[simp] theorem Mod.updFo_dio (m : Mod) (i : Nat) (f : Fo → Fo) : (m.updFo i f).dio = m.dio := by rfl
@[simp] theorem Mod.updFo_an (m : Mod) (i : Nat) (f : Fo → Fo) : (m.updFo i f).an = m.an := by rfl
@[simp] theorem Mod.updFo_clk (m : Mod) (i : Nat) (f : Fo → Fo) : (m.updFo i f).clk = m.clk := by rfl
@[simp] theorem Mod.updFo_sup (m : Mod) (i : Nat) (f : Fo → Fo) : (m.updFo i f).sup = m.sup := by rfl
@[simp] theorem Mod.updFo_bkp (m : Mod) (i : Nat) (f : Fo → Fo) : (m.updFo i f).bkp = m.bkp := by rfl
@[simp] theorem Mod.updFo_disp (m : Mod) (i : Nat) (f : Fo → Fo) : (m.updFo i f).disp = m.disp := by rfl
@[simp] theorem Mod.updFo_cas (m : Mod) (i : Nat) (f : Fo → Fo) : (m.updFo i f).cas = m.cas := by rfl
@[simp] theorem Mod.updFo_bankA (m : Mod) (i : Nat) (f : Fo → Fo) : (m.updFo i f).bankA = m.bankA := by rfl
@[simp] theorem Mod.updFo_bankB (m : Mod) (i : Nat) (f : Fo → Fo) : (m.updFo i f).bankB = m.bankB := by rfl
@[simp] theorem Mod.updFo_onB (m : Mod) (i : Nat) (f : Fo → Fo) : (m.updFo i f).onB = m.onB := by rfl
@[simp] theorem Mod.updFo_eap (m : Mod) (i : Nat) (f : Fo → Fo) : (m.updFo i f).eap = m.eap := by rfl
@[simp] theorem Mod.updFo_boot (m : Mod) (i : Nat) (f : Fo → Fo) : (m.updFo i f).boot = m.boot := by rfl
@[simp] theorem Mod.updFo_otp (m : Mod) (i : Nat) (f : Fo → Fo) : (m.updFo i f).otp = m.otp := by rfl
@[simp] theorem Mod.updFo_cfg (m : Mod) (i : Nat) (f : Fo → Fo) : (m.updFo i f).cfg = m.cfg := by rfl
@[simp] theorem Mod.updFo_change (m : Mod) (i : Nat) (f : Fo → Fo) : (m.updFo i f).change = m.change := by rfl
@[simp] theorem Mod.updFo_rioOut (m : Mod) (i : Nat) (f : Fo → Fo) : (m.updFo i f).rioOut = m.rioOut := by rfl
@[simp] theorem Mod.updFo_btReq (m : Mod) (i : Nat) (f : Fo → Fo) : (m.updFo i f).btReq = m.btReq := by rfl
@[simp] theorem Mod.updFo_free (m : Mod) (i : Nat) (f : Fo → Fo) : (m.updFo i f).free = m.free := by rfl
@[simp] theorem Mod.updFo_out (m : Mod) (i : Nat) (f : Fo → Fo) : (m.updFo i f).out = m.out := by rfl
@[simp] theorem Mod.updTrc_tb (m : Mod) (f : Trace → Trace) : (m.updTrc f).tb = m.tb := by rfl
@[simp] theorem Mod.updTrc_ptp (m : Mod) (f : Trace → Trace) : (m.updTrc f).ptp = m.ptp := by rfl
@[simp] theorem Mod.updTrc_tous (m : Mod) (f : Trace → Trace) : (m.updTrc f).tous = m.tous := by rfl
@[simp] theorem Mod.updTrc_tcus (m : Mod) (f : Trace → Trace) : (m.updTrc f).tcus = m.tcus := by rfl
@[simp] theorem Mod.updTrc_aat (m : Mod) (f : Trace → Trace) : (m.updTrc f).aat = m.aat := by rfl
@[simp] theorem Mod.updTrc_er (m : Mod) (f : Trace → Trace) : (m.updTrc f).er = m.er := by rfl
@[simp] theorem Mod.updTrc_pmc (m : Mod) (f : Trace → Trace) : (m.updTrc f).pmc = m.pmc := by rfl
@[simp] theorem Mod.updTrc_ce (m : Mod) (f : Trace → Trace) : (m.updTrc f).ce = { m.ce with trc := f m.ce.trc } := by rfl
@[simp] theorem Mod.updTrc_ae (m : Mod) (f : Trace → Trace) : (m.updTrc f).ae = m.ae := by rfl
@[simp] theorem Mod.updTrc_tasks (m : Mod) (f : Trace → Trace) : (m.updTrc f).tasks = m.tasks := by rfl
@[simp] theorem Mod.updTrc_net (m : Mod) (f : Trace → Trace) : (m.updTrc f).net = m.net := by rfl
@[simp] theorem Mod.updTrc_plan (m : Mod) (f : Trace → Trace) : (m.updTrc f).plan = m.plan := by rfl
@[simp] theorem Mod.updTrc_ret (m : Mod) (f : Trace → Trace) : (m.updTrc f).ret = m.ret := by rfl
@[simp] theorem Mod.updTrc_tan (m : Mod) (f : Trace → Trace) : (m.updTrc f).tan = m.tan := by rfl
@[simp] theorem Mod.updTrc_si (m : Mod) (f : Trace → Trace) : (m.updTrc f).si = m.si := by rfl
@[simp] theorem Mod.updTrc_eth (m : Mod) (f : Trace → Trace) : (m.updTrc f).eth = m.eth := by rfl
@[simp] theorem Mod.updTrc_cans (m : Mod) (f : Trace → Trace) : (m.updTrc f).cans = m.cans := by rfl
@[simp] theorem Mod.updTrc_dio (m : Mod) (f : Trace → Trace) : (m.updTrc f).dio = m.dio := by rfl
@[simp] theorem Mod.updTrc_an (m : Mod) (f : Trace → Trace) : (m.updTrc f).an = m.an := by rfl
@[simp] theorem Mod.updTrc_clk (m : Mod) (f : Trace → Trace) : (m.updTrc f).clk = m.clk := by rfl
@[simp] theorem Mod.updTrc_sup (m : Mod) (f : Trace → Trace) : (m.updTrc f).sup = m.sup := by rfl
@[simp] theorem Mod.updTrc_bkp (m : Mod) (f : Trace → Trace) : (m.updTrc f).bkp = m.bkp := by rfl
@[simp] theorem Mod.updTrc_disp (m : Mod) (f : Trace → Trace) : (m.updTrc f).disp = m.disp := by rfl
@[simp] theorem Mod.updTrc_cas (m : Mod) (f : Trace → Trace) : (m.updTrc f).cas = m.cas := by rfl
@[simp] theorem Mod.updTrc_bankA (m : Mod) (f : Trace → Trace) : (m.updTrc f).bankA = m.bankA := by rfl
@[simp] theorem Mod.updTrc_bankB (m : Mod) (f : Trace → Trace) : (m.updTrc f).bankB = m.bankB := by rfl
@[simp] theorem Mod.updTrc_onB (m : Mod) (f : Trace → Trace) : (m.updTrc f).onB = m.onB := by rfl
@[simp] theorem Mod.updTrc_eap (m : Mod) (f : Trace → Trace) : (m.updTrc f).eap = m.eap := by rfl
@[simp] theorem Mod.updTrc_boot (m : Mod) (f : Trace → Trace) : (m.updTrc f).boot = m.boot := by rfl
@[simp] theorem Mod.updTrc_otp (m : Mod) (f : Trace → Trace) : (m.updTrc f).otp = m.otp := by rfl
@[simp] theorem Mod.updTrc_cfg (m : Mod) (f : Trace → Trace) : (m.updTrc f).cfg = m.cfg := by rfl
@[simp] theorem Mod.updTrc_change (m : Mod) (f : Trace → Trace) : (m.updTrc f).change = m.change := by rfl
@[simp] theorem Mod.updTrc_rioOut (m : Mod) (f : Trace → Trace) : (m.updTrc f).rioOut = m.rioOut := by rfl
@[simp] theorem Mod.updTrc_btReq (m : Mod) (f : Trace → Trace) : (m.updTrc f).btReq = m.btReq := by rfl
@[simp] theorem Mod.updTrc_free (m : Mod) (f : Trace → Trace) : (m.updTrc f).free = m.free := by rfl
@[simp] theorem Mod.updTrc_out (m : Mod) (f : Trace → Trace) : (m.updTrc f).out = m.out := by rfl
@[simp] theorem Mod.updHart_tb (m : Mod) (k : Nat) (f : HartDev → HartDev) : (m.updHart k f).tb = m.tb := by rfl
@[simp] theorem Mod.updHart_ptp (m : Mod) (k : Nat) (f : HartDev → HartDev) : (m.updHart k f).ptp = m.ptp := by rfl
@[simp] theorem Mod.updHart_tous (m : Mod) (k : Nat) (f : HartDev → HartDev) : (m.updHart k f).tous = m.tous := by rfl
@[simp] theorem Mod.updHart_tcus (m : Mod) (k : Nat) (f : HartDev → HartDev) : (m.updHart k f).tcus = m.tcus := by rfl
@[simp] theorem Mod.updHart_aat (m : Mod) (k : Nat) (f : HartDev → HartDev) : (m.updHart k f).aat = m.aat := by rfl
@[simp] theorem Mod.updHart_er (m : Mod) (k : Nat) (f : HartDev → HartDev) : (m.updHart k f).er = m.er := by rfl
@[simp] theorem Mod.updHart_pmc (m : Mod) (k : Nat) (f : HartDev → HartDev) : (m.updHart k f).pmc = m.pmc := by rfl
@[simp] theorem Mod.updHart_ce (m : Mod) (k : Nat) (f : HartDev → HartDev) : (m.updHart k f).ce = m.ce := by rfl
@[simp] theorem Mod.updHart_ae (m : Mod) (k : Nat) (f : HartDev → HartDev) : (m.updHart k f).ae = m.ae := by rfl
@[simp] theorem Mod.updHart_tasks (m : Mod) (k : Nat) (f : HartDev → HartDev) : (m.updHart k f).tasks = m.tasks := by rfl
@[simp] theorem Mod.updHart_net (m : Mod) (k : Nat) (f : HartDev → HartDev) : (m.updHart k f).net = m.net := by rfl
@[simp] theorem Mod.updHart_plan (m : Mod) (k : Nat) (f : HartDev → HartDev) : (m.updHart k f).plan = m.plan := by rfl
@[simp] theorem Mod.updHart_ret (m : Mod) (k : Nat) (f : HartDev → HartDev) : (m.updHart k f).ret = m.ret := by rfl
@[simp] theorem Mod.updHart_tan (m : Mod) (k : Nat) (f : HartDev → HartDev) : (m.updHart k f).tan = m.tan := by rfl
@[simp] theorem Mod.updHart_si (m : Mod) (k : Nat) (f : HartDev → HartDev) : (m.updHart k f).si = m.si := by rfl
@[simp] theorem Mod.updHart_eth (m : Mod) (k : Nat) (f : HartDev → HartDev) : (m.updHart k f).eth = m.eth := by rfl
@[simp] theorem Mod.updHart_cans (m : Mod) (k : Nat) (f : HartDev → HartDev) : (m.updHart k f).cans = m.cans := by rfl
@[simp] theorem Mod.updHart_dio (m : Mod) (k : Nat) (f : HartDev → HartDev) : (m.updHart k f).dio = m.dio := by rfl
@[simp] theorem Mod.updHart_an (m : Mod) (k : Nat) (f : HartDev → HartDev) : (m.updHart k f).an = { m.an with hart := upd m.an.hart k f } := by rfl
@[simp] theorem Mod.updHart_clk (m : Mod) (k : Nat) (f : HartDev → HartDev) : (m.updHart k f).clk = m.clk := by rfl
@[simp] theorem Mod.updHart_sup (m : Mod) (k : Nat) (f : HartDev → HartDev) : (m.updHart k f).sup = m.sup := by rfl
@[simp] theorem Mod.updHart_bkp (m : Mod) (k : Nat) (f : HartDev → HartDev) : (m.updHart k f).bkp = m.bkp := by rfl
@[simp] theorem Mod.updHart_disp (m : Mod) (k : Nat) (f : HartDev → HartDev) : (m.updHart k f).disp = m.disp := by rfl
@[simp] theorem Mod.updHart_cas (m : Mod) (k : Nat) (f : HartDev → HartDev) : (m.updHart k f).cas = m.cas := by rfl
@[simp] theorem Mod.updHart_bankA (m : Mod) (k : Nat) (f : HartDev → HartDev) : (m.updHart k f).bankA = m.bankA := by rfl
@[simp] theorem Mod.updHart_bankB (m : Mod) (k : Nat) (f : HartDev → HartDev) : (m.updHart k f).bankB = m.bankB := by rfl
@[simp] theorem Mod.updHart_onB (m : Mod) (k : Nat) (f : HartDev → HartDev) : (m.updHart k f).onB = m.onB := by rfl
@[simp] theorem Mod.updHart_eap (m : Mod) (k : Nat) (f : HartDev → HartDev) : (m.updHart k f).eap = m.eap := by rfl
@[simp] theorem Mod.updHart_boot (m : Mod) (k : Nat) (f : HartDev → HartDev) : (m.updHart k f).boot = m.boot := by rfl
@[simp] theorem Mod.updHart_otp (m : Mod) (k : Nat) (f : HartDev → HartDev) : (m.updHart k f).otp = m.otp := by rfl
@[simp] theorem Mod.updHart_cfg (m : Mod) (k : Nat) (f : HartDev → HartDev) : (m.updHart k f).cfg = m.cfg := by rfl
@[simp] theorem Mod.updHart_change (m : Mod) (k : Nat) (f : HartDev → HartDev) : (m.updHart k f).change = m.change := by rfl
@[simp] theorem Mod.updHart_rioOut (m : Mod) (k : Nat) (f : HartDev → HartDev) : (m.updHart k f).rioOut = m.rioOut := by rfl
@[simp] theorem Mod.updHart_btReq (m : Mod) (k : Nat) (f : HartDev → HartDev) : (m.updHart k f).btReq = m.btReq := by rfl
@[simp] theorem Mod.updHart_free (m : Mod) (k : Nat) (f : HartDev → HartDev) : (m.updHart k f).free = m.free := by rfl
@[simp] theorem Mod.updHart_out (m : Mod) (k : Nat) (f : HartDev → HartDev) : (m.updHart k f).out = m.out := by rfl
@[simp] theorem Mod.updSpoke_tb (m : Mod) (p : Nat) (f : SpokePort → SpokePort) : (m.updSpoke p f).tb = m.tb := by rfl
@[simp] theorem Mod.updSpoke_ptp (m : Mod) (p : Nat) (f : SpokePort → SpokePort) : (m.updSpoke p f).ptp = m.ptp := by rfl
@[simp] theorem Mod.updSpoke_tous (m : Mod) (p : Nat) (f : SpokePort → SpokePort) : (m.updSpoke p f).tous = m.tous := by rfl
@[simp] theorem Mod.updSpoke_tcus (m : Mod) (p : Nat) (f : SpokePort → SpokePort) : (m.updSpoke p f).tcus = m.tcus := by rfl
@[simp] theorem Mod.updSpoke_aat (m : Mod) (p : Nat) (f : SpokePort → SpokePort) : (m.updSpoke p f).aat = m.aat := by rfl
@[simp] theorem Mod.updSpoke_er (m : Mod) (p : Nat) (f : SpokePort → SpokePort) : (m.updSpoke p f).er = m.er := by rfl
@[simp] theorem Mod.updSpoke_pmc (m : Mod) (p : Nat) (f : SpokePort → SpokePort) : (m.updSpoke p f).pmc = m.pmc := by rfl
@[simp] theorem Mod.updSpoke_ce (m : Mod) (p : Nat) (f : SpokePort → SpokePort) : (m.updSpoke p f).ce = m.ce := by rfl
@[simp] theorem Mod.updSpoke_ae (m : Mod) (p : Nat) (f : SpokePort → SpokePort) : (m.updSpoke p f).ae = m.ae := by rfl
@[simp] theorem Mod.updSpoke_tasks (m : Mod) (p : Nat) (f : SpokePort → SpokePort) : (m.updSpoke p f).tasks = m.tasks := by rfl
@[simp] theorem Mod.updSpoke_net (m : Mod) (p : Nat) (f : SpokePort → SpokePort) : (m.updSpoke p f).net = m.net := by rfl
@[simp] theorem Mod.updSpoke_plan (m : Mod) (p : Nat) (f : SpokePort → SpokePort) : (m.updSpoke p f).plan = m.plan := by rfl
@[simp] theorem Mod.updSpoke_ret (m : Mod) (p : Nat) (f : SpokePort → SpokePort) : (m.updSpoke p f).ret = m.ret := by rfl
@[simp] theorem Mod.updSpoke_tan (m : Mod) (p : Nat) (f : SpokePort → SpokePort) : (m.updSpoke p f).tan = m.tan := by rfl
@[simp] theorem Mod.updSpoke_si (m : Mod) (p : Nat) (f : SpokePort → SpokePort) : (m.updSpoke p f).si = m.si := by rfl
@[simp] theorem Mod.updSpoke_eth (m : Mod) (p : Nat) (f : SpokePort → SpokePort) : (m.updSpoke p f).eth = { m.eth with spoke := upd m.eth.spoke p f } := by rfl
@[simp] theorem Mod.updSpoke_cans (m : Mod) (p : Nat) (f : SpokePort → SpokePort) : (m.updSpoke p f).cans = m.cans := by rfl
@[simp] theorem Mod.updSpoke_dio (m : Mod) (p : Nat) (f : SpokePort → SpokePort) : (m.updSpoke p f).dio = m.dio := by rfl
@[simp] theorem Mod.updSpoke_an (m : Mod) (p : Nat) (f : SpokePort → SpokePort) : (m.updSpoke p f).an = m.an := by rfl
@[simp] theorem Mod.updSpoke_clk (m : Mod) (p : Nat) (f : SpokePort → SpokePort) : (m.updSpoke p f).clk = m.clk := by rfl
@[simp] theorem Mod.updSpoke_sup (m : Mod) (p : Nat) (f : SpokePort → SpokePort) : (m.updSpoke p f).sup = m.sup := by rfl
@[simp] theorem Mod.updSpoke_bkp (m : Mod) (p : Nat) (f : SpokePort → SpokePort) : (m.updSpoke p f).bkp = m.bkp := by rfl
@[simp] theorem Mod.updSpoke_disp (m : Mod) (p : Nat) (f : SpokePort → SpokePort) : (m.updSpoke p f).disp = m.disp := by rfl
@[simp] theorem Mod.updSpoke_cas (m : Mod) (p : Nat) (f : SpokePort → SpokePort) : (m.updSpoke p f).cas = m.cas := by rfl
@[simp] theorem Mod.updSpoke_bankA (m : Mod) (p : Nat) (f : SpokePort → SpokePort) : (m.updSpoke p f).bankA = m.bankA := by rfl
@[simp] theorem Mod.updSpoke_bankB (m : Mod) (p : Nat) (f : SpokePort → SpokePort) : (m.updSpoke p f).bankB = m.bankB := by rfl
@[simp] theorem Mod.updSpoke_onB (m : Mod) (p : Nat) (f : SpokePort → SpokePort) : (m.updSpoke p f).onB = m.onB := by rfl
@[simp] theorem Mod.updSpoke_eap (m : Mod) (p : Nat) (f : SpokePort → SpokePort) : (m.updSpoke p f).eap = m.eap := by rfl
@[simp] theorem Mod.updSpoke_boot (m : Mod) (p : Nat) (f : SpokePort → SpokePort) : (m.updSpoke p f).boot = m.boot := by rfl
@[simp] theorem Mod.updSpoke_otp (m : Mod) (p : Nat) (f : SpokePort → SpokePort) : (m.updSpoke p f).otp = m.otp := by rfl
@[simp] theorem Mod.updSpoke_cfg (m : Mod) (p : Nat) (f : SpokePort → SpokePort) : (m.updSpoke p f).cfg = m.cfg := by rfl
@[simp] theorem Mod.updSpoke_change (m : Mod) (p : Nat) (f : SpokePort → SpokePort) : (m.updSpoke p f).change = m.change := by rfl
@[simp] theorem Mod.updSpoke_rioOut (m : Mod) (p : Nat) (f : SpokePort → SpokePort) : (m.updSpoke p f).rioOut = m.rioOut := by rfl
@[simp] theorem Mod.updSpoke_btReq (m : Mod) (p : Nat) (f : SpokePort → SpokePort) : (m.updSpoke p f).btReq = m.btReq := by rfl
@[simp] theorem Mod.updSpoke_free (m : Mod) (p : Nat) (f : SpokePort → SpokePort) : (m.updSpoke p f).free = m.free := by rfl
@[simp] theorem Mod.updSpoke_out (m : Mod) (p : Nat) (f : SpokePort → SpokePort) : (m.updSpoke p f).out = m.out := by rfl
@[simp] theorem Mod.updNode_tb (m : Mod) (n : Nat) (f : SpokeNode → SpokeNode) : (m.updNode n f).tb = m.tb := by rfl
@[simp] theorem Mod.updNode_ptp (m : Mod) (n : Nat) (f : SpokeNode → SpokeNode) : (m.updNode n f).ptp = m.ptp := by rfl
@[simp] theorem Mod.updNode_tous (m : Mod) (n : Nat) (f : SpokeNode → SpokeNode) : (m.updNode n f).tous = m.tous := by rfl
@[simp] theorem Mod.updNode_tcus (m : Mod) (n : Nat) (f : SpokeNode → SpokeNode) : (m.updNode n f).tcus = m.tcus := by rfl
@[simp] theorem Mod.updNode_aat (m : Mod) (n : Nat) (f : SpokeNode → SpokeNode) : (m.updNode n f).aat = m.aat := by rfl
@[simp] theorem Mod.updNode_er (m : Mod) (n : Nat) (f : SpokeNode → SpokeNode) : (m.updNode n f).er = m.er := by rfl
@[simp] theorem Mod.updNode_pmc (m : Mod) (n : Nat) (f : SpokeNode → SpokeNode) : (m.updNode n f).pmc = m.pmc := by rfl
@[simp] theorem Mod.updNode_ce (m : Mod) (n : Nat) (f : SpokeNode → SpokeNode) : (m.updNode n f).ce = m.ce := by rfl
@[simp] theorem Mod.updNode_ae (m : Mod) (n : Nat) (f : SpokeNode → SpokeNode) : (m.updNode n f).ae = m.ae := by rfl
@[simp] theorem Mod.updNode_tasks (m : Mod) (n : Nat) (f : SpokeNode → SpokeNode) : (m.updNode n f).tasks = m.tasks := by rfl
@[simp] theorem Mod.updNode_net (m : Mod) (n : Nat) (f : SpokeNode → SpokeNode) : (m.updNode n f).net = m.net := by rfl
@[simp] theorem Mod.updNode_plan (m : Mod) (n : Nat) (f : SpokeNode → SpokeNode) : (m.updNode n f).plan = m.plan := by rfl
@[simp] theorem Mod.updNode_ret (m : Mod) (n : Nat) (f : SpokeNode → SpokeNode) : (m.updNode n f).ret = m.ret := by rfl
@[simp] theorem Mod.updNode_tan (m : Mod) (n : Nat) (f : SpokeNode → SpokeNode) : (m.updNode n f).tan = m.tan := by rfl
@[simp] theorem Mod.updNode_si (m : Mod) (n : Nat) (f : SpokeNode → SpokeNode) : (m.updNode n f).si = m.si := by rfl
@[simp] theorem Mod.updNode_eth (m : Mod) (n : Nat) (f : SpokeNode → SpokeNode) : (m.updNode n f).eth = m.eth.updNode n f := by rfl
@[simp] theorem Mod.updNode_cans (m : Mod) (n : Nat) (f : SpokeNode → SpokeNode) : (m.updNode n f).cans = m.cans := by rfl
@[simp] theorem Mod.updNode_dio (m : Mod) (n : Nat) (f : SpokeNode → SpokeNode) : (m.updNode n f).dio = m.dio := by rfl
@[simp] theorem Mod.updNode_an (m : Mod) (n : Nat) (f : SpokeNode → SpokeNode) : (m.updNode n f).an = m.an := by rfl
@[simp] theorem Mod.updNode_clk (m : Mod) (n : Nat) (f : SpokeNode → SpokeNode) : (m.updNode n f).clk = m.clk := by rfl
@[simp] theorem Mod.updNode_sup (m : Mod) (n : Nat) (f : SpokeNode → SpokeNode) : (m.updNode n f).sup = m.sup := by rfl
@[simp] theorem Mod.updNode_bkp (m : Mod) (n : Nat) (f : SpokeNode → SpokeNode) : (m.updNode n f).bkp = m.bkp := by rfl
@[simp] theorem Mod.updNode_disp (m : Mod) (n : Nat) (f : SpokeNode → SpokeNode) : (m.updNode n f).disp = m.disp := by rfl
@[simp] theorem Mod.updNode_cas (m : Mod) (n : Nat) (f : SpokeNode → SpokeNode) : (m.updNode n f).cas = m.cas := by rfl
@[simp] theorem Mod.updNode_bankA (m : Mod) (n : Nat) (f : SpokeNode → SpokeNode) : (m.updNode n f).bankA = m.bankA := by rfl
@[simp] theorem Mod.updNode_bankB (m : Mod) (n : Nat) (f : SpokeNode → SpokeNode) : (m.updNode n f).bankB = m.bankB := by rfl
@[simp] theorem Mod.updNode_onB (m : Mod) (n : Nat) (f : SpokeNode → SpokeNode) : (m.updNode n f).onB = m.onB := by rfl
@[simp] theorem Mod.updNode_eap (m : Mod) (n : Nat) (f : SpokeNode → SpokeNode) : (m.updNode n f).eap = m.eap := by rfl
@[simp] theorem Mod.updNode_boot (m : Mod) (n : Nat) (f : SpokeNode → SpokeNode) : (m.updNode n f).boot = m.boot := by rfl
@[simp] theorem Mod.updNode_otp (m : Mod) (n : Nat) (f : SpokeNode → SpokeNode) : (m.updNode n f).otp = m.otp := by rfl
@[simp] theorem Mod.updNode_cfg (m : Mod) (n : Nat) (f : SpokeNode → SpokeNode) : (m.updNode n f).cfg = m.cfg := by rfl
@[simp] theorem Mod.updNode_change (m : Mod) (n : Nat) (f : SpokeNode → SpokeNode) : (m.updNode n f).change = m.change := by rfl
@[simp] theorem Mod.updNode_rioOut (m : Mod) (n : Nat) (f : SpokeNode → SpokeNode) : (m.updNode n f).rioOut = m.rioOut := by rfl
@[simp] theorem Mod.updNode_btReq (m : Mod) (n : Nat) (f : SpokeNode → SpokeNode) : (m.updNode n f).btReq = m.btReq := by rfl
@[simp] theorem Mod.updNode_free (m : Mod) (n : Nat) (f : SpokeNode → SpokeNode) : (m.updNode n f).free = m.free := by rfl
@[simp] theorem Mod.updNode_out (m : Mod) (n : Nat) (f : SpokeNode → SpokeNode) : (m.updNode n f).out = m.out := by rfl
@[simp] theorem Mod.touchSession_tb (m : Mod) (i : Nat) : (m.touchSession i).tb = m.tb := by rfl
@[simp] theorem Mod.touchSession_ptp (m : Mod) (i : Nat) : (m.touchSession i).ptp = m.ptp := by rfl
@[simp] theorem Mod.touchSession_tous (m : Mod) (i : Nat) : (m.touchSession i).tous = m.tous := by rfl
@[simp] theorem Mod.touchSession_tcus (m : Mod) (i : Nat) : (m.touchSession i).tcus = m.tcus := by rfl
@[simp] theorem Mod.touchSession_aat (m : Mod) (i : Nat) : (m.touchSession i).aat = m.aat := by rfl
@[simp] theorem Mod.touchSession_er (m : Mod) (i : Nat) : (m.touchSession i).er = m.er := by rfl
@[simp] theorem Mod.touchSession_pmc (m : Mod) (i : Nat) : (m.touchSession i).pmc = m.pmc := by rfl
@[simp] theorem Mod.touchSession_ce (m : Mod) (i : Nat) : (m.touchSession i).ce = m.ce := by rfl
@[simp] theorem Mod.touchSession_ae (m : Mod) (i : Nat) : (m.touchSession i).ae = m.ae := by rfl
@[simp] theorem Mod.touchSession_tasks (m : Mod) (i : Nat) : (m.touchSession i).tasks = m.tasks := by rfl
@[simp] theorem Mod.touchSession_net (m : Mod) (i : Nat) : (m.touchSession i).net = m.net := by rfl
@[simp] theorem Mod.touchSession_plan (m : Mod) (i : Nat) : (m.touchSession i).plan = m.plan := by rfl
@[simp] theorem Mod.touchSession_ret (m : Mod) (i : Nat) : (m.touchSession i).ret = m.ret := by rfl
@[simp] theorem Mod.touchSession_tan (m : Mod) (i : Nat) : (m.touchSession i).tan = m.tan := by rfl
@[simp] theorem Mod.touchSession_si (m : Mod) (i : Nat) : (m.touchSession i).si = m.si := by rfl
@[simp] theorem Mod.touchSession_eth (m : Mod) (i : Nat) : (m.touchSession i).eth = m.eth := by rfl
@[simp] theorem Mod.touchSession_cans (m : Mod) (i : Nat) : (m.touchSession i).cans = m.cans := by rfl
@[simp] theorem Mod.touchSession_dio (m : Mod) (i : Nat) : (m.touchSession i).dio = m.dio := by rfl
@[simp] theorem Mod.touchSession_an (m : Mod) (i : Nat) : (m.touchSession i).an = m.an := by rfl
@[simp] theorem Mod.touchSession_clk (m : Mod) (i : Nat) : (m.touchSession i).clk = m.clk := by rfl
@[simp] theorem Mod.touchSession_sup (m : Mod) (i : Nat) : (m.touchSession i).sup = m.sup := by rfl
@[simp] theorem Mod.touchSession_bkp (m : Mod) (i : Nat) : (m.touchSession i).bkp = m.bkp := by rfl
@[simp] theorem Mod.touchSession_disp (m : Mod) (i : Nat) : (m.touchSession i).disp = m.disp := by rfl
@[simp] theorem Mod.touchSession_cas (m : Mod) (i : Nat) : (m.touchSession i).cas = m.cas := by rfl
@[simp] theorem Mod.touchSession_bankA (m : Mod) (i : Nat) : (m.touchSession i).bankA = m.bankA := by rfl
@[simp] theorem Mod.touchSession_bankB (m : Mod) (i : Nat) : (m.touchSession i).bankB = m.bankB := by rfl
@[simp] theorem Mod.touchSession_onB (m : Mod) (i : Nat) : (m.touchSession i).onB = m.onB := by rfl
@[simp] theorem Mod.touchSession_boot (m : Mod) (i : Nat) : (m.touchSession i).boot = m.boot := by rfl
@[simp] theorem Mod.touchSession_otp (m : Mod) (i : Nat) : (m.touchSession i).otp = m.otp := by rfl
@[simp] theorem Mod.touchSession_cfg (m : Mod) (i : Nat) : (m.touchSession i).cfg = m.cfg := by rfl
@[simp] theorem Mod.touchSession_change (m : Mod) (i : Nat) : (m.touchSession i).change = m.change := by rfl
@[simp] theorem Mod.touchSession_rioOut (m : Mod) (i : Nat) : (m.touchSession i).rioOut = m.rioOut := by rfl
@[simp] theorem Mod.touchSession_btReq (m : Mod) (i : Nat) : (m.touchSession i).btReq = m.btReq := by rfl
@[simp] theorem Mod.touchSession_free (m : Mod) (i : Nat) : (m.touchSession i).free = m.free := by rfl
@[simp] theorem Mod.touchSession_out (m : Mod) (i : Nat) : (m.touchSession i).out = m.out := by rfl
@[simp] theorem Mod.respond_tb (m : Mod) (rq : Req) (st : Nat) (b : Bytes) : (m.respond rq st b).tb = m.tb := by rfl
@[simp] theorem Mod.respond_ptp (m : Mod) (rq : Req) (st : Nat) (b : Bytes) : (m.respond rq st b).ptp = m.ptp := by rfl
@[simp] theorem Mod.respond_tous (m : Mod) (rq : Req) (st : Nat) (b : Bytes) : (m.respond rq st b).tous = m.tous := by rfl
@[simp] theorem Mod.respond_tcus (m : Mod) (rq : Req) (st : Nat) (b : Bytes) : (m.respond rq st b).tcus = m.tcus := by rfl
@[simp] theorem Mod.respond_aat (m : Mod) (rq : Req) (st : Nat) (b : Bytes) : (m.respond rq st b).aat = m.aat := by rfl
@[simp] theorem Mod.respond_er (m : Mod) (rq : Req) (st : Nat) (b : Bytes) : (m.respond rq st b).er = m.er := by rfl
@[simp] theorem Mod.respond_ce (m : Mod) (rq : Req) (st : Nat) (b : Bytes) : (m.respond rq st b).ce = m.ce := by rfl
@[simp] theorem Mod.respond_ae (m : Mod) (rq : Req) (st : Nat) (b : Bytes) : (m.respond rq st b).ae = m.ae := by rfl
@[simp] theorem Mod.respond_tasks (m : Mod) (rq : Req) (st : Nat) (b : Bytes) : (m.respond rq st b).tasks = m.tasks := by rfl
@[simp] theorem Mod.respond_net (m : Mod) (rq : Req) (st : Nat) (b : Bytes) : (m.respond rq st b).net = m.net := by rfl
@[simp] theorem Mod.respond_plan (m : Mod) (rq : Req) (st : Nat) (b : Bytes) : (m.respond rq st b).plan = m.plan := by rfl
@[simp] theorem Mod.respond_ret (m : Mod) (rq : Req) (st : Nat) (b : Bytes) : (m.respond rq st b).ret = m.ret := by rfl
@[simp] theorem Mod.respond_tan (m : Mod) (rq : Req) (st : Nat) (b : Bytes) : (m.respond rq st b).tan = m.tan := by rfl
@[simp] theorem Mod.respond_si (m : Mod) (rq : Req) (st : Nat) (b : Bytes) : (m.respond rq st b).si = m.si := by rfl
@[simp] theorem Mod.respond_cans (m : Mod) (rq : Req) (st : Nat) (b : Bytes) : (m.respond rq st b).cans = m.cans := by rfl
@[simp] theorem Mod.respond_dio (m : Mod) (rq : Req) (st : Nat) (b : Bytes) : (m.respond rq st b).dio = m.dio := by rfl
@[simp] theorem Mod.respond_an (m : Mod) (rq : Req) (st : Nat) (b : Bytes) : (m.respond rq st b).an = m.an := by rfl
@[simp] theorem Mod.respond_clk (m : Mod) (rq : Req) (st : Nat) (b : Bytes) : (m.respond rq st b).clk = m.clk := by rfl
@[simp] theorem Mod.respond_sup (m : Mod) (rq : Req) (st : Nat) (b : Bytes) : (m.respond rq st b).sup = m.sup := by rfl
@[simp] theorem Mod.respond_bkp (m : Mod) (rq : Req) (st : Nat) (b : Bytes) : (m.respond rq st b).bkp = m.bkp := by rfl
@[simp] theorem Mod.respond_disp (m : Mod) (rq : Req) (st : Nat) (b : Bytes) : (m.respond rq st b).disp = m.disp := by rfl
@[simp] theorem Mod.respond_cas (m : Mod) (rq : Req) (st : Nat) (b : Bytes) : (m.respond rq st b).cas = m.cas := by rfl
@[simp] theorem Mod.respond_bankA (m : Mod) (rq : Req) (st : Nat) (b : Bytes) : (m.respond rq st b).bankA = m.bankA := by rfl
@[simp] theorem Mod.respond_bankB (m : Mod) (rq : Req) (st : Nat) (b : Bytes) : (m.respond rq st b).bankB = m.bankB := by rfl
@[simp] theorem Mod.respond_onB (m : Mod) (rq : Req) (st : Nat) (b : Bytes) : (m.respond rq st b).onB = m.onB := by rfl
@[simp] theorem Mod.respond_boot (m : Mod) (rq : Req) (st : Nat) (b : Bytes) : (m.respond rq st b).boot = m.boot := by rfl
@[simp] theorem Mod.respond_otp (m : Mod) (rq : Req) (st : Nat) (b : Bytes) : (m.respond rq st b).otp = m.otp := by rfl
@[simp] theorem Mod.respond_cfg (m : Mod) (rq : Req) (st : Nat) (b : Bytes) : (m.respond rq st b).cfg = m.cfg := by rfl
@[simp] theorem Mod.respond_change (m : Mod) (rq : Req) (st : Nat) (b : Bytes) : (m.respond rq st b).change = m.change := by rfl
@[simp] theorem Mod.respond_rioOut (m : Mod) (rq : Req) (st : Nat) (b : Bytes) : (m.respond rq st b).rioOut = m.rioOut := by rfl
@[simp] theorem Mod.respond_btReq (m : Mod) (rq : Req) (st : Nat) (b : Bytes) : (m.respond rq st b).btReq = m.btReq := by rfl
@[simp] theorem Mod.cmdDone_tb (m : Mod) (i a b c : Nat) : (m.cmdDone i a b c).tb = m.tb := by rfl
@[simp] theorem Mod.cmdDone_ptp (m : Mod) (i a b c : Nat) : (m.cmdDone i a b c).ptp = m.ptp := by rfl
@[simp] theorem Mod.cmdDone_tous (m : Mod) (i a b c : Nat) : (m.cmdDone i a b c).tous = m.tous := by rfl
@[simp] theorem Mod.cmdDone_tcus (m : Mod) (i a b c : Nat) : (m.cmdDone i a b c).tcus = m.tcus := by rfl
@[simp] theorem Mod.cmdDone_aat (m : Mod) (i a b c : Nat) : (m.cmdDone i a b c).aat = m.aat := by rfl
@[simp] theorem Mod.cmdDone_er (m : Mod) (i a b c : Nat) : (m.cmdDone i a b c).er = m.er := by rfl
@[simp] theorem Mod.cmdDone_pmc (m : Mod) (i a b c : Nat) : (m.cmdDone i a b c).pmc = m.pmc := by rfl
@[simp] theorem Mod.cmdDone_ce (m : Mod) (i a b c : Nat) : (m.cmdDone i a b c).ce = m.ce := by rfl
@[simp] theorem Mod.cmdDone_ae (m : Mod) (i a b c : Nat) : (m.cmdDone i a b c).ae = m.ae := by rfl
@[simp] theorem Mod.cmdDone_tasks (m : Mod) (i a b c : Nat) : (m.cmdDone i a b c).tasks = m.tasks := by rfl
@[simp] theorem Mod.cmdDone_net (m : Mod) (i a b c : Nat) : (m.cmdDone i a b c).net = m.net := by rfl
@[simp] theorem Mod.cmdDone_plan (m : Mod) (i a b c : Nat) : (m.cmdDone i a b c).plan = m.plan := by rfl
@[simp] theorem Mod.cmdDone_ret (m : Mod) (i a b c : Nat) : (m.cmdDone i a b c).ret = m.ret := by rfl
@[simp] theorem Mod.cmdDone_tan (m : Mod) (i a b c : Nat) : (m.cmdDone i a b c).tan = m.tan := by rfl
@[simp] theorem Mod.cmdDone_si (m : Mod) (i a b c : Nat) : (m.cmdDone i a b c).si = m.si := by rfl
@[simp] theorem Mod.cmdDone_eth (m : Mod) (i a b c : Nat) : (m.cmdDone i a b c).eth = m.eth := by rfl
@[simp] theorem Mod.cmdDone_cans (m : Mod) (i a b c : Nat) : (m.cmdDone i a b c).cans = m.cans := by rfl
@[simp] theorem Mod.cmdDone_dio (m : Mod) (i a b c : Nat) : (m.cmdDone i a b c).dio = m.dio := by rfl
@[simp] theorem Mod.cmdDone_an (m : Mod) (i a b c : Nat) : (m.cmdDone i a b c).an = m.an := by rfl
@[simp] theorem Mod.cmdDone_clk (m : Mod) (i a b c : Nat) : (m.cmdDone i a b c).clk = m.clk := by rfl
@[simp] theorem Mod.cmdDone_sup (m : Mod) (i a b c : Nat) : (m.cmdDone i a b c).sup = m.sup := by rfl
@[simp] theorem Mod.cmdDone_bkp (m : Mod) (i a b c : Nat) : (m.cmdDone i a b c).bkp = m.bkp := by rfl
@[simp] theorem Mod.cmdDone_disp (m : Mod) (i a b c : Nat) : (m.cmdDone i a b c).disp = m.disp := by rfl
@[simp] theorem Mod.cmdDone_cas (m : Mod) (i a b c : Nat) : (m.cmdDone i a b c).cas = m.cas := by rfl
@[simp] theorem Mod.cmdDone_bankA (m : Mod) (i a b c : Nat) : (m.cmdDone i a b c).bankA = m.bankA := by rfl
@[simp] theorem Mod.cmdDone_bankB (m : Mod) (i a b c : Nat) : (m.cmdDone i a b c).bankB = m.bankB := by rfl
@[simp] theorem Mod.cmdDone_onB (m : Mod) (i a b c : Nat) : (m.cmdDone i a b c).onB = m.onB := by rfl
@[simp] theorem Mod.cmdDone_boot (m : Mod) (i a b c : Nat) : (m.cmdDone i a b c).boot = m.boot := by rfl
@[simp] theorem Mod.cmdDone_otp (m : Mod) (i a b c : Nat) : (m.cmdDone i a b c).otp = m.otp := by rfl
@[simp] theorem Mod.cmdDone_cfg (m : Mod) (i a b c : Nat) : (m.cmdDone i a b c).cfg = m.cfg := by rfl
@[simp] theorem Mod.cmdDone_change (m : Mod) (i a b c : Nat) : (m.cmdDone i a b c).change = m.change := by rfl
@[simp] theorem Mod.cmdDone_rioOut (m : Mod) (i a b c : Nat) : (m.cmdDone i a b c).rioOut = m.rioOut := by rfl
@[simp] theorem Mod.cmdDone_btReq (m : Mod) (i a b c : Nat) : (m.cmdDone i a b c).btReq = m.btReq := by rfl
@[simp] theorem Mod.cmdDone_free (m : Mod) (i a b c : Nat) : (m.cmdDone i a b c).free = m.free := by rfl
@[simp] theorem Mod.cmdDone_out (m : Mod) (i a b c : Nat) : (m.cmdDone i a b c).out = m.out := by rfl

end Sys2Proof.Machine
end

