-- ==== Sys2Proof/Laws/Eap.lean ====
section
/-! SUPPORT. The laws of requests: what serving one, answering a COMMAND, a WRITE or a read-and-clear comes to. -/

namespace Sys2Proof.Machine

/-- A request that is heard for the first time is served; its answer leaves and is held. -/
theorem Mod.serve_new {m : Mod} {rq : Req} {x : Session} (f : Session → Mod → Served) (hl : m.live = true)
    (hs : (m.eap.sessions.find? fun s => s.id == rq.sess) = some x) (ht : m.serves rq x = true) :
    m.serve rq f = (match (f x (m.touchSession rq.sess)).ans with
      | some (st, b) => (f x (m.touchSession rq.sess)).m.respond rq st b
      | none => (f x (m.touchSession rq.sess)).m) := by
  simp only [Mod.serve, hl, hs, ht]; rfl
/-- Frames placed on ports leave sessions, files and commands alone. -/
theorem Mod.placeOn_eap (m : Mod) (ports : List Nat) (q len : Nat) (d : EthData) : (m.placeOn ports q len d).eap = m.eap := rfl
/-- So does the frame of an answer that leaves again. -/
theorem Mod.resend_eap (m : Mod) (rq : Req) (r : Resp) : (m.resend rq r).eap = m.eap := by
  show (m.eapFrame rq.sess r.body).eap = m.eap
  unfold Mod.eapFrame; split
  · rfl
  · dsimp only; rw [Mod.placeOn_eap]
/-- A repeated request gets the answer held for it, and has no other effect. -/
theorem Mod.serve_again {m : Mod} {rq : Req} {x : Session} {r : Resp} (f : Session → Mod → Served) (hl : m.live = true)
    (hs : (m.eap.sessions.find? fun s => s.id == rq.sess) = some x) (ht : (x.held.find? fun r => r.tid == rq.tid) = some r) :
    m.serve rq f = (m.touchSession rq.sess).resend rq r := by
  have h : m.serves rq x = false := by simp [Mod.serves, ht]
  simp only [Mod.serve, hl, hs, h, ht]; rfl
/-- A request beyond 8 that wait for their answers is answered `BUSY` at once. -/
theorem Mod.serve_busy {m : Mod} {rq : Req} {x : Session} (f : Session → Mod → Served) (hl : m.live = true)
    (hs : (m.eap.sessions.find? fun s => s.id == rq.sess) = some x) (ht : (x.held.find? fun r => r.tid == rq.tid) = none)
    (hw : m.waiting.contains rq = false) (h8 : 8 ≤ (m.waiting.filter fun q => q.sess == rq.sess).length) :
    m.serve rq f = (m.touchSession rq.sess).respond rq stBusy [] := by
  have h : m.serves rq x = false := by
    have : ¬ (m.waiting.filter fun q => q.sess == rq.sess).length < 8 := by omega
    simp only [Mod.serves, this, decide_false, Bool.and_false]
  simp only [Mod.serve, hl, hs, h, ht, hw]; rfl
/-- A repeat of a request that waits for its answer gets no other. -/
theorem Mod.serve_waits {m : Mod} {rq : Req} {x : Session} (f : Session → Mod → Served) (hl : m.live = true)
    (hs : (m.eap.sessions.find? fun s => s.id == rq.sess) = some x) (ht : (x.held.find? fun r => r.tid == rq.tid) = none)
    (hw : m.waiting.contains rq = true) : m.serve rq f = m.touchSession rq.sess := by
  have h : m.serves rq x = false := by simp only [Mod.serves, hw, Bool.not_true, Bool.and_false, Bool.false_and]
  simp only [Mod.serve, hl, hs, h, ht, hw]; rfl
/-- A request without its session is not heard. -/
theorem Mod.serve_none {m : Mod} {rq : Req} (f : Session → Mod → Served)
    (hs : (m.eap.sessions.find? fun s => s.id == rq.sess) = none) : m.serve rq f = m := by
  simp only [Mod.serve, hs]; split <;> rfl
/-- A COMMAND that may run: its effect, its command object, its answer. -/
theorem Mod.command_ok {m : Mod} {rq : Req} {x : Session} {idx role : Nat} {p5 im : Bool} (f : Session → Mod → CmdAns)
    (hl : m.live = true) (hs : (m.eap.sessions.find? fun s => s.id == rq.sess) = some x)
    (ht : m.serves rq x = true) (hr : role ≤ x.role) (hp : p5 = true → x.port = 2)
    (hm : m.maint = true → im = true) (hc : (at_ m.eap.cmds idx {}).open_ = false) :
    m.command rq idx role p5 im f =
      (let r := f x (m.touchSession rq.sess)
       let c : CmdObj := if r.status = stAccepted ∧ r.stays ∧ r.ended.isNone then { at_ m.eap.cmds idx {} with open_ := true }
         else { status := r.ended.getD (if r.status = stAccepted then stOk else r.status), detail := r.detail, value := r.value }
       ({ r.m with eap := { r.m.eap with cmds := put r.m.eap.cmds idx c } } : Mod).respond rq r.status r.body) := by
  unfold Mod.command
  rw [Mod.serve_new _ hl hs ht]
  have h1 : ((p5 && x.port != 2) || decide (x.role < role)) = false := by
    cases p5
    · simpa using hr
    · simpa [hp rfl] using hr
  have h2 : ((m.touchSession rq.sess).maint && !im) = false := by
    cases hb : (m.touchSession rq.sess).maint
    · rfl
    · rw [hm hb]; rfl
  have e : (at_ (m.touchSession rq.sess).eap.cmds idx {}) = at_ m.eap.cmds idx {} := rfl
  simp only [h1, h2, e, hc]; rfl
/-- A COMMAND that may run and answers `r`. -/
theorem Mod.command_at {m : Mod} {rq : Req} {x : Session} {idx role : Nat} {p5 im : Bool} {f : Session → Mod → CmdAns} {r : CmdAns}
    (hl : m.live = true) (hs : (m.eap.sessions.find? fun s => s.id == rq.sess) = some x)
    (ht : m.serves rq x = true) (hr : role ≤ x.role) (hp : p5 = true → x.port = 2)
    (hm : m.maint = true → im = true) (hc : (at_ m.eap.cmds idx {}).open_ = false) (he : f x (m.touchSession rq.sess) = r) :
    m.command rq idx role p5 im f =
      (let c : CmdObj := if r.status = stAccepted ∧ r.stays ∧ r.ended.isNone then { at_ m.eap.cmds idx {} with open_ := true }
         else { status := r.ended.getD (if r.status = stAccepted then stOk else r.status), detail := r.detail, value := r.value }
       ({ r.m with eap := { r.m.eap with cmds := put r.m.eap.cmds idx c } } : Mod).respond rq r.status r.body) := by
  subst he; exact Mod.command_ok f hl hs ht hr hp hm hc
/-- A COMMAND from a session of too low a role, or not from P5 where P5 alone may send it. -/
theorem Mod.command_role {m : Mod} {rq : Req} {x : Session} {idx role : Nat} {p5 im : Bool} (f : Session → Mod → CmdAns)
    (hl : m.live = true) (hs : (m.eap.sessions.find? fun s => s.id == rq.sess) = some x) (ht : m.serves rq x = true)
    (h : x.role < role ∨ p5 = true ∧ x.port ≠ 2) :
    m.command rq idx role p5 im f = (m.touchSession rq.sess).respond rq stRole [] := by
  have h1 : ((p5 && x.port != 2) || decide (x.role < role)) = true := by
    rcases h with h | ⟨h, h'⟩
    · simp [h]
    · simp [h, h']
  unfold Mod.command
  rw [Mod.serve_new _ hl hs ht]
  simp only [h1]; rfl
/-- A COMMAND that `MAINTENANCE` does not admit, met there. -/
theorem Mod.command_maint {m : Mod} {rq : Req} {x : Session} {idx role : Nat} {p5 im : Bool} (f : Session → Mod → CmdAns)
    (hl : m.live = true) (hs : (m.eap.sessions.find? fun s => s.id == rq.sess) = some x) (ht : m.serves rq x = true)
    (hr : role ≤ x.role) (hp : p5 = true → x.port = 2) (h : m.maint = true) (hi : im = false) :
    m.command rq idx role p5 im f = (m.touchSession rq.sess).respond rq stCondition [] := by
  have h1 : ((p5 && x.port != 2) || decide (x.role < role)) = false := by
    cases p5
    · simp; omega
    · simp [hp rfl]; omega
  have h2 : ((m.touchSession rq.sess).maint && !im) = true := by
    have : (m.touchSession rq.sess).maint = true := h
    simp [this, hi]
  unfold Mod.command
  rw [Mod.serve_new _ hl hs ht]
  simp only [h1, h2]; rfl
/-- A COMMAND whose object holds one that is not complete. -/
theorem Mod.command_open {m : Mod} {rq : Req} {x : Session} {idx role : Nat} {p5 im : Bool} (f : Session → Mod → CmdAns)
    (hl : m.live = true) (hs : (m.eap.sessions.find? fun s => s.id == rq.sess) = some x) (ht : m.serves rq x = true)
    (hr : role ≤ x.role) (hp : p5 = true → x.port = 2) (hm : m.maint = true → im = true) (h : (at_ m.eap.cmds idx {}).open_ = true) :
    m.command rq idx role p5 im f =
      (if idx = 1 then (m.touchSession rq.sess).busyChange else m.touchSession rq.sess).respond rq stBusy [] := by
  have h1 : ((p5 && x.port != 2) || decide (x.role < role)) = false := by
    cases p5
    · simp; omega
    · simp [hp rfl]; omega
  have h2 : ((m.touchSession rq.sess).maint && !im) = false := by
    cases hb : (m.touchSession rq.sess).maint
    · rfl
    · rw [hm hb]; rfl
  have h3 : (at_ (m.touchSession rq.sess).eap.cmds idx {}).open_ = true := h
  unfold Mod.command
  rw [Mod.serve_new _ hl hs ht]
  simp only [h1, h2, h3]; rfl
/-- A COMMAND that may run and that its meaning `f` refuses with a status, leaving the module as it is. -/
theorem refuses_of {c : Instr} {s : State} {rq : Req} {x : Session} {idx role st : Nat} {p5 im : Bool} {f : Session → Mod → CmdAns}
    (hc : exec c s = s.run fun m => m.command rq idx role p5 im f) (h : admitted s.m rq x idx role p5 im)
    (hf : f x (s.m.touchSession rq.sess) = { m := s.m.touchSession rq.sess, status := st }) (hst : st ≠ stAccepted) :
    Refuses c s rq idx st := by
  obtain ⟨⟨hl, hs, ht⟩, hr, hp, hm, ho⟩ := h
  rw [Refuses, Makes, hc, State.run, Mod.command_at hl hs ht hr hp hm ho hf]
  simp only [commanded, hst, false_and, if_false, Option.getD_none]
/-- A WRITE that may run. -/
theorem Mod.writeOne_ok {m : Mod} {rq : Req} {x : Session} {role : Nat} {im : Bool} (f : Session → Mod → Mod × Nat)
    (hl : m.live = true) (hs : (m.eap.sessions.find? fun s => s.id == rq.sess) = some x)
    (ht : m.serves rq x = true) (hr : role ≤ x.role) (hm : m.maint = true → im = true) :
    m.writeOne rq role im f =
      (f x (m.touchSession rq.sess)).1.respond rq stOk (writeResult (f x (m.touchSession rq.sess)).2) := by
  unfold Mod.writeOne
  rw [Mod.serve_new _ hl hs ht]
  have h1 : ¬ x.role < role := by omega
  have h2 : ((m.touchSession rq.sess).maint && !im) = false := by
    cases hb : (m.touchSession rq.sess).maint
    · rfl
    · rw [hm hb]; rfl
  simp only [h1, h2]; rfl
/-- A read-and-clear outside `MAINTENANCE`. -/
theorem Mod.readClear_ok {m : Mod} {rq : Req} {x : Session} (f : Mod → Mod × Nat × Bytes) (hl : m.live = true)
    (hs : (m.eap.sessions.find? fun s => s.id == rq.sess) = some x) (ht : m.serves rq x = true)
    (hm : m.maint = false) :
    m.readClear rq f = ((f (m.touchSession rq.sess)).1.pass 1).respond rq stOk
      (readResult (f (m.touchSession rq.sess)).2.1 (f (m.touchSession rq.sess)).2.2) := by
  unfold Mod.readClear
  rw [Mod.serve_new _ hl hs ht]
  have h2 : (m.touchSession rq.sess).maint = false := hm
  simp only [h2]; rfl
/-- A WRITE from a session of too low a role. -/
theorem Mod.writeOne_role {m : Mod} {rq : Req} {x : Session} {role : Nat} {im : Bool} (f : Session → Mod → Mod × Nat)
    (hl : m.live = true) (hs : (m.eap.sessions.find? fun s => s.id == rq.sess) = some x) (ht : m.serves rq x = true) (h : x.role < role) :
    m.writeOne rq role im f = (m.touchSession rq.sess).respond rq stOk (writeResult stRole) := by
  unfold Mod.writeOne
  rw [Mod.serve_new _ hl hs ht]
  simp only [h, if_true]
/-- A WRITE that `MAINTENANCE` does not admit, met there. -/
theorem Mod.writeOne_maint {m : Mod} {rq : Req} {x : Session} {role : Nat} {im : Bool} (f : Session → Mod → Mod × Nat)
    (hl : m.live = true) (hs : (m.eap.sessions.find? fun s => s.id == rq.sess) = some x) (ht : m.serves rq x = true)
    (hr : role ≤ x.role) (h : m.maint = true) (hi : im = false) :
    m.writeOne rq role im f = (m.touchSession rq.sess).respond rq stOk (writeResult stCondition) := by
  unfold Mod.writeOne
  rw [Mod.serve_new _ hl hs ht]
  have h1 : ¬ x.role < role := by omega
  have h2 : ((m.touchSession rq.sess).maint && !im) = true := by
    have : (m.touchSession rq.sess).maint = true := h
    simp [this, hi]
  simp only [h1, h2]; rfl
/-- A read of a read-and-clear object in `MAINTENANCE`. -/
theorem Mod.readClear_maint {m : Mod} {rq : Req} {x : Session} (f : Mod → Mod × Nat × Bytes) (hl : m.live = true)
    (hs : (m.eap.sessions.find? fun s => s.id == rq.sess) = some x) (ht : m.serves rq x = true) (hm : m.maint = true) :
    m.readClear rq f = (m.touchSession rq.sess).respond rq stOk (readResult stCondition []) := by
  unfold Mod.readClear
  rw [Mod.serve_new _ hl hs ht]
  have h2 : (m.touchSession rq.sess).maint = true := hm
  simp only [h2, if_true]

end Sys2Proof.Machine
end

