-- ==== Sys2Proof/Laws/Roles.lean ====
section
/-! SUPPORT. What the loss of a role leaves as it was: leaving the claim or the tandem's pair moves neither the plan nor what waits on it. -/

namespace Sys2Proof.Machine

/-- A change of the header leaves plan and tandem state alone. -/
theorem Mod.changeHdr_plan_tan (m : Mod) (h : Hdr) : (m.changeHdr h).plan = m.plan ∧ (m.changeHdr h).tan = m.tan := by
  unfold Mod.changeHdr; dsimp only
  split
  · split <;> exact ⟨rfl, rfl⟩
  · exact ⟨rfl, rfl⟩

/-- So does a file that is given up. -/
theorem Mod.dropFile_plan_tan (m : Mod) (f : FileOpen) : (m.dropFile f).plan = m.plan ∧ (m.dropFile f).tan = m.tan := by
  unfold Mod.dropFile; dsimp only; split
  · exact Mod.changeHdr_plan_tan _ _
  · exact ⟨rfl, rfl⟩

/-- So does the end of sessions. -/
theorem Mod.endSessions_plan_tan (m : Mod) (p : Session → Bool) : (m.endSessions p).plan = m.plan ∧ (m.endSessions p).tan = m.tan := by
  have fold : ∀ (l : List FileOpen) (k : Mod), (l.foldl Mod.dropFile k).plan = k.plan ∧ (l.foldl Mod.dropFile k).tan = k.tan := by
    intro l
    induction l with
    | nil => intro k; exact ⟨rfl, rfl⟩
    | cons f t ih =>
      intro k
      rw [List.foldl_cons, (ih _).1, (ih _).2]
      exact k.dropFile_plan_tan f
  unfold Mod.endSessions
  exact fold _ _

/-- So does the refusal of the alarm commands that wait. -/
theorem Mod.refuseAlarms_plan_tan (m : Mod) : m.refuseAlarms.plan = m.plan ∧ m.refuseAlarms.tan = m.tan := by
  have one (k : Mod) (c : AlmCmd) : (k.answerAlarm c).plan = k.plan ∧ (k.answerAlarm c).tan = k.tan := by
    unfold Mod.answerAlarm; dsimp only; split <;> exact ⟨rfl, rfl⟩
  have fold : ∀ (l : List AlmCmd) (k : Mod),
      (l.foldl (fun k c => k.answerAlarm { c with status := stNotActive, seq := 0 }) k).plan = k.plan ∧
      (l.foldl (fun k c => k.answerAlarm { c with status := stNotActive, seq := 0 }) k).tan = k.tan := by
    intro l
    induction l with
    | nil => intro k; exact ⟨rfl, rfl⟩
    | cons c t ih =>
      intro k
      rw [List.foldl_cons, (ih _).1, (ih _).2]
      exact one k _
  unfold Mod.refuseAlarms
  exact fold _ _

/-- What follows from ACT having cleared leaves plan and tandem state alone. -/
theorem Mod.actCleared_plan_tan (m : Mod) : m.actCleared.plan = m.plan ∧ m.actCleared.tan = m.tan := by
  unfold Mod.actCleared
  show (m.refuseAlarms.endSessions (·.station)).plan = m.plan ∧ (m.refuseAlarms.endSessions (·.station)).tan = m.tan
  rw [(Mod.endSessions_plan_tan ..).1, (Mod.endSessions_plan_tan ..).2]
  exact m.refuseAlarms_plan_tan

/-- The release of the claim moves, of the tandem's state, the interlock and the mark of the release only. -/
theorem Mod.releaseClaim_plan_tan (m : Mod) : m.releaseClaim.plan = m.plan ∧
    m.releaseClaim.tan = { m.tan with ilk := m.tan.ilk.release m.mono, releaseMark := m.tan.releaseMark || m.tan.ilk.act } := by
  unfold Mod.releaseClaim; dsimp only; split
  · exact ⟨(Mod.actCleared_plan_tan _).1, (Mod.actCleared_plan_tan _).2⟩
  · exact ⟨rfl, rfl⟩

/-- A role taken leaves the plan alone. -/
theorem Mod.setRole_plan (m : Mod) (r : Role) : (m.setRole r).plan = m.plan := by
  unfold Mod.setRole; dsimp only; split
  · rfl
  · unfold Mod.setJrn; dsimp only; split
    · rfl
    · split <;> rfl

/-- A frame on the twin link moves its sequence number only. -/
theorem Mod.sendTl_frame (m : Mod) (n : Nat) (o : Bytes → Out) (b : Bytes) : (m.sendTl n o b).change = m.change ∧
    (m.sendTl n o b).plan = m.plan ∧ (m.sendTl n o b).tan = { m.tan with lseq := (m.sendTl n o b).tan.lseq } := by
  unfold Mod.sendTl; split <;> exact ⟨rfl, rfl, rfl⟩

/-- `DETACHED` leaves the plan and what waits for it alone; the module has that role and the reason. -/
theorem Mod.detach_frame (m : Mod) (n : Nat) : (m.detach n).plan = m.plan ∧ (m.detach n).tan.sh.waiting = m.tan.sh.waiting ∧
    (m.detach n).tan.role = .detached ∧ (m.detach n).tan.detach = n := by
  have h1 : (if m.tan.ilk.ownClaim = true then m.releaseClaim else m).plan = m.plan ∧
      (if m.tan.ilk.ownClaim = true then m.releaseClaim else m).tan.sh = m.tan.sh := by
    split
    · rw [(Mod.releaseClaim_plan_tan m).1, (Mod.releaseClaim_plan_tan m).2]; exact ⟨rfl, rfl⟩
    · exact ⟨rfl, rfl⟩
  unfold Mod.detach
  generalize (if m.tan.ilk.ownClaim = true then m.releaseClaim else m) = m1 at h1 ⊢
  rw [← h1.1, ← h1.2, ← Mod.setRole_plan m1 .detached]
  have hs : (m1.setRole .detached).tan = { m1.tan with role := .detached } := Mod.setRole_tan m1 .detached
  dsimp only [Mod.orderStart, Mod.cmdDone, Mod.control, Mod.updTan]
  split <;> split <;> simp only [(Mod.sendTl_frame ..).2.1] <;> try rw [(Mod.sendTl_frame ..).2.2]
  all_goals simp only [hs]; exact ⟨trivial, trivial, trivial, trivial⟩

/-- A judged link leaves the plan and what waits for it alone. -/
theorem Mod.judgeLink_frame (m : Mod) : m.judgeLink.plan = m.plan ∧ m.judgeLink.tan.sh.waiting = m.tan.sh.waiting := by
  unfold Mod.judgeLink; dsimp only
  repeat' split
  all_goals first | exact ⟨(m.detach_frame _).1, (m.detach_frame _).2.1⟩ | exact ⟨rfl, rfl⟩

end Sys2Proof.Machine
end

