-- ==== Sys2Proof/Laws/SMap.lean ====
section
/-! SUPPORT. The laws of tables: a read after a write, and the canonical form kept by every operation. -/

namespace Sys2Proof.Machine

variable {α : Type} [DecidableEq α] {d : α}

theorem SMap.wfFrom_mono {m : SMap α} {lo lo' : Nat} (h : SMap.wfFrom d lo m = true) (hl : lo' ≤ lo) :
    SMap.wfFrom d lo' m = true := by
  cases m with
  | nil => rfl
  | cons e t =>
    obtain ⟨k, v⟩ := e
    simp only [SMap.wfFrom, Bool.and_eq_true, decide_eq_true_eq] at h ⊢
    exact ⟨⟨Nat.le_trans hl h.1.1, h.1.2⟩, h.2⟩

theorem SMap.get_below {m : SMap α} {lo a : Nat} (h : SMap.wfFrom d lo m = true) (ha : a < lo) : SMap.get d m a = d := by
  cases m with
  | nil => rfl
  | cons e t =>
    obtain ⟨k, v⟩ := e
    simp only [SMap.wfFrom, Bool.and_eq_true, decide_eq_true_eq] at h
    have : a < k := Nat.lt_of_lt_of_le ha h.1.1
    simp [SMap.get, this, Nat.ne_of_lt this]

theorem SMap.filter_wfFrom {m : SMap α} {lo : Nat} (p : Nat × α → Bool) (h : SMap.wfFrom d lo m = true) :
    SMap.wfFrom d lo (m.filter p) = true := by
  induction m generalizing lo with
  | nil => rfl
  | cons e t ih =>
    obtain ⟨k, v⟩ := e
    simp only [SMap.wfFrom, Bool.and_eq_true, decide_eq_true_eq] at h
    simp only [List.filter_cons]
    split
    · simp only [SMap.wfFrom, Bool.and_eq_true, decide_eq_true_eq]
      exact ⟨h.1, ih h.2⟩
    · exact SMap.wfFrom_mono (ih h.2) (by omega)
/-- A write keeps the canonical form. -/
theorem SMap.set_wfFrom {m : SMap α} {lo a : Nat} {x : α} (h : SMap.wfFrom d lo m = true) (ha : lo ≤ a) :
    SMap.wfFrom d lo (SMap.set d m a x) = true := by
  induction m generalizing lo with
  | nil => unfold SMap.set; split <;> simp_all [SMap.wfFrom]
  | cons e t ih =>
    obtain ⟨k, v⟩ := e
    have h' := h
    simp only [SMap.wfFrom, Bool.and_eq_true, decide_eq_true_eq] at h
    unfold SMap.set
    split
    · split
      · exact h'
      · simp only [SMap.wfFrom, Bool.and_eq_true, decide_eq_true_eq]
        exact ⟨⟨ha, by assumption⟩, ⟨⟨by omega, h.1.2⟩, h.2⟩⟩
    · split
      · split
        · exact SMap.wfFrom_mono (SMap.filter_wfFrom _ h.2) (by omega)
        · simp only [SMap.wfFrom, Bool.and_eq_true, decide_eq_true_eq]
          exact ⟨⟨h.1.1, by assumption⟩, h.2⟩
      · simp only [SMap.wfFrom, Bool.and_eq_true, decide_eq_true_eq]
        exact ⟨h.1, ih h.2 (by omega)⟩

/-- Taking the entries up to a key out leaves every read at a higher key as it was, and reads the default up to it. -/
theorem SMap.get_above (m : SMap α) (k b : Nat) :
    SMap.get d (m.filter fun e => decide (k < e.1)) b = if k < b then SMap.get d m b else d := by
  induction m with
  | nil => simp [SMap.get]
  | cons e t ih =>
    obtain ⟨j, v⟩ := e
    simp only [List.filter_cons, decide_eq_true_eq]
    split
    · simp only [SMap.get, ih]
      split_ifs <;> first | rfl | omega
    · rw [ih]
      simp only [SMap.get]
      split_ifs <;> first | rfl | omega

/-- A write keeps the canonical form. -/
theorem SMap.set_wf {m : SMap α} (a : Nat) (x : α) (h : SMap.wf d m = true) : SMap.wf d (SMap.set d m a x) = true :=
  SMap.set_wfFrom h (Nat.zero_le _)
/-- A read after a write. -/
theorem SMap.get_set {m : SMap α} (a b : Nat) (x : α) :
    SMap.get d (SMap.set d m a x) b = if b = a then x else SMap.get d m b := by
  induction m with
  | nil =>
    unfold SMap.set
    split <;> rename_i hx
    · simp only [SMap.get, hx]; split <;> rfl
    · simp only [SMap.get]; split_ifs <;> rfl
  | cons e t ih =>
    obtain ⟨k, v⟩ := e
    unfold SMap.set
    by_cases h1 : a < k
    · rw [if_pos h1]
      by_cases hx : x = d
      · rw [if_pos hx]; simp only [SMap.get]; split_ifs <;> first | rfl | omega | simp_all
      · rw [if_neg hx]; simp only [SMap.get]; split_ifs <;> first | rfl | omega
    · rw [if_neg h1]
      by_cases h2 : a = k
      · rw [if_pos h2]
        by_cases hx : x = d
        · rw [if_pos hx, SMap.get_above]; simp only [SMap.get]; split_ifs <;> first | rfl | omega | simp_all
        · rw [if_neg hx]; simp only [SMap.get]; split_ifs <;> first | rfl | omega
      · rw [if_neg h2]; simp only [SMap.get, ih]; split_ifs <;> first | rfl | omega
/-- A write of a list keeps the canonical form. -/
theorem SMap.setList_wf {m : SMap α} (a : Nat) (l : List α) (h : SMap.wf d m = true) : SMap.wf d (SMap.setList d m a l) = true := by
  induction l generalizing m a with
  | nil => exact h
  | cons x t ih => exact ih (a + 1) (SMap.set_wf a x h)
/-- An erasure keeps the canonical form. -/
theorem SMap.erase_wf {m : SMap α} (lo hi : Nat) (h : SMap.wf d m = true) : SMap.wf d (SMap.erase m lo hi) = true :=
  SMap.filter_wfFrom _ h

omit [DecidableEq α] in
/-- A run of keys lies between its ends. -/
theorem enumFrom_bounds {l : List α} {a : Nat} : ∀ e ∈ enumFrom a l, a ≤ e.1 ∧ e.1 < a + l.length := by
  induction l generalizing a with
  | nil => simp [enumFrom]
  | cons x t ih =>
    intro e he
    simp only [enumFrom, List.mem_cons] at he
    rcases he with rfl | he
    · exact ⟨Nat.le_refl _, by simp⟩
    · have := ih e he
      simp only [List.length_cons]
      omega
omit [DecidableEq α] in
/-- Entries below a key do not matter to it. -/
theorem SMap.get_skip {p m : SMap α} {a : Nat} (h : ∀ e ∈ p, e.1 < a) : SMap.get d (p ++ m) a = SMap.get d m a := by
  induction p with
  | nil => rfl
  | cons e t ih =>
    have he := h e (List.mem_cons_self ..)
    obtain ⟨k, v⟩ := e
    simp only [List.cons_append, SMap.get, show ¬ a = k by simp at he; omega, show ¬ a < k by simp at he; omega, if_false]
    exact ih fun e h' => h e (List.mem_cons_of_mem _ h')
omit [DecidableEq α] in
/-- A stored run of values is read back, whatever stands below and above it. -/
theorem SMap.getList_run (l : List α) (p q : SMap α) (a : Nat) (h : ∀ e ∈ p, e.1 < a) :
    SMap.getList d (p ++ (enumFrom a l ++ q)) l.length a = l := by
  induction l generalizing p a with
  | nil => rfl
  | cons x t ih =>
    have e : p ++ (enumFrom a (x :: t) ++ q) = (p ++ [(a, x)]) ++ (enumFrom (a + 1) t ++ q) := by simp [enumFrom]
    simp only [List.length_cons, SMap.getList]
    rw [e, ih _ _ (by intro e he; rcases List.mem_append.1 he with h' | h'; · have := h e h'; omega
                      · rw [List.mem_singleton.1 h']; simp), ← e, SMap.get_skip h]
    simp [enumFrom, SMap.get]

end Sys2Proof.Machine
end

