-- ==== Sys2Proof/WellFormed.lean ====
section
/-! DEFINITION. The shape that a command's operands must have: numbers within the ranges that the rules give them, and messages
of the lengths that their layouts give. -/

namespace Sys2Proof

/-- The operands of a command are within the ranges that its rule gives them. -/
def Instr.wf : Instr → Bool
  | .alarmOnDelayExpiry p => decide (p < 16384)
  | .alarmOffDelayExpiry p => decide (p < 16384)
  | .shelvingExpiry p => decide (p < 16384)
  | .foCandidate b => decide (4 ≤ b.length)
  | .foDecided b => decide (4 ≤ b.length)
  | .foReset b => decide (b.length = 4)
  | .actAtMessage b => decide (b.length = 40)
  | .bellFrame b => decide (b.length = 76)
  | .siCycle x => decide (x.samples.length = 25)
  | .relay _ _ d => decide (d.length ≤ 1024)
  | .frameReceive f => decide (14 ≤ f.len)
  | .spokeInFrame _ _ _ n _ b => decide (1 ≤ n) && decide (n ≤ 256) && decide (b.length ≤ 252)
  | .spokeMgmtReply _ _ (.object _ _ d) => decide (d.length ≤ 255)
  | .ptpSync h _ => decide (h.domain ≤ 255)
  | .ptpAnnounce a => decide (a.h.domain ≤ 255)
  | .ptpDelayMessage _ _ _ h _ => decide (h.domain ≤ 255)
  | .ptpManagement _ _ h => decide (h.domain ≤ 255)
  | .spokeNodeLost n => decide (1 ≤ n) && decide (n ≤ 256)
  | .spokeDelayRecheck n => decide (1 ≤ n) && decide (n ≤ 256)
  | .canFrameReceived _ f => decide (f.data.length ≤ 64)
  | .canTxtmoExpiry _ o => decide (o < 64)
  | .canRtmoExpiry _ o => decide (o < 256)
  | .diFilterChange _ l => decide (l.length ≤ 65535)
  | .hartPtReq _ d => decide (d.length ≤ 256)
  | .eapRead _ t items => decide (t ≤ 256) && decide (1 ≤ items.length) && decide (items.length ≤ 16)
  | .eapWrite _ t items => decide (t ≤ 256) && decide (1 ≤ items.length)
  | .fileBlock _ _ (.write _ d) => decide (d.length ≤ 1024)
  | .fileBlock _ _ (.read _ _) => true
  | .ownerKeyEnrol _ k => decide (k.length = 64)
  | _ => true

end Sys2Proof
end

