-- ==== Sys2Proof/Tests/Slice0.lean ====
section
/-! SUPPORT. The model's own tests: an ill-formed command for each check, commands on a small state with the values that the spec works
out, and for each statement with hypotheses a state and operands that meet them. -/

namespace Sys2Proof.Tests

open Sys2Proof.Machine

/-! Ill-formed commands, one for each check. -/

def rq : Req := ⟨1, 7⟩
def frame0 : RxFrame := { port := 0, len := 13, pcp := none, etherType := 0x0806, udpDst := none, dst := 0, src := 0, rctSeq := none, fcsOk := true, payload := [] }

/-- Point numbers end at 16,383 (R248). -/
theorem test_wf_on_delay : (Instr.alarmOnDelayExpiry 16384).wf = false := by decide
theorem test_wf_off_delay : (Instr.alarmOffDelayExpiry 16384).wf = false := by decide
theorem test_wf_shelving : (Instr.shelvingExpiry 16384).wf = false := by decide
/-- First-out messages carry at least their head; FO_RESET has 4 bytes (R269). -/
theorem test_wf_fo_candidate : (Instr.foCandidate [1, 2, 3]).wf = false := by decide
theorem test_wf_fo_decided : (Instr.foDecided [1, 2, 3]).wf = false := by decide
theorem test_wf_fo_reset : (Instr.foReset [3, 0, 0, 0, 0]).wf = false := by decide
/-- An act-at-time message has 40 bytes (R305). -/
theorem test_wf_act_at : (Instr.actAtMessage (List.replicate 39 0)).wf = false := by decide
/-- A bell frame has 64 bytes, in a twin-link frame of 76 (R326, R329). -/
theorem test_wf_bell : (Instr.bellFrame (List.replicate 64 0)).wf = false := by decide
/-- A relayed block has at most 1,024 bytes (R573). -/
theorem test_wf_relay : (Instr.relay (.slot 0) 0 (List.replicate 1025 0)).wf = false := by simp only [Instr.wf, List.length_replicate]; decide
/-- A frame has at least its Ethernet header. -/
theorem test_wf_frame : (Instr.frameReceive frame0).wf = false := by decide
/-- Node numbers of the Spoke link run from 1 to 256 (R410); a reply's data length is one byte (R409). -/
theorem test_wf_spoke_in : (Instr.spokeInFrame 0 false ⟨0, 0⟩ 257 0 []).wf = false := by decide
theorem test_wf_spoke_mgmt : (Instr.spokeMgmtReply 0 7 (.object false 0 (List.replicate 256 0))).wf = false := by
  simp only [Instr.wf, List.length_replicate]; decide
/-- A PTP domain number is one byte (IEEE 1588-2019). -/
def ptpRx (domain : Nat) : PtpRx := ⟨domain, false, 0, 9, 0, 0, 0⟩
theorem test_wf_ptp_sync : (Instr.ptpSync (ptpRx 256) ⟨0, 0, 0⟩).wf = false := by decide
theorem test_wf_ptp_delay : (Instr.ptpDelayMessage 0 true true (ptpRx 256) 0).wf = false := by decide
theorem test_wf_ptp_management : (Instr.ptpManagement 0 true (ptpRx 256)).wf = false := by decide
theorem test_wf_spoke_lost : (Instr.spokeNodeLost 0).wf = false := by decide
theorem test_wf_spoke_recheck : (Instr.spokeDelayRecheck 257).wf = false := by decide
/-- CAN data has at most 64 bytes, 64 transmit and 256 receive objects (R431, R435). -/
theorem test_wf_can_frame : (Instr.canFrameReceived 0 ⟨0, false, true, false, false, List.replicate 65 0⟩).wf = false := by decide
theorem test_wf_can_txtmo : (Instr.canTxtmoExpiry 0 64).wf = false := by decide
theorem test_wf_can_rtmo : (Instr.canRtmoExpiry 0 256).wf = false := by decide
/-- A pass-through request has at most 256 bytes (R494). -/
theorem test_wf_hart : (Instr.hartPtReq rq (List.replicate 257 0)).wf = false := by simp only [Instr.wf, List.length_replicate]; decide
/-- A READ has 1 to 16 items, a WRITE at least one (R567). -/
theorem test_wf_read : (Instr.eapRead rq 0 []).wf = false := by decide
theorem test_wf_write : (Instr.eapWrite rq 0 []).wf = false := by decide
/-- A block has at most 1,024 bytes, a P-256 key 64 (R571, R48). -/
theorem test_wf_block : (Instr.fileBlock rq 1 (.write 0 (List.replicate 1025 0))).wf = false := by simp only [Instr.wf, List.length_replicate]; decide
theorem test_wf_key : (Instr.ownerKeyEnrol rq (List.replicate 63 0)).wf = false := by decide

/-! Small states: a module that runs, one that holds ACT, one in which a session of role SERVICE is open on P5. -/

def up : Mod := { boot := { inReset := false, state := 5 }, cas := { running := true }, clk := { override := false } }
def solo : Mod := { up with tan := { role := .solo, ilk := { act := true, peer := .unclaimed } } }
def boss : Session := { id := 1, port := 2, station := false, role := 4, lastAt := 0 }
def heardBy (m : Mod) : Mod := { m with eap := { m.eap with sessions := [boss] } }
def on (m : Mod) : State := { m := m }
def inMaint (m : Mod) : Mod := { m with boot := { m.boot with state := 6 } }

/-- A request is heard; a COMMAND is admitted. -/
theorem wit_heard : heard (heardBy up) rq boss ∧ heard (inMaint (heardBy up)) rq boss := ⟨⟨rfl, rfl, rfl⟩, rfl, rfl, rfl⟩
theorem wit_admitted : admitted (heardBy solo) rq boss 9 3 false false ∧ admitted (inMaint (heardBy up)) rq boss 12 4 true true :=
  ⟨⟨⟨rfl, rfl, rfl⟩, by decide, by decide, by decide, rfl⟩, ⟨rfl, rfl, rfl⟩, by decide, by decide, by decide, rfl⟩

/-! Witnesses: for each statement with hypotheses, a state and operands that meet them. -/

/-- EmptyQueueIdlesOneRootCycle, CeInstructionTouchesEngineOnly. -/
theorem wit_queue_and_lane : (on up).pending = [] ∧ ceLaneOf (.ceNop 3) = some 3 := ⟨rfl, rfl⟩
/-- TablesReadBackAndHaveOneForm: an empty table and one with entries are in canonical form. -/
theorem wit_words : SMap.wf (0 : BitVec 32) ({} : Ce).words = true ∧ SMap.wf (0 : Nat) [(3, 1), (7, 2)] = true := by decide

def traced : Mod := { up with ce := { trc := { chs := [{ src := 1, lnum := 0 }] } } }
def looped : Mod := { up with ce := { cfg := [{ lnum := 0 }] } }
/-- CeBranchPortsTablesTraceEnd: a channel of the lane's loop and one of none; a lane with a configured loop and one without. -/
theorem wit_trace_end :
    ((at_ up.ce.trc.chs 0 {}).src ≠ 1 ∧ (at_ traced.ce.trc.chs 0 {}).src = 1 ∧ (at_ traced.ce.trc.chs 0 {}).lnum = (traced.ce.lane 0).loop) ∧
    up.ce.loopCfg ((laneStep up.ce 0 1 id).lane 0).loop = none ∧ (looped.ce.loopCfg ((laneStep looped.ce 0 1 id).lane 0).loop).isSome = true := by
  decide

def tabbed : Mod := { heardBy solo with ce := { tabSt := List.replicate 16 { present := true, fresh := true }, trc := { state := 1 },
                                                cfg := [{ lnum := 511 }] } }
/-- CeTableTraceAndCounterRequests. -/
theorem wit_table_trace : heard tabbed rq boss ∧ 3 ≤ boss.role ∧ tabbed.maint = false ∧ tabbed.changing = false ∧
    (at_ tabbed.ce.tabSt 15 {}).pending = false ∧ (at_ tabbed.ce.tabSt 15 {}).fresh = true ∧ tabbed.partnerFollows = false ∧
    tabbed.act = true ∧ tabbed.readingFile .trace = false ∧ tabbed.ce.trc.state = 1 ∧ (tabbed.ce.loopCfg 511).isSome = true :=
  ⟨⟨rfl, rfl, rfl⟩, by decide⟩

/-- RestartCommandsOrderTheirStart, outside MAINTENANCE and in it. -/
theorem wit_restart : admitted (heardBy up) rq boss 0 3 false true ∧ admitted (inMaint (heardBy up)) rq boss 0 3 false true ∧
    4 ≤ boss.role ∧ (heardBy up).changing = false ∧ (heardBy up).alone = false ∧ (heardBy solo).alone = true :=
  ⟨⟨⟨rfl, rfl, rfl⟩, by decide, by decide, by decide, rfl⟩, ⟨⟨rfl, rfl, rfl⟩, by decide, by decide, by decide, rfl⟩, by decide⟩

def slotted : Mod := { heardBy up with cas := { running := true, hdr := { active := 0, previous := 7, slots := List.replicate 8 { st := 2 } } } }
/-- ActivateAndRollbackSwitchTheImage: slots 1 and 7 of eight VALID ones. -/
theorem wit_activate : admitted slotted rq boss 1 3 false true ∧ admitted slotted rq boss 2 3 false false ∧ slotted.changing = false ∧
    slotted.tandemForbids boss = false ∧ (slotted.cas.hdr.slot 1).st = 2 ∧ 1 ≠ slotted.cas.hdr.active ∧ slotted.needsBoth = false ∧
    slotted.maint = false ∧ slotted.cas.hdr.previous < 8 ∧ (slotted.cas.hdr.slot 7).st = 2 :=
  ⟨⟨⟨rfl, rfl, rfl⟩, by decide, by decide, by decide, rfl⟩, ⟨⟨rfl, rfl, rfl⟩, by decide, by decide, by decide, rfl⟩, by decide⟩

def faulty : Mod := { heardBy up with
  tasks := List.replicate 16 { halted := true }, cans := List.replicate 4 { st := .busOff }
  dio := { ch := List.replicate 32 { latched := true } }, tan := { role := .detached, detach := 8 } }
/-- FaultResetsClearTheirCondition: the last unit of each scope; the roles DETACHED and FAILED. -/
theorem wit_fault_reset : admitted faulty rq boss 5 2 false false ∧ (faulty.task 15).halted = true ∧ (faulty.can 3).st = .busOff ∧
    (faulty.dioCh 31).latched = true ∧ faulty.tan.role = .detached ∧ faulty.tan.detach = 8 ∧
    ({ faulty with tan := { role := .failed } } : Mod).tan.role = .failed :=
  ⟨⟨⟨rfl, rfl, rfl⟩, by decide, by decide, by decide, rfl⟩, by decide⟩

def banked : Mod := { heardBy up with
  bankB := { boot := { good := true, kind := 1 }, main := { good := true, kind := 2 }, si := { good := true, kind := 3 } }
  cas := { present := true }, sup := { holdupReady := true } }
/-- BankAndOwnerKeyCommands. -/
theorem wit_bank : admitted banked rq boss 10 4 false true ∧ admitted banked rq boss 11 4 true true ∧
    admitted (inMaint banked) rq boss 11 4 true true ∧
    (banked.bankB.boot.good && banked.bankB.main.good && banked.bankB.si.good && banked.bankB.valid banked.otp.hwRev) = true ∧
    banked.cas.present = true ∧ banked.cas.keyErased = true ∧ banked.sup.mayWrite = true ∧ banked.sup.mayErase = true :=
  ⟨⟨⟨rfl, rfl, rfl⟩, by decide, by decide, by decide, rfl⟩, ⟨⟨rfl, rfl, rfl⟩, by decide, by decide, by decide, rfl⟩,
   ⟨⟨rfl, rfl, rfl⟩, by decide, by decide, by decide, rfl⟩, by decide⟩

def alarmSec : AlarmsCfg := { points := [{ pid := 9, pnum := 16383, shelvable := true }], fgrps := [{ gnum := 5 }] }
def alarmed (p : Pt) : Mod :=
  { heardBy solo with ae := { running := true, pts := [p], sgs := [{ left := some 3 }], fos := [{}], cfg := alarmSec } }
/-- AlarmTimersMoveTheirPoint: a condition that waits to be taken over, one that waits to go, a shelved point, a group in release. -/
theorem wit_alarm_timers : (alarmed { c := true }).live = true ∧ (alarmed { c := true }).ptIndex 16383 = some 0 ∧
    (alarmed { c := true }).executing = true ∧ ((alarmed { c := true }).pt 0).c = true ∧ ((alarmed { c := true }).pt 0).a = false ∧
    ((alarmed { a := true }).pt 0).a = true ∧ ((alarmed { shelved := some 60000 }).pt 0).shelved = some 60000 ∧
    (at_ (alarmed {}).ae.sgs 0 {}).left = some 3 ∧ (alarmed {}).ptIndex 16382 = none ∧ (at_ (alarmed {}).ae.sgs 255 {}).left = none := by decide
/-- AlarmCommandsChangeTheirPoint. -/
theorem wit_alarm_commands : admitted (alarmed {}) rq boss 6 2 false false ∧ (alarmed {}).act = true ∧
    (alarmed {}).ae.cmds.any (fun c => c.rq == rq) = false ∧ (alarmed {}).ptIndex 16383 = some 0 ∧ (alarmed {}).foIndex 5 = some 0 ∧
    ({ vis := 3, occ := 2 } : Pt).hidden = false ∧ ({ pid := 9, pnum := 0, shelvable := true, shlvmax := 60 } : PtCfg).shelvable = true ∧
    ({ shelved := some 1, oos := true } : Pt).shelved.isSome = true ∧ ({ oos := true } : Pt).oos = true :=
  ⟨⟨⟨rfl, rfl, rfl⟩, by decide, by decide, by decide, rfl⟩, by decide⟩

def foAe : Ae := { cfg := { fgrps := [{ gnum := 5, part := [4, 7] }] }, fos := [{ settleAt := some 8, partialAt := some 9 }] }
def foMod (node : Nat) : Mod := { solo with cfg := { ident := { node := node } }, ae := foAe }
/-- FirstOutMessagesAndDecisions: the arbiter of a group and another participant. -/
theorem wit_first_out : (foMod 4).live = true ∧ (foMod 4).act = true ∧ (foMod 4).foIndex (field [1, 5, 0, 0] 1 1) = some 0 ∧
    (foMod 4).foArbiter 0 = true ∧ (foMod 7).foArbiter 0 = false ∧
    BitVec.ofNat 16 (field [2, 5, 0, 0] 2 2) = (at_ (foMod 7).ae.fos 0 {}).epoch ∧
    (at_ (foMod 4).ae.fos 0 {}).settleAt = some 8 ∧ (at_ (foMod 4).ae.fos 0 {}).partialAt = some 9 := by decide

def master0 : Announce :=
  { port := 0, gmId := 5, senderId := 5, prio1 := 128, clsQ := 6, accuracy := 0x21, variance := 0, prio2 := 128, stepsRemoved := 0,
    utcOffset := 37, utcValid := false, leap61 := false, leap59 := true, traceable := true }
def ptpC : PtpCfg := { ports := 7, annTmo := 3 }
def ptpMod (c : PtpCfg) (p : Ptp) : Mod := { heardBy up with cfg := { netc := { ptp := some c } }, ptp := p }
def follows : Ptp := { parent := some master0, foreign := [{ ann := master0, at_ := 9, before := none }], quality := .holdover }
/-- PtpMessagesActByTheModulesRole: each profile; a port that leads and one that follows; each kind; a parent heard; time in holdover. -/
theorem wit_ptp :
    (ptpMod ptpC follows).ptpOn 0 = some ptpC ∧ (ptpMod ptpC follows).ptp.parent = some master0 ∧
    (ptpMod { ptpC with profile := 1 } follows).ptpOn 2 = some { ptpC with profile := 1 } ∧
    (ptpMod ptpC { gmSelf := true }).portState 1 = 6 ∧ (ptpMod ptpC follows).portState 0 = 9 ∧
    (ptpMod ptpC { gmSelf := true }).ptpSends ptpC 1 .sync = true ∧ (ptpMod ptpC { gmSelf := true }).ptpSends ptpC 1 .announce = true ∧
    (ptpMod ptpC follows).ptpSends ptpC 0 .delayReq = true ∧
    (ptpMod { ptpC with profile := 1 } {}).ptpSends { ptpC with profile := 1 } 2 .pdelayReq = true ∧
    (ptpMod ptpC follows).live = true ∧ (ptpMod ptpC follows).cas.running = true ∧
    ((ptpMod ptpC follows).announceDue ptpC).isSome = true ∧ (ptpMod ptpC follows).ptp.quality = .holdover ∧
    ((ptpRx 0).domain = ptpC.domain ∧ ¬ (ptpC.profile = 2 ∧ (ptpRx 0).udp = true)) ∧
    ¬ ((ptpRx 1).domain = ptpC.domain ∧ ¬ (ptpC.profile = 2 ∧ (ptpRx 1).udp = true)) ∧
    master0.port = 0 ∧ ({ master0 with senderId := 9 } : Announce).senderId = (ptpRx 0).sender ∧
    ({ ptpC with stepMode := 1 } : PtpCfg).stepMode.getLsbD 0 = true ∧ ptpC.stepMode.getLsbD 0 = false := by decide

def shifted : Mod := { heardBy up with ptp := { leap := -1, shift := some { ns := -5, fromRoot := 0 } } }
/-- TimeCommandsSetSlewAndCarryUtc: the last nanosecond of a second is a valid time; a shift of 1 s backwards. -/
theorem wit_time : admitted shifted rq boss 7 3 false false ∧ dtValid (BitVec.ofNat 96 (999999999 * 2 ^ 16)) = true ∧
    dtValid (BitVec.ofNat 96 (1000000000 * 2 ^ 16)) = false ∧ shifted.ptp.quality = .free ∧
    (BitVec.ofInt 32 (-1000000000)).toInt.natAbs ≤ 1000000000 ∧ shifted.ptp.parent = none ∧ follows.parent = some master0 ∧
    master0.utcValid = false ∧ shifted.live = true ∧ shifted.ptp.shift = some { ns := -5, fromRoot := 0 } ∧ shifted.ptp.leap ≠ 0 :=
  ⟨⟨⟨rfl, rfl, rfl⟩, by decide, by decide, by decide, rfl⟩, by decide⟩

def touMod : Mod := { heardBy up with
  cfg := { tou := [{ unum := 31, route := 0x20 }], tcu := [{ unum := 31, src := 0 }], ident := { node := 4 } }
  tous := List.replicate 32 { armed := true, target := 77, pulseEnd := some 9 } }
/-- TimedOutputsCapturesAndActions: the last unit of each kind; a message to this node, to every node and to another one. -/
theorem wit_timed : touMod.live = true ∧ (touMod.touCfg 31).isSome = true ∧ (at_ touMod.tous 31 {}).armed = true ∧
    (at_ touMod.tous 31 {}).pulseEnd = some 9 ∧ (touMod.tcuCfg 31).map (·.src) = some 0 ∧ touMod.maint = false ∧ touMod.cas.running = true ∧
    (parseActMsg [1, 0, 9, 0, 4, 0]).dest = touMod.cfg.ident.node ∧ (parseActMsg [1, 0, 9, 0, 0, 0]).dest = 0 ∧
    (parseActMsg [1, 0, 9, 0, 5, 0]).dest ≠ 0 ∧ (parseActMsg [1, 0, 9, 0, 5, 0]).dest ≠ touMod.cfg.ident.node ∧
    dtValid (parseActMsg [1, 0, 9, 0, 4, 0]).t = true ∧ dtValid (parseActMsg (List.replicate 40 0xFF)).t = false := by decide

def cycled : Mod := { solo with tasks := List.replicate 16 { running := some { rel := 3, from_ := 100, onAt := some 100 }, pend := [{ rel := 2, at_ := 50, dl := 40 }] } }
/-- CadenceCyclesAndApplyInstants. -/
theorem wit_cadence : cycled.live = true ∧ (cycled.task 15).running = some { rel := 3, from_ := 100, onAt := some 100 } ∧ (up.task 15).running = none ∧
    (({ rel := 3, from_ := 100 } : Cycle).onAt = none) ∧
    (cycled.task 15).pend = [{ rel := 2, at_ := 50, dl := 40 }] ∧ (up.task 15).pend = [] ∧ cycled.cas.running = true := by decide

/-! A configuration image whose sections are as small as R54 to R57 let them be, with its owner key and signature (private key 1). -/

def ownerPub : Bytes :=
  natBe 64 0x6b17d1f2e12c4247f8bce6e563a440f277037d812deb33a0f4a13945d898c2964fe342e2fe1a7f9b8ee7eb4a7c0f9e162bce33576b315ececbb6406837bf51f5
def imgSig : Bytes :=
  natBe 64 0x7cf27b188d034f7e8a52380304b51ac3c08969e277f21b35a60b48fc476699784c87da18c9d26863c02fa2af24f3eef6cc03f3a3169d91058151602196f9180a
def imgHead : Bytes := [72, 67, 70, 71, 0, 1, 7, 0, 1, 0, 0, 0, 80, 2, 0, 0] ++ List.replicate 8 0 ++ [216, 117, 219, 125, 0, 0, 0, 0]
def imgTable : Bytes :=
  [1, 0, 1, 0, 144, 0, 0, 0, 96, 0, 0, 0, 182, 142, 200, 1] ++ [2, 0, 1, 0, 240, 0, 0, 0, 32, 0, 0, 0, 134, 71, 47, 255] ++
  [3, 0, 1, 0, 16, 1, 0, 0, 48, 0, 0, 0, 73, 95, 57, 207] ++ [4, 0, 1, 0, 64, 1, 0, 0, 4, 0, 0, 0, 121, 184, 248, 153] ++
  [5, 0, 1, 0, 80, 1, 0, 0, 192, 0, 0, 0, 242, 8, 255, 139] ++ [13, 0, 1, 0, 16, 2, 0, 0, 0, 0, 0, 0, 0, 0, 0, 0] ++
  [14, 0, 1, 0, 16, 2, 0, 0, 0, 0, 0, 0, 0, 0, 0, 0]
def imgBody : Bytes :=
  [1, 0, 1] ++ List.replicate 93 0 ++ ([0, 0, 0, 0, 255, 255, 255, 255, 0, 0, 0, 0, 255, 255, 255, 255, 65, 90] ++ List.replicate 14 0) ++
  (1 :: List.replicate 47 0) ++ (1 :: List.replicate 207 0)
def image : Bytes := imgHead ++ imgTable ++ imgBody ++ imgSig
def imgMod : Mod := { heardBy solo with
  cas := { running := true, hdr := { active := 0, slots := List.replicate 8 { len := 592 } }
           mem := [] ++ (enumFrom 0x20000 (keyRec ownerPub) ++ (enumFrom (slotBase 1) image ++ [])) }
  change := { phase := 1, slot := 1, cfg := some {} } }
theorem wit_owner_key : imgMod.cas.ownerKey = some (0x7ddb75d8, ownerPub) := by
  have h : imgMod.cas.read 0x20000 76 = keyRec ownerPub :=
    SMap.getList_run (d := erased) (keyRec ownerPub) [] (enumFrom (slotBase 1) image ++ []) 0x20000 (by simp)
  simp only [Cas.ownerKey, h]
  decide +kernel
set_option maxRecDepth 4000 in
theorem wit_slot_image : imgMod.slotImage 1 = image := by
  have h : ∀ e ∈ enumFrom 0x20000 (keyRec ownerPub), e.1 < slotBase 1 := fun e he => by
    have := (enumFrom_bounds e he).2
    have l : (keyRec ownerPub).length = 76 := by decide +kernel
    rw [l] at this
    exact Nat.lt_of_lt_of_le this (by decide)
  exact SMap.getList_run (d := erased) image _ [] (slotBase 1) h
theorem wit_image_passes : imgCheck imgMod.bank.main imgMod.cas.ownerKey (imgMod.slotImage imgMod.change.slot) = none := by
  rw [wit_owner_key, show imgMod.slotImage imgMod.change.slot = image from wit_slot_image]
  decide +kernel
theorem wit_image_planned : imgMod.live = true ∧ imgMod.change.phase = 1 ∧ imgMod.change.cfg = some {} ∧
    checkReqs (imgMod.slotImage imgMod.change.slot) imgMod.fwMain imgMod.bank.si.version imgMod.otp.hwRev imgMod.otp.variantE = true ∧
    ∃ p, imgMod.planChange {} [] = .inl p := by
  rw [show imgMod.slotImage imgMod.change.slot = image from wit_slot_image]
  refine ⟨rfl, rfl, rfl, by decide +kernel, ?_⟩
  have h : (imgMod.planChange {} []).isLeft = true := by
    simp only [Mod.planChange, show imgMod.slotImage imgMod.change.slot = image from wit_slot_image]
    decide +kernel
  exact Sum.isLeft_iff.1 h

def pend0 : PendApply := { rel := 2, at_ := 50, dl := 40 }
def pendIn : PendApply := { pend0 with img := some [], inTime := true }
def applying (m : Mod) (p : PendApply) (halted : Bool) : Mod := { m with tasks := List.replicate 16 { pend := [p], halted := halted } }
/-- ApplyEntryAppliesHoldsOrSkips: each case at task 15, after the entry has left the queue. -/
theorem wit_apply : (applying solo pendIn false).live = true ∧ ((applying solo pendIn false).task 15).pend = [pendIn] ∧
    (({ applying up pend0 false with tasks := [] } : Mod).executing = false) ∧
    (((applying solo pend0 true).toNow 50).updTask 15 fun k => { k with pend := [] }).executing = true ∧
    ((((applying solo pend0 true).toNow 50).updTask 15 fun k => { k with pend := [] }).task 15).halted = true ∧
    ((((applying solo pendIn false).toNow 50).updTask 15 fun k => { k with pend := [] }).task 15).halted = false ∧
    pendIn.img = some [] ∧ pendIn.inTime = true ∧ pend0.img = none ∧ pend0.inTime = false := by decide

def plan0 : Plan := { icrc := 3, fwMain := 5 }
def changing (ph : Nat) (r : Role) (c : Change) : Mod := { up with
  change := { c with phase := ph }, tan := { role := r }, sup := { holdupReady := true }, cas := { up.cas with present := true } }
/-- OnlineChangePhases, OnlineChangeCommandsComplete: phase 2 alone and in a tandem, with and without the header's need, a proposal out and
acknowledged or not, the standby's phases, the proposal numbers 3 and 4, a plan that waits. -/
theorem wit_change :
    (changing 2 .solo { how := 2 }).live = true ∧ (changing 2 .solo { how := 2 }).change.phase = 2 ∧
    ((changing 2 .active { peer := 1 }).tan.role = .active ∧ (changing 2 .active { peer := 1 }).change.peer = 1) ∧
    ((changing 2 .active {}).tan.role = .active ∧ (changing 2 .active {}).change.peer ≠ 1) ∧
    ((changing 4 .active { b := some 90 }).change.b = some 90 ∧ (changing 4 .active { b := some 90 }).change.partnerAck = false ∧
      (changing 4 .active { b := some 90, proposals := 2 }).change.proposals < 3) ∧
    (changing 4 .standby {}).tan.role = .standby ∧ (3#8).toNat < 4 ∧ 4 ≤ (4#8).toNat ∧ (changing 4 .active { bnum := 3 }).change.bnum = 3 ∧
    ({ up with plan := { next := some (plan0, 70) } } : Mod).plan.next = some (plan0, 70) ∧ up.tan.sh.waiting = false := by decide
/-- OnlineChangePhases: a header write that the supply holds back does not fail. -/
theorem wit_change_held :
    ({ ({ changing 2 .solo {} with sup := { belowErase := true } } : Mod).prepTabs with change := { phase := 2 } } : Mod).changeHeader.hdrLost = false ∧
    ({ changing 2 .standby {} with sup := { belowErase := true } } : Mod).changeHeader.hdrLost = false := by decide

def dioMod (u : DioCfg) (h : DioCh) : Mod := { solo with
  cfg := { dio := List.replicate 32 u }
  dio := { ch := List.replicate 32 h, ufOk := [true, true], ufMv := [24000, 24000], dtLast := [0, 0] }
  tb := { mono := phS 2 } }
def inC : DioCfg := { use := 1, fn := 2, stuck := 1 }
def outC : DioCfg := { use := 3, dtest := 1, openload := true }
def driven0 : DioCh := { cmd := true, out := { st := .drive } }
/-- DigitalInputsDebounceAndDiagnose: a diagnosis due and none due; a supply at the ends of its hysteresis. -/
theorem wit_dio_in : (dioMod inC { betweenFrom := some 7, trueFrom := some 9 }).live = true ∧
    ({ betweenFrom := some 7 } : DioCh).flickerDue inC = some (7 + 7 * samplePh) ∧ ({} : DioCh).flickerDue inC = none ∧
    ({ trueFrom := some 9 } : DioCh).stuckDue inC = some (9 + phS 1) ∧ ({} : DioCh).stuckDue inC = none ∧
    ufPresent false 18000 = true ∧ ufPresent true 16999 = false ∧ ufPresent true 17000 = true ∧ ufPresent false 17999 = false := by decide
/-- DigitalOutputsProtectAndTestTheirStages: each clause's case, for a channel of its own and a paralleled one. -/
theorem wit_dio_out :
    (dioMod outC driven0).dioDriven 31 = true ∧ (dioMod outC {}).dioDriven 31 = false ∧
    ((dioMod outC { latched := true, cmdFalseFrom := some 5 }).dioCh 31).latched = true ∧
    (dioMod outC driven0).parallel 31 = false ∧ (dioMod outC { level := true }).extDriveSeen 31 = true ∧ (dioMod outC {}).extDriveSeen 31 = false ∧
    ({ dioMod { outC with use := 4 } {} with tan := {} } : Mod).parallel 31 = true ∧
    (({ dioMod { outC with use := 4 } { level := true } with tan := {} } : Mod).noteExpected 31).extDriveSeen 31 = true ∧
    (({ dioMod { outC with use := 4 } {} with tan := {} } : Mod).noteExpected 31).extDriveSeen 31 = false ∧
    ((({ dioMod { outC with use := 4 } {} with tan := {} } : Mod).noteExpected 31).dioCh 31).expected = false ∧
    ((dioMod outC { extDrive := true }).dioCh 31).extDrive = true ∧
    (dioMod outC driven0).darkAllowed 31 = true ∧ (dioMod outC {}).darkAllowed 31 = false ∧
    ((dioMod outC { testFrom := some 3 }).dioCh 31).testFrom = some 3 := by decide

def pulsed : Mod := { up with
  cfg := { pi := List.replicate 8 { use := 1 }, enc := List.replicate 4 { kind := 1 } }
  dio := { pi := List.replicate 8 { newest := some 6 }, enc := List.replicate 4 { invalidAt := some 7, ssiFrom := some 8 } } }
/-- PulseAndEncoderInputsCount. -/
theorem wit_pulse : pulsed.live = true ∧ (pulsed.piCfg 7).use = 1 ∧ (up.piCfg 7).use ≠ 1 ∧ (at_ pulsed.dio.pi 7 {}).newest = some 6 ∧
    (at_ up.dio.pi 7 {}).newest = none ∧ (pulsed.encCfg 3).kind = 1 ∧ (at_ pulsed.dio.enc 3 {}).invalidAt = some 7 ∧
    (at_ up.dio.enc 3 {}).invalidAt = none ∧ (at_ pulsed.dio.enc 3 {}).ssiFrom = some 8 ∧ (at_ up.dio.enc 3 {}).ssiFrom = none := by decide

def analogue : Mod := { up with cfg := { ai := List.replicate 16 { use := 1 } }
                                an := { ai := List.replicate 16 { lsThermal := true }, ao := List.replicate 8 { compliance := true } } }
/-- AnalogueChannelsConvertSenseAndProtect. -/
theorem wit_analogue : analogue.live = true ∧ (analogue.aiCfg 15).use ≠ 0 ∧ (up.aiCfg 15).use = 0 ∧ (analogue.aiCh 15).lsThermal = true ∧
    analogue.an.shed = false ∧ (up.aiCh 15).lsThermal = false ∧ (analogue.aoCh 7).compliance = true ∧ (up.aoCh 7).compliance = false := by decide

def hartC (burst : Bool) : HartCfg :=
  { ao := false, ch := 0, acceptBurst := burst, checkId := false, poll := 0, expdt := 0, mfr := 0, devid := 0, scan := 3, retry := 1, scanPer := 10 }
def harted (d : HartDev) (burst : Bool) (pt : Option HartPt) : Mod := { heardBy solo with cfg := { hart := [hartC burst] }, an := { hart := [d], pt := pt } }
def passed0 : HartPt := { entry := 0, cmd := 3, tag := 1, data := [], due := 9 }
def rsp (c : BitVec 8) : HartRsp := { cmd := c, rc := 0, devStat := 0, data := [], mfr := 1, expDt := 1, devId := 1, dv := [] }
/-- HartDevicesAnswerFailAndPassThrough: the last entry, and one of none; a response to the command in progress and to another; a request with
no data for a device that is not LOST. -/
theorem wit_hart :
    (harted {} true none).live = true ∧ 0 < (harted {} true none).an.hart.length ∧ (harted {} true none).an.hart.length ≤ 23 ∧
    ((harted {} true none).hartDev 0).trans = none ∧ (harted {} true none).act = true ∧ ({ harted {} true none with tan := {} } : Mod).act = false ∧
    ((harted { trans := some .ident } true none).hartDev 0).trans = some .ident ∧
    (hartCmd (hartC true) .ident none).1 = (rsp 0).cmd ∧ (hartCmd (hartC true) .ident none).1 ≠ (rsp 3).cmd ∧
    ((harted {} true none).hartCfg 0).acceptBurst = true ∧ ((harted {} false none).hartCfg 0).acceptBurst = false ∧
    ((harted { st := 3, reidentAt := some 4, scanAt := some 5 } true none).hartDev 0).reidentAt = some 4 ∧
    heard (harted {} true none) rq boss ∧ (harted {} true none).maint = false ∧
    ([0, 3, 0, 1] : Bytes).length = 4 + (at_ ([0, 3, 0, 1] : Bytes) 2 0).toNat ∧
    (at_ ([0, 3, 0, 1] : Bytes) 0 0).toNat < (harted {} true none).cfg.hart.length ∧ ((harted {} true none).hartDev 0).st ≠ 3 ∧
    (harted {} true none).an.pt = none ∧ (harted {} true (some passed0)).an.pt = some passed0 :=
  ⟨rfl, by decide, by decide, rfl, rfl, rfl, rfl, by decide, by decide, rfl, rfl, rfl, ⟨rfl, rfl, rfl⟩, by decide⟩

def canTx0 : CanTxSess := { obj := 0, fast := false, dst := 5, pgn := 0, prio := 3, data := [], next := 1, phase := 0, due := 6 }
def canned (k : Can) : Mod := { solo with cans := List.replicate 4 k, cfg := { can := { ctrls := List.replicate 4 { cen := true, rx := [{ id := 5, ide := false, classic := true, fd := true, svc := false, fastpkt := false, rtmo := 0, fields := [] }] } } } }
def frame5 : CanFrame := { id := 5, ide := false, fd := false, brs := false, remote := false, data := [] }
/-- CanFramesMoveThroughTheirObjects: a frame that an object stores and one that none does; a transmission with and without a frame on the bus;
a controller under test; timers armed and not; the override. -/
theorem wit_can :
    (canned {}).live = true ∧ (canned {}).clk.override = false ∧ (canned {}).testing 12 = false ∧
    ({ canned {} with eth := { lt := { link := 12, st := 1 } } } : Mod).testing 12 = true ∧
    (((canned { st := .active, rx := [{}] }).can 3).receive ((canned {}).canCfg 3) [] frame5 true 0 0 0).2 = some 0 ∧
    (((canned { st := .active, rx := [{}] }).can 3).receive ((canned {}).canCfg 3) [] { frame5 with id := 6 } true 0 0 0).2 = none ∧
    (((canned {}).can 3).txSuccess ((canned {}).canCfg 3)).2 = none ∧
    ((({ st := .active, onBus := some (.obj 0), tx := [{ st := 2 }] } : Can)).txSuccess
      { tx := [{ id := 5, ide := false, fd := false, brs := false, persistent := false, svc := false, fastpkt := false, dlen := 0, txtmo := 9, fields := [] }] }).2.isSome = true ∧
    (at_ ((canned { tx := [{ due := some 4 }] }).can 3).tx 0 {}).due = some 4 ∧ (at_ ((canned {}).can 3).tx 63 {}).due = none ∧
    (at_ ((canned { rx := [{ due := some 4 }] }).can 3).rx 0 {}).due = some 4 ∧ (at_ ((canned {}).can 3).rx 255 {}).due = none ∧
    ({ canned {} with clk := { override := true } } : Mod).clk.override = true := by decide
/-- CanRecoveryIntegrationAndTransport. -/
theorem wit_can_recovery :
    ((canned { st := .busOff, boffDue := some 8 }).can 3).st = .busOff ∧ ((canned { st := .busOff, boffDue := some 8 }).can 3).boffDue = some 8 ∧
    ((canned {}).can 3).st ≠ .busOff ∧ (canned {}).act = true ∧ ({ canned {} with tan := {} } : Mod).act = false ∧
    ((canned { claimAt := some 3 }).can 3).claimAt = some 3 ∧ ((canned {}).can 3).claimAt = none ∧
    ((canned { txSess := [canTx0] }).can 3).txSess[0]? = some canTx0 ∧ canTx0.phase = 0 ∧
    ((canned { txSess := [{ canTx0 with phase := 2 }] }).can 3).txSess[0]? = some { canTx0 with phase := 2 } ∧
    ((canned { rxSess := [{ fast := true, src := 1, dst := 2, pgn := 3, total := 9, data := [], next := 1, due := 2 }] }).can 3).rxSess[0]?.isSome = true ∧
    ((canned {}).can 3).txSess[0]? = none ∧ ((canned {}).can 3).rxSess[0]? = none := by decide

def clocked (c : Clk) : Mod := { heardBy up with clk := c }
/-- ClockSupervisionForcesAndLeavesTheOverride: counts at both ends of CMON's range and outside it; the gate that completes the
qualification; the switch that ends the override and one that does not; a stalled one. -/
theorem wit_clock :
    (clocked {}).clk.cmonEn = false ∧ (clocked { cmonEn := true, override := false }).clk.cmonEn = true ∧
    (226 ≤ 226 ∧ 226 ≤ 286 ∧ 226 ≤ 286 ∧ 286 ≤ 286) ∧ ¬ (226 ≤ 225 ∧ 225 ≤ 286) ∧ ¬ (226 ≤ 287 ∧ 287 ≤ 286) ∧
    (clocked { pllLocked := true, override := false }).clk.pllLocked = true ∧
    ({ qualifying := true, qualRun := 9, qualFirst := 250000 } : Clk).qualified = false ∧
    (({ qualifying := true, qualRun := 9, qualFirst := 250000 } : Clk).gate 250250).qualified = true ∧
    (({ qualifying := true, qualRun := 8, qualFirst := 250000 } : Clk).gate 250250).qualified = false ∧
    (({ override := true, src := [true, false, false, false, false], switching := [(0, false, 0)] } : Clk).switched 0).override = false ∧
    (({ override := true, src := [true, true, false, false, false], switching := [(0, false, 0)] } : Clk).switched 0).override = true ∧
    (({ switching := [(2, false, 0)] } : Clk).switching.find? fun w => w.1 == domNo .peri) = some (2, false, 0) ∧
    (({} : Clk).switching.find? fun w => w.1 == domNo .peri) = none := by decide
/-- ClockRequestsMeasureSwitchAndGate: both ends of the gate and of the sources; the last domain, to the oscillator in the override. -/
theorem wit_clock_requests :
    heard (inMaint (clocked {})) rq boss ∧ heard (clocked {}) rq boss ∧ 4 ≤ boss.role ∧ (inMaint (clocked {})).maint = true ∧
    ((0x0104#16).toNat % 256 ≤ 4 ∧ (0x0104#16).toNat / 256 ≤ 1 ∧ (0x0004#16).toNat / 256 ≤ 1 ∧ (clocked { override := false }).clk.override = false) ∧
    ((BitVec.ofNat 64 (16 * 2 ^ 32 + 0x0707)).toNat % 256 ≤ 7 ∧ (BitVec.ofNat 64 (16 * 2 ^ 32 + 0x0707)).toNat / 256 % 256 ≤ 7 ∧
      16 ≤ (BitVec.ofNat 64 (16 * 2 ^ 32)).toNat / 2 ^ 32 ∧ (BitVec.ofNat 64 (16777216 * 2 ^ 32)).toNat / 2 ^ 32 ≤ 16777216) ∧
    (clocked {}).maint = false ∧ (clocked {}).clk.gated.contains .fmc = false ∧ (clocked {}).live = true ∧
    (clocked { fmc := { due := some 5 } }).clk.fmc.due = some 5 ∧ (clocked {}).clk.fmc.due = none ∧
    ((clocked { gating := [(.display, 4)] }).clk.gating.any fun g => g.1 == .display) = true ∧
    ((clocked { gating := [(.display, 4)] }).clk.gating.find? fun g => g.1 == .display) = some (.display, 4) ∧
    ((clocked {}).clk.gating.any fun g => g.1 == .display) = false ∧ ((clocked {}).clk.gating.find? fun g => g.1 == .display) = none :=
  ⟨⟨rfl, rfl, rfl⟩, ⟨rfl, rfl, rfl⟩, by decide⟩

def supplied0 (p : Sup) : Mod := { heardBy up with sup := p }
/-- SupplyCrossesFailsAndHoldsUp: the thresholds, before, during and after hold-up. -/
theorem wit_supply :
    5399 < 5400 ∧ (5400 ≤ 5400 ∧ false = false) ∧ (supplied0 {}).sup.holdupFrom = none ∧ (supplied0 { resetAsserted := false }).sup.resetAsserted = false ∧
    (supplied0 {}).live = true ∧ ({} : Mod).live = false ∧ (supplied0 { holdupFrom := some 3, resetAsserted := false }).sup.holdupFrom.isSome = true ∧
    (supplied0 { holdupFrom := some 3, resetAsserted := true }).sup.holdupFrom = some 3 ∧
    (supplied0 { holdupFrom := some 3, resetAsserted := true }).sup.coreLost = false ∧ heard (supplied0 {}) rq boss ∧
    heard (inMaint (supplied0 {})) rq boss := by
  exact ⟨by decide, by decide, rfl, rfl, rfl, rfl, rfl, rfl, rfl, ⟨rfl, rfl, rfl⟩, ⟨rfl, rfl, rfl⟩⟩
def backed (b : Bkp) : Mod := { heardBy up with bkp := b }
/-- BackupDomainKeepsTimeAlarmsAndFeed, BackupRequestsShiftSetAndArm: both thresholds of VBAT, an alarm armed and not, the feed timed and not,
the interface locked and not, time LOCKED and not. -/
theorem wit_backup :
    (2199 < 2200 ∧ (backed {}).bkp.vbatLow = false ∧ (backed {}).live = true) ∧ (backed { locked := true }).bkp.locked = true ∧
    (at_ (backed { alms := [{}, { armed := true }] }).bkp.alms 1 {}).armed = true ∧ (at_ (backed {}).bkp.alms 1 {}).armed = false ∧
    (backed { pwronFrom := some 5 }).bkp.pwronFrom = some 5 ∧ (backed {}).bkp.pwronFrom = none ∧
    ({ backed { locked := false } with ptp := { quality := .locked } } : Mod).ptp.quality = .locked ∧ (backed { locked := false }).bkp.locked = false ∧
    (backed {}).ptp.quality ≠ .locked ∧ heard (backed {}) rq boss ∧ (backed {}).maint = false ∧ 3 ≤ boss.role ∧ 0x7FFF#16 ≠ 0x8000#16 := by
  exact ⟨by decide, rfl, rfl, rfl, rfl, rfl, rfl, rfl, by decide, ⟨rfl, rfl, rfl⟩, rfl, by decide, by decide⟩

/-- Switches of function set 3 (one brake test) with automatic restart, as their fields are read (R362). -/
def island (img : Nat) (k : Si) : Mod := { up with si := { k with img := img } }
def running0 : Si := { started := true, powered := true }
/-- IslandRunsByItsOwnClock, IslandFollowsItsWiresSupplyAndReports: an island that runs and each reason for none; contacts open and closed;
lines and requests both ways; the states of a brake test; switches as read and others. -/
theorem wit_island :
    (running0.powered = true ∧ running0.started = true) ∧ ({ running0 with powered := false } : Si).powered = false ∧ ({} : Si).started = false ∧
    (at_ running0.pairs 8 {}).a = false ∧ (at_ ({ running0 with pairs := List.replicate 9 { a := true } } : Si).pairs 8 {}).a = true ∧
    (({ running0 with brakes := [{}, { st := .granted }] } : Si).brake 1).st = .granted ∧
    (({ running0 with brakes := [{}, { st := .running }] } : Si).brake 1).st = .running ∧
    hasBrakeTest 3 0 = true ∧ hasBrakeTest 3 1 = false ∧ hasBrakeTest 5 1 = true ∧
    (at_ ({ running0 with outs := List.replicate 7 { on := true } } : Si).outs 4 {}).on = true ∧
    ({ running0 with rstA := some 3, rstB := some 4 } : Si).heldDue = some (4 + phS 5) ∧ ({} : Si).heldDue = none ∧
    ({ solo with si := running0, btReq := [true, true] } : Mod).act = true ∧ at_ ({ solo with btReq := [true, true] } : Mod).btReq 1 false = true ∧
    (running0.brake 1).req = false ∧ (({ running0 with brakes := [{}, { req := true }] } : Si).brake 1).req = true ∧
    ({ solo with ce := { eff := [(0x99, 1)] } } : Mod).btTorqueLine 1 = true ∧ up.btTorqueLine 1 = false ∧
    ({} : Si).cycled = true ∧ ({ running0 with cycled := false } : Si).cycled = false ∧ ({ running0 with monLow := true } : Si).monLow = true ∧ up.sup.vorMv < 5300 ∧ ({} : Si).monLow = false ∧ (0x8000#16).toNat ≠ running0.img ∧
    (0#16).toNat = running0.img := by decide

def f0 : PoolFrame := { port := 0, q := 7, len := 1518, data := .arp 0 0 0, launch := some 9 }
def netted (e : Eth) (c : NetCfg) : Mod := { heardBy solo with eth := e, cfg := { netc := c, ident := { node := 4 } } }
def linked : Eth := { ports := List.replicate 5 { link := true, speed := 1 } }
def ports0 : NetCfg := { ports := List.replicate 4 { pen := true }, stationIp := 0x0A000001, modIpA := 0x0A000002 }
/-- EthernetFramesLaunchGateAndArrive: a frame that waits and none; a gate that is open and one that is closed; the station's and the module's
address and no own one; ports on, off, under test; a received frame of each kind, at the length limit and above it; redundancy on and off. -/
theorem wit_ethernet :
    (netted { pool := [f0] } ports0).live = true ∧ ((netted { pool := [f0] } ports0).eth.head 0 7) = some f0 ∧
    (((netted {} ports0).eth.head 0 7).bind (·.launch)) = none ∧ gateFits [] f0 false 0 = true ∧
    gateFits [{ port := 0, base := 0, ents := [{ states := 1, interval := 1000000 }] }] f0 false 0 = false ∧
    ((netted {} ports0).ownMac 0 0x0A000001).isSome = true ∧ ((netted {} ports0).ownMac 0 0x0A000002).isSome = true ∧
    (netted {} ports0).ownMac 0 0x0A000003 = none ∧ (netted {} ports0).icmpRecent.length < 10 ∧
    10 ≤ (netted { icmp := List.replicate 10 0 } ports0).icmpRecent.length ∧
    (netted {} ports0).portOn 0 = true ∧ (netted {} {}).portOn 0 = false ∧ (netted {} {}).portOn 4 = true ∧
    (netted { lt := { st := 1, link := 5 } } ports0).testing 5 = true ∧ (netted {} ports0).testing 5 = false ∧
    (at_ linked.ports 4 {}).link = true ∧ (at_ ({} : Eth).ports 4 {}).link = false ∧ frame0.fcsOk = true ∧ ({ frame0 with fcsOk := false } : RxFrame).fcsOk = false ∧
    ({ frame0 with len := 1522 } : RxFrame).len ≤ (netted linked ports0).maxFrame 0 ∧ (netted linked ports0).maxFrame 0 < ({ frame0 with len := 1523 } : RxFrame).len ∧
    ports0.prmode = 0 ∧ ({ ports0 with prmode := 1 } : NetCfg).prmode ≠ 0 := by decide
/-- LinkTestsAndCountersOfThePorts: the first and the last link, mode, pattern and duration at their bounds; a test that runs and none. -/
theorem wit_link_test :
    admitted (netted {} ports0) rq boss 8 4 false false ∧ ltMode 1 0 = true ∧ ltMode 12 0 = true ∧ ltMode 7 2 = true ∧ ltMode 8 2 = false ∧
    ((netted {} ports0).eth.lt.st ≠ 1 ∧ ({ netted {} ports0 with tan := {} } : Mod).ltCond 1 = true ∧ ({ netted {} ports0 with tan := {} } : Mod).ltCond 12 = true) ∧
    (netted { lt := { st := 1 } } ports0).eth.lt.st = 1 ∧ heard (netted {} ports0) rq boss ∧ (netted {} ports0).maint = false :=
  ⟨⟨⟨rfl, rfl, rfl⟩, by decide, by decide, by decide, rfl⟩, rfl, rfl, rfl, rfl, by decide, rfl, ⟨rfl, rfl, rfl⟩, rfl⟩

def node1 : NodeCfg := { node := 256, port := 3, pos := 1, vendor := 1, product := 1, minrev := 0, ilen := 4, olen := 4, tprep := 1, tapp := 1, linkd := 0, wdog := 3 }
def spoked (e : Eth) : Mod := { netted e { ports0 with nodes := [node1] } with
  cfg := { netc := { ports0 with nodes := [node1] }, ident := { node := 4 }, tasks := { tasks := List.replicate 16 { kind := 1, period := 8 }, lockP3 := some 15 } } }
/-- SpokeMasterRunsItsCycle: a port with its master and one without; a handover that would take ACT before the launch and none; a configured
node on its own port, on another and an unknown one; a node at its miss limit; requests relayed and none. -/
theorem wit_spoke :
    (spoked {}).live = true ∧ (spoked {}).spokeMaster 0 = some 15 ∧ (spoked {}).spokeMaster 1 = none ∧ (spoked {}).hoReleaseDue 0 = false ∧
    ({ spoked {} with tan := { role := .active, ilk := { act := true }, ho := { pend := some { th := 0, reason := 1, giving := true, acked := true } } } } : Mod).hoReleaseDue 0 = true ∧
    ((spoked { spoke := [{ timeOnlyAt := some 4 }, {}] }).spokePort 0).timeOnlyAt = some 4 ∧ ((spoked {}).spokePort 0).timeOnlyAt = none ∧
    (((spoked { spoke := [{ adm := .ident 1, hop := 2 }, {}] }).spokePort 0).adm = .ident 1 ∧ ((spoked { spoke := [{ adm := .ident 1, hop := 2 }, {}] }).spokePort 0).hop = 2) ∧
    (spoked {}).nodeCfg 255 = none ∧ (spoked {}).nodeCfg 256 = some node1 ∧ node1.port = (0 : Fin 2).val + 3 ∧ node1.port ≠ (1 : Fin 2).val + 3 ∧
    (spoked {}).act = true ∧ ({ spoked {} with tan := {} } : Mod).act = false ∧ (spoked {}).otp.tandem = true ∧ (spoked {}).tan.slotB = false ∧
    ((spoked { nodes := [(256, { st := 3, missRun := 3 })] }).eth.node 256).st = 3 ∧
    ((spoked { spoke := [{ asked := [⟨7, 1, 3⟩] }, {}] }).spokePort 0).asked.find? (fun a => a.mseq == 7 && a.cmd == 3) = some ⟨7, 1, 3⟩ ∧
    ((spoked {}).spokePort 0).asked.find? (fun a => a.mseq == 7 && a.cmd == 3) = none ∧
    ({ spoked {} with tan := {} } : Mod).portOn 2 = true ∧
    node1.wdog ≤ ((spoked { nodes := [(256, { st := 3, missRun := 3 })] }).eth.node 256).missRun ∧
    ((spoked {}).eth.node 256).st ≠ 3 ∧ (spoked {}).eth.relays = [] ∧
    (spoked { relays := [{ rq := rq, node := 256, write := false, at_ := 5 }] }).eth.relays = [{ rq := rq, node := 256, write := false, at_ := 5 }] 
  := by decide +kernel

/-- RecorderCountersAndDisplay: a scan done and not, writes permitted and not; ER_CLEAR in MAINTENANCE and outside it; counter 0 with and
without bit 12; a task of the image and none. -/
theorem wit_recorder :
    ({ up with er := { scanDone := true } } : Mod).er.scanDone = true ∧ ({ up with sup := { holdupReady := true } } : Mod).sup.mayWrite = true ∧ up.sup.mayWrite = false ∧
    admitted (inMaint (heardBy up)) rq boss 12 4 true true ∧ admitted (heardBy up) rq boss 12 4 true true ∧ heard (heardBy up) rq boss ∧ 3 ≤ boss.role ∧
    (0x1000#16).getLsbD 12 = true ∧ (0x0FFF#16).getLsbD 12 = false ∧
    (({ heardBy up with cfg := { tasks := { tasks := List.replicate 16 { kind := 1 } } } } : Mod).taskCfg 15).kind ≠ 0 ∧ ((heardBy up).taskCfg 15).kind = 0 :=
  ⟨rfl, rfl, rfl, ⟨⟨rfl, rfl, rfl⟩, by decide, by decide, by decide, rfl⟩, ⟨⟨rfl, rfl, rfl⟩, by decide, by decide, by decide, rfl⟩, ⟨rfl, rfl, rfl⟩, by decide⟩

def cert1 : Cert := { serial := 77, ca := some 0, ownerSigned := true, p256 := true, notBefore := 0, notAfter := 9 }
def creds : CredCfg := { auths := [{ pubkey := [], defrole := 0 }], ents := [{ serial := 77, ca := 0, role := 4, ports := 4, expires := 0 }] }
def certified : Mod := { up with cfg := { cred := creds } }
/-- EngineeringSessionsOpenIdleAndEnd: a port that hears and one that does not; four handshakes within a second; a full port; a certificate
that a credential admits on P5 and one of another serial number. -/
theorem wit_handshake :
    certified.live = true ∧ certified.reaches 2 .module = true ∧ certified.reaches 0 .module = false ∧ certified.reaches 2 .station = false ∧
    (certified.eap.shakes.filter fun t => decide (certified.mono < t + phS 1)).length < 4 ∧
    4 ≤ (({ certified with eap := { shakes := [0, 0, 0, 0] } } : Mod).eap.shakes.filter fun t => decide (certified.mono < t + phS 1)).length ∧
    certified.sessFull 2 = false ∧ ({ certified with eap := { sessions := [boss, boss] } } : Mod).sessFull 2 = true ∧ cert1.p256 = true ∧
    (certified.admits cert1 2) = (4, false) ∧ (certified.admits { cert1 with serial := 78 } 2).1 = 0 ∧ heard (heardBy certified) rq boss :=
  ⟨rfl, rfl, rfl, rfl, by decide, by decide, rfl, rfl, rfl, by decide, by decide, rfl, rfl, rfl⟩

def sub1 : Sub := { subid := 1, sess := 1, req := .events 0, pend := [(0, [])] }
/-- ReadWriteAndSubscriptions: a subscription that may open and one that may not; one with something to send, one without, a trend. -/
theorem wit_subscriptions :
    heard (heardBy up) rq boss ∧ (([⟨0x1000, 0⟩] : List ObjRef) ≠ []) ∧ (heardBy up).judgeSub boss (.events 7) = stOk ∧ (heardBy up).judgeSub boss (.events 8) ≠ stOk ∧
    (heardBy up).maint = false ∧ (heardBy up).eap.subs.any (fun k => k.subid == 1 && k.sess == boss.id) = false ∧
    ({ heardBy up with eap := { subs := [sub1] } } : Mod).eap.subs.any (fun k => k.subid == 1 && k.sess == boss.id) = true ∧
    (({ heardBy up with eap := { subs := [sub1] } } : Mod).eap.subs.find? fun k => k.subid == 1) = some sub1 ∧
    ((heardBy up).eap.subs.find? fun k => k.subid == 1) = none ∧ up.notifies sub1 = true ∧ up.notifies { sub1 with pend := [] } = false ∧
    ({ sub1 with req := .trend 10 [] } : Sub).req = .trend 10 [] :=
  ⟨⟨rfl, rfl, rfl⟩, by decide⟩

def readF : FileOpen := { sess := 1, fh := 3, name := .plan, write := false, total := 2, data := [1, 2], lastAt := 0 }
def writeF : FileOpen := { readF with name := .ctab 15, write := true, total := 2048, data := [] }
def filed (f : List FileOpen) : Mod := { heardBy solo with eap := { sessions := [boss], files := f } }
/-- FilesOpenTransferAndClose: two files open and fewer; a content that is there and one that is not; a table that may be written; a block up
to the end of its file; files of both kinds and none; a close that waits and none. -/
theorem wit_files :
    heard (filed []) rq boss ∧ 2 ≤ (filed [readF, readF]).openFiles boss.id ∧ (filed [readF]).openFiles boss.id < 2 ∧
    (filed []).fileContent boss .pmcring = .inr [] ∧ (filed []).fileContent boss .plan = .inl stAbsent ∧
    writeRole (.ctab 15) = some 3 ∧ 3 ≤ boss.role ∧ (filed []).maint = false ∧ (filed []).eap.files.any (·.write) = false ∧
    ((filed []).prepareWrite boss (.ctab 15) 2048).2 = stOk ∧
    ((filed [readF]).eap.files.find? fun f => f.fh == 3 && f.sess == boss.id) = some readF ∧ readF.write = false ∧
    ((filed [writeF]).eap.files.find? fun f => f.fh == 3 && f.sess == boss.id) = some writeF ∧ writeF.write = true ∧
    ((filed []).eap.files.find? fun f => f.fh == 3 && f.sess == boss.id) = none ∧
    ({ writeF with pos := 2046 } : FileOpen).pos + ([0, 0] : Bytes).length ≤ writeF.total ∧
    (filed [writeF]).eap.files.find? (·.write) = some writeF ∧ (filed []).eap.relayClose = none :=
  ⟨⟨rfl, rfl, rfl⟩, by decide⟩

def obs0 : StartObs :=
  { selfTest := 0, maintLow := false, posHigh := false, slotId := 0, startMs := 400, bells := [], lanes := 0, canXcvrFail := 0, cassettePresent := true, clkinWindowsOk := true }
def pinned (a : Option Nat) (o : Option ResetOrder) : Mod := { up with boot := { up.boot with pressAt := a, order := o } }
/-- ResetsPassThroughAndStartsFollow: an order of each kind; a write that waits; the pin pressed and not, ignored or not, at power-on too; a
start in reset, held and not; a recorded rollback and a bank commanded; CLKIN good and not. -/
theorem wit_resets :
    (pinned none (some { cause := 4 })).boot.order = some { cause := 4 } ∧ (pinned none none).live = true ∧
    ({ up with cas := { pendW := [.header] } } : Mod).writesWait = true ∧ up.writesWait = false ∧ ({ up with cas := { pendW := [.window] } } : Mod).writesWait = false ∧
    (pinned (some 4) none).boot.pressAt = some 4 ∧ (pinned none none).pinDead.1 = false ∧ ({ up with boot := { pinIgnored := some 0 } } : Mod).pinDead.1 = true ∧
    ({ pinned none none with sup := { resetAsserted := true } } : Mod).sup.resetAsserted = true ∧ ({} : Mod).live = false ∧ ({} : Mod).boot.held = none ∧
    ({ boot := { held := some obs0 } } : Mod).boot.held.isSome = true ∧
    (up.causeOf { cause := 2 }).cause = 2 ∧ ({ up with cas := { jrn := { pend := 2 } } } : Mod).cas.jrn.pend = 2 ∧
    (({ up with boot := { bankSwitch := some (pickBank up.bankA up.bankB).1 } } : Mod).causeOf { cause := 2 }).cause = 8 ∧
    obs0.clkinWindowsOk = true ∧ ({ obs0 with clkinWindowsOk := false } : StartObs).clkinWindowsOk = false := by decide
/-- ResetsPassThroughAndStartsFollow: a start whose clocks are good, and one that begins in the forced override. -/
theorem wit_start_clocks : (up.t0 { cause := 0 } obs0).clk.override = false ∧
    (({ up with clk := { override := true } } : Mod).t0 { cause := 1 } obs0).clk.override = true := by decide +kernel

def inWin : Mod := { up with sup := { holdupReady := true }, cas := { up.cas with hdr := { commit := 1 }, winFrom := some 6, winMs := 60000 } }
/-- JournalCommitAndHeldWrites. -/
theorem wit_window : inWin.live = true ∧ inWin.windowOpen = true ∧ inWin.cas.winFrom.isSome = true ∧ inWin.sup.mayWrite = true ∧ inWin.sup.mayErase = true ∧
    ({ inWin with sup := { belowWrite := true } } : Mod).sup.mayWrite = false ∧ up.windowOpen = false := by decide

/-- FaultsFailTheModule. -/
theorem wit_faults : ({ up with tan := { role := .failed, failedAt := some 5 } } : Mod).tan.failedAt = some 5 ∧ up.live = true ∧ up.tan.ilk.ownClaim = false ∧
    ({ up with tan := { ilk := { ownClaim := true } } } : Mod).tan.ilk.ownClaim = true ∧ ({ up with cas := { jrn := { pend := 2 } } } : Mod).cas.jrn.pend = 2 ∧
    3 ≤ ((({ up with tan := { starts := [0, 0, 0] } } : Mod).tan.starts.filter fun a => decide (up.optime < a + 3600000)).length) ∧
    (up.tan.starts.filter fun a => decide (up.optime < a + 3600000)).length < 3 := by decide

/-- InterlockClaimsLatchesAndWithdraws: every timer armed. -/
theorem wit_interlock :
    let i : Ilk := { peer := .unclaimed, enableAt := some 4, conflictAt := some 5, recheckAt := some 6, openWaitAt := some 7,
                     peerBlockedAt := some 8, redecideAt := some 9 }
    let m : Mod := { up with tan := { role := .standby, ilk := i } }
    m.live = true ∧ m.tan.standbyClaimDue.isSome = true ∧ ({ i with ownClaim := true } : Ilk).actDue.isSome = true ∧ m.tan.ilk.redecideAt = some 9 ∧
    ({ m with tan := { role := .detached, ilk := i } } : Mod).tan.waits = true ∧ up.tan.waits = false := by decide

def bell1 : Bell :=
  { role := 255, claiming := true, act := false, release := true, fit := false, home := true, revertWait := false, seq := 1, health := 2, score := 100, tq := 4,
    peerline := 2, shseq := 3, tsend := 4, icrc := 5, fwmain := 6, aostage := List.replicate 8 (-1) }
def paired (r : Role) : Mod := { up with tan := { role := r, lane0 := true } }
def hello1 : Hello := { fwMain := 0, shadowLo := 0, shadowHi := 9, icrc := 0, planHash := 0, excl := 0, slotB := true }
def batch1 : BatchHdr := { btype := 0, task := 0, overrun := false, bseq := 5, relnum := 0, apply := 0, nrec := 1, blen := 44 }
/-- BellsShadowsAndTheTwinLink: a bell and a heartbeat with a good check, and with a bad one; a lane up and none; batches taken, in order and
with a gap, and not taken; the second attempt; the override; a reason that clears. -/
theorem wit_bells :
    (paired .standby).live = true ∧ (paired .standby).tan.lane0 = true ∧ (tlBell (tlFrame 1 7 bell1.bytes)).isSome = true ∧ tlBell (tlFrame 3 7 bell1.bytes) = none ∧ tlBell bell1.bytes = none ∧
    batchChecks batch1 [batchCommit batch1 []] = true ∧ batchChecks batch1 [.commit 0] = false ∧
    (parseHeartbeat (heartbeatBits 255 63)) = some (255, 63) ∧ parseHeartbeat (heartbeatBits 255 63 + 1) = none ∧
    (up.tan.path .twinLink).silent = false ∧ up.testing 8 = false ∧
    (paired .standby).takesBatches = true ∧ (paired .solo).takesBatches = false ∧
    (({ paired .standby with tan := { role := .standby, sh := { rxSeq := some 4 } } } : Mod).tan.sh.rxSeq = some 4 ∧ batch1.bseq = 4 + 1 ∧ batch1.bseq ≠ 3 + 1) ∧
    (paired .active).tan.role.executes = true ∧ ({ up with tan := { role := .catchingUp, sh := { attempt := 1 } } } : Mod).tan.sh.attempt = 1 ∧
    ({ up with clk := { override := true } } : Mod).clk.override = true ∧
    (({ up with tan := { role := .detached, detach := 2, partnerHello := some { hello1 with icrc := up.hello.icrc } } } : Mod).detachClears).isSome = true := by decide +kernel

def hand : HoPend := { th := 99, reason := 1, giving := true }
/-- HandoverAndHealth: a module with ACT and without; a fit standby without a gap and the others; a handover pending on both sides, acknowledged
or not; a patrol that is run; a request that nothing refuses. -/
theorem wit_handover :
    solo.act = true ∧ up.act = false ∧
    ({ up with tan := { role := .standby } } : Mod).fit = true ∧ ({ up with tan := { role := .standby, hl := { score := 59 } } } : Mod).fit = false ∧
    ({ solo with tan := { solo.tan with ho := { pend := some hand } } } : Mod).tan.ho.pend = some hand ∧ solo.tan.ho.pend = none ∧
    patrolMs (.lane 3) true ≠ 0 ∧ patrolMs (.dioStage 31) true = 0 ∧ admitted (heardBy solo) rq boss 3 3 false false ∧
    (heardBy up).tan.role ≠ .standby ∧ ({ up with tan := { role := .standby } } : Mod).tan.role = .standby ∧
    admitted (heardBy solo) rq boss 4 2 false false ∧ ({ up with tan := { ho := { waitAck := true } } } : Mod).tan.ho.waitAck = true ∧
    heard (heardBy up) rq boss ∧ (heardBy up).maint = false :=
  ⟨rfl, rfl, by decide, by decide, rfl, rfl, by decide, by decide, ⟨⟨rfl, rfl, rfl⟩, by decide, by decide, by decide, rfl⟩, by decide, rfl,
   ⟨⟨rfl, rfl, rfl⟩, by decide, by decide, by decide, rfl⟩, rfl, ⟨rfl, rfl, rfl⟩, rfl⟩

/-- InResetOnlyItsUngatedBlocksAct, RequestsNeedTheirSessionAndRunOnce: a request without its session, and one that the session has answered. -/
theorem wit_reset_and_sessions :
    ({} : State).m.live = false ∧ actsInReset .cadenceTick = false ∧ actsInReset .ufsLow = true ∧ requestOf (.eapNop rq) = some rq ∧
    (up.eap.sessions.find? fun x => x.id == rq.sess) = none ∧
    (({ boss with held := [⟨7, 0, []⟩] } : Session).held.find? fun y => y.tid == rq.tid) = some ⟨7, 0, []⟩ := by decide
/-- RequestsNeedTheirSessionAndRunOnce: a request that waits itself, and one that finds eight of its session waiting. -/
def relaysOf (l : List Req) : Mod := { heardBy up with eth := { up.eth with relays := l.map fun q => ⟨q, 1, false, 0⟩ } }
theorem wit_waiting : (relaysOf [rq]).live = true ∧ ((relaysOf [rq]).eap.sessions.find? fun y => y.id == rq.sess) = some boss ∧
    (boss.held.find? fun y => y.tid == rq.tid) = none ∧ (relaysOf [rq]).waiting.contains rq = true ∧
    (relaysOf (List.replicate 8 ⟨rq.sess, 99⟩)).waiting.contains rq = false ∧
    8 ≤ ((relaysOf (List.replicate 8 ⟨rq.sess, 99⟩)).waiting.filter fun q => q.sess == rq.sess).length := by decide

/-- AccumulatorArithmeticNeverWraps: shifts at the ends of both ranges. -/
theorem wit_shifts : 0 ≤ (31#6).toInt ∧ (0x3F#6).toInt = -((1 : Nat) : Int) ∧ (0x21#6).toInt = -((31 : Nat) : Int) := by decide

/-- BellAndHeartbeatFramesReadBack: a bell at the ends of its fields, a frame that is too short, one with a wrong CRC, a heartbeat with one. -/
theorem wit_codec : (bell1.role < 256 ∧ bell1.score < 256 ∧ bell1.tq < 256 ∧ bell1.peerline < 256 ∧ bell1.aostage.length = 8) ∧
    ([] : Bytes).length ≠ 64 ∧ leNat (([1] : Bytes).drop 60 |>.take 4) ≠ crc32 (([1] : Bytes).take 60) ∧ (1#20).toNat % 64 ≠ crc6 14 ((1#20).toNat / 64) 0 := by decide

/-! Commands with the values that the spec works out. -/

/-- The state after one step with a command in front; the state itself where the step does not answer next. -/
def after (c : Instr) (m : Mod) : Mod := match step { pending := [c], m := m } with | .next t => t.m | _ => m
/-- MSU A2, X5, X6; TBLF X7, table 15, encoder 3; LDI X3, 0x8000; BR NFIRST, 100; an undefined code and an undefined condition (R194 to R196). -/
theorem test_ce_words : ceDecode 0x3E2E0000 = some (.msu 2 5 6) ∧ ceDecode 0x7438030F = some (.tblf 7 15 3) ∧
    ceDecode 0x10188000 = some (.ldi 3 0x8000) ∧ ceDecode 0x6C008064 = some (.br .nfirst 100) ∧ ceDecode 0x80000000 = none ∧
    ceDecode 0x6C009064 = none := by decide
/-- (-1) times (-1) is 1 in the accumulator, which Q15 cannot hold (R191, R192). -/
theorem test_ce_product :
    let m := after (.ceMpy 0 1 3 3) (after (.ceLdi 0 3 0x8000) up)
    (m.ce.lane 0).acc 1 = 0x0080000000 ∧ ((after (.ceMovq 0 4 1) m).ce.lane 0).xr 4 = 0x7FFF ∧ ((after (.ceMovq 0 4 1) m).ce.lane 0).sat = true ∧
      m.ce.lane 1 = up.ce.lane 1 := by decide
/-- A right shift rounds half up: 2^16 and -2^16 over 2^17 (R191). -/
theorem test_ce_shift :
    ((after (.ceSha 0 0 0x2F) (after (.ceLdax 0 0 0) (after (.ceLdi 0 0 1) up))).ce.lane 0).acc 0 = 1 ∧
    ((after (.ceSha 0 0 0x2F) (after (.ceLdax 0 0 0) (after (.ceLdi 0 0 0xFFFF) up))).ce.lane 0).acc 0 = 0 := by decide
/-- A step takes the oldest command; the others wait. -/
theorem test_step_queue : (match step { pending := [.ceNop 0, .ceEnd 1], m := up } with | .next t => t.pending == [.ceEnd 1] | _ => false) = true := by decide
/-- CRC-32 of "123456789" as its description in R44 gives it; SHA-256 of "abc". -/
theorem test_crc32 : crc32 [0x31, 0x32, 0x33, 0x34, 0x35, 0x36, 0x37, 0x38, 0x39] = 0xCBF43926 := by decide +kernel
theorem test_sha256 :
    beNat (sha256 [0x61, 0x62, 0x63]) = 0xba7816bf8f01cfea414140de5dae2223b00361a396177a9cb410ff61f20015ad := by decide +kernel

/-! Witnesses for what the commands do in the forms that do not complete. -/

def op : Session := { boss with role := 3 }
def low : Session := { boss with role := 1, port := 0 }
def by_ (x : Session) (m : Mod) : Mod := { m with eap := { m.eap with sessions := [x] } }
/-- RestartCommandsOrderTheirStart: role ENGINEER in MAINTENANCE, a change in phase 5, a holder of ACT alone. -/
theorem wit_restart_refused : admitted (inMaint (by_ op up)) rq op 0 3 false true ∧ op.role < 4 ∧
    ({ heardBy solo with change := { phase := 5 } } : Mod).changing = true ∧ (heardBy solo).changing = false ∧ (heardBy solo).alone = true ∧
    admitted (heardBy solo) rq boss 0 3 false true :=
  ⟨⟨⟨rfl, rfl, rfl⟩, by decide, by decide, by decide, rfl⟩, by decide, by decide, by decide, by decide,
   ⟨⟨rfl, rfl, rfl⟩, by decide, by decide, by decide, rfl⟩⟩
/-- ActivateAndRollbackSwitchTheImage: each refusal's condition. -/
theorem wit_activate_refused :
    admitted (inMaint (by_ op up)) rq op 1 3 false true ∧ (slotted.maint = true → 4 ≤ boss.role ∧ boss.port = 2) ∧
    ({ slotted with change := { phase := 1 } } : Mod).changing = true ∧
    (inMaint slotted).cas.hdr.unconfigured = false ∧ ({ slotted with tan := { role := .standby } } : Mod).tandemForbids boss = true ∧
    8 ≤ (8#8).toNat ∧ (({ slotted with cas := {} } : Mod).cas.hdr.slot 1).st ≠ 2 ∧ (0#8).toNat = slotted.cas.hdr.active ∧
    8 ≤ ({ slotted with cas := {} } : Mod).cas.hdr.previous ∧ slotted.switchOnline 7 = false :=
  ⟨⟨⟨rfl, rfl, rfl⟩, by decide, by decide, by decide, rfl⟩, by decide⟩
/-- FaultResetsClearTheirCondition: the first unit beyond each scope, and the last of each without its condition. -/
theorem wit_fault_reset_refused :
    admitted (heardBy up) rq boss 5 2 false false ∧ 16 ≤ (16#16).toNat ∧ ((heardBy up).task 15).halted = false ∧
    ((heardBy up).can 3).st ≠ .busOff ∧ ((heardBy up).can 3).autorecSusp = false ∧ ((heardBy up).canCfg 3).cen = false ∧
    ((heardBy up).dioCh 31).latched = false ∧ (heardBy up).tan.role ≠ .detached ∧ (heardBy up).tan.role ≠ .failed ∧
    (0xFFFE#16).toNat ≠ 0xFFFF :=
  ⟨⟨⟨rfl, rfl, rfl⟩, by decide, by decide, by decide, rfl⟩, by decide⟩
/-- BankAndOwnerKeyCommands: a bank that is not good, one that does not fit, a holder of ACT alone; no cassette, and a supply that forbids. -/
theorem wit_bank_refused :
    admitted (heardBy solo) rq boss 10 4 false true ∧ ({ boot := { good := false } } : FwBank).boot.good = false ∧
    ({ banked.bankB with main := { good := true, kind := 2, hwMin := 91 } } : FwBank).valid up.otp.hwRev = false ∧ (heardBy solo).alone = true ∧
    ({ heardBy up with cas := {} } : Mod).cas.present = false ∧ ({ belowWrite := true } : Sup).mayWrite = false ∧
    ({ belowErase := true } : Sup).mayErase = false :=
  ⟨⟨⟨rfl, rfl, rfl⟩, by decide, by decide, by decide, rfl⟩, by decide⟩
/-- TimeCommandsSetSlewAndCarryUtc. -/
theorem wit_time_refused : 1000000000 < (BitVec.ofInt 32 (-1000000001)).toInt.natAbs ∧ (.holdover : TimeQ) ≠ .free ∧ (.holdover : TimeQ) ≠ .degraded ∧
    ({ master0 with utcValid := true } : Announce).utcValid = true ∧ up.ptp.shift = none ∧ up.ptp.leap = 0 := by decide
/-- CeTableTraceAndCounterRequests. -/
theorem wit_table_refused : 15 < (16#8).toNat ∧ (at_ up.ce.tabSt 15 {}).present = false ∧ up.act = false ∧ up.ce.trc.state ≠ 1 ∧
    ({ up with change := { phase := 1 } } : Mod).changing = true ∧
    ({ up with eap := { files := [{ sess := 1, fh := 1, name := .trace, write := false, total := 0, lastAt := 0 }] } } : Mod).readingFile .trace = true ∧
    up.ce.loopCfg 511 = none := by decide
/-- AlarmCommandsChangeTheirPoint; AlarmTimersMoveTheirPoint; FirstOutMessagesAndDecisions. -/
theorem wit_alarm_refused : heard (by_ low solo) rq low ∧ low.role < 2 ∧ (heardBy up).act = false ∧ (heardBy solo).ptIndex 16383 = none ∧
    (heardBy solo).foIndex 255 = none ∧ ((alarmed {}).pt 0).c = false ∧ ((alarmed {}).pt 0).shelved = none ∧
    BitVec.ofNat 16 (field [2, 5, 9, 0] 2 2) ≠ (at_ (foMod 7).ae.fos 0 {}).epoch ∧
    (at_ ({ foMod 4 with ae := { foAe with fos := [{}] } } : Mod).ae.fos 0 {}).settleAt = none :=
  ⟨⟨rfl, rfl, rfl⟩, by decide⟩
/-- TimedOutputsCapturesAndActions. -/
theorem wit_timed_idle : touMod.touCfg 0 = none ∧ (at_ up.tous 31 {}).armed = false ∧ (at_ up.tous 31 {}).pulseEnd = none ∧
    up.tcuCfg 31 = none ∧ ({ touMod with cas := {} } : Mod).cas.running = false := by decide
/-- OnlineChangePhases: out of each phase, role and proposal. -/
theorem wit_change_idle : up.change.phase ≠ 1 ∧ up.change.phase ≠ 2 ∧ up.change.phase ≠ 4 ∧ up.tan.role ≠ .standby ∧ up.plan.next = none ∧
    (changing 3 .standby {}).tan.role = .standby ∧ (changing 3 .standby {}).change.phase ≠ 2 ∧ (changing 3 .standby {}).change.phase ≠ 4 ∧
    (changing 1 .solo { cfg := some {} }).change.cfg = some {} := by decide
/-- HartDevicesAnswerFailAndPassThrough; ClockRequestsMeasureSwitchAndGate; LinkTestsAndCountersOfThePorts. -/
theorem wit_requests_refused :
    ([0, 3, 1, 1] : Bytes).length ≠ 4 + (at_ ([0, 3, 1, 1] : Bytes) 2 0).toNat ∧ (heardBy up).cfg.hart.length ≤ 0 ∧
    (harted {} true (some passed0)).an.pt.isSome = true ∧ ((harted { st := 3 } true none).hartDev 0).st = 3 ∧
    4 < (0x0005#16).toNat % 256 ∧ (clocked { override := true }).clk.override = true ∧
    (BitVec.ofNat 64 (15 * 2 ^ 32)).toNat / 2 ^ 32 < 16 ∧ (clocked { gated := [.fmc] }).clk.gated.contains .fmc = true ∧
    ltMode 1 0 = true ∧ ({ heardBy up with eth := { lt := { st := 1 } } } : Mod).eth.lt.st = 1 ∧ (heardBy up).eth.lt.st ≠ 1 := by decide
def opened (n : FileName) (w : Bool) (pos total : Nat) : FileOpen := { sess := 1, fh := 255, name := n, write := w, total := total, pos := pos, lastAt := 0 }
def filing (f : FileOpen) : Mod := { heardBy up with eap := { sessions := [boss], files := [f] } }
/-- FilesOpenTransferAndClose: each kind of file; the last byte of a table and one short; a slot whose supply forbids. -/
theorem wit_files_refused :
    heard (filing (opened (.slot 7) true 0 9)) rq boss ∧ writeRole .trace = none ∧ writeRole (.ctab 15) = some 3 ∧ writeRole (.slot 7) = some 3 ∧
    ((filing (opened (.slot 7) true 0 9)).eap.files.find? fun f => f.fh == 255 && f.sess == 1) = some (opened (.slot 7) true 0 9) ∧
    (opened (.ctab 15) true 2048 2048).pos = 2048 ∧ (opened (.ctab 15) true 2047 2048).pos ≠ 2048 ∧ fwKind .fwSi = some 3 ∧
    ({ filing (opened (.slot 7) true 0 9) with sup := { belowWrite := true } } : Mod).slotHeld 7 0 9 = true ∧
    ({ filing (opened (.slot 7) true 0 9) with sup := { belowWrite := false, belowErase := false, holdupReady := true } } : Mod).slotHeld 7 0 9 = false :=
  ⟨⟨rfl, rfl, rfl⟩, by decide⟩
/-- RequestsNeedTheirSessionAndRunOnce: a COMMAND below its role and not from P5, one in MAINTENANCE, one whose object is open; a write and a
read of a counter there. -/
theorem wit_commands_refused :
    requestOf (.erClear rq) = some rq ∧ commandObject (.erClear rq) = some (12, 4, true, true) ∧ heard (by_ low up) rq low ∧ low.role < 4 ∧ low.port ≠ 2 ∧
    commandObject (.traceStop rq) = some (9, 3, false, false) ∧ (inMaint (heardBy up)).maint = true ∧
    (at_ ({ heardBy up with eap := { sessions := [boss], cmds := List.replicate 13 { open_ := true } } } : Mod).eap.cmds 12 {}).open_ = true ∧
    writeObject (.pmcClear rq 0) = some (3, false) ∧ readsAndClears (.evalMax rq) = true :=
  ⟨rfl, rfl, ⟨rfl, rfl, rfl⟩, by decide⟩

def standbyBell (fit : Bool) : Bell :=
  { role := 3, claiming := false, act := false, release := false, fit := fit, home := false, revertWait := false, seq := 0, health := 0, score := 100,
    tq := 0, peerline := 0, shseq := 0, tsend := 0, icrc := 0, fwmain := 0, aostage := [] }
def withStandby (fit : Bool) : Mod := { heardBy solo with tan := { solo.tan with tl := { last := some 0 }, bell := some (standbyBell fit) } }
/-- HandoverAndHealth: no standby (4), one that is not fit (5), a change (1), a pending handover (9), and none. -/
theorem wit_handover_refused :
    (heardBy solo).hoRefusal = some 4 ∧ (withStandby false).hoRefusal = some 5 ∧ ({ withStandby true with change := { phase := 1 } } : Mod).hoRefusal = some 1 ∧
    ({ withStandby true with tan := { (withStandby true).tan with ho := { pend := some hand } } } : Mod).hoRefusal = some 9 ∧ (withStandby true).hoRefusal = none := by
  decide

end Sys2Proof.Tests
end

section
/-! Resets: each field of the module as a reset leaves it, and the obligation on what every reset keeps. -/

namespace Sys2Proof.Machine

/-- The module once the release of its claim, where it has one, is done: the first act of every reset (R75). -/
def Mod.claimReleased (m : Mod) : Mod := if m.tan.ilk.ownClaim then m.releaseClaim else m

section EnterReset
variable (m : Mod)

/-! What a reset builds from what the release left. -/

@[simp] theorem Mod.enterReset_tb : m.enterReset.tb =
    { m.claimReleased.tb with
      addend := if m.claimReleased.clk.override then m.claimReleased.tb.addend else 0xA0000000, slow := true, sync := [false, false] } := rfl
@[simp] theorem Mod.enterReset_er : m.enterReset.er =
    { m.claimReleased.er with latest := [], dropQueue := 0, repeatSat := 0, scanDone := false } := rfl
@[simp] theorem Mod.enterReset_pmc : m.enterReset.pmc = { sel := m.claimReleased.pmc.sel, ringSel := m.claimReleased.pmc.ringSel } := rfl
@[simp] theorem Mod.enterReset_ret : m.enterReset.ret = m.claimReleased.ret := rfl
@[simp] theorem Mod.enterReset_si : m.enterReset.si =
    { m.claimReleased.si with rep := {}, repAt := none, statusValid := false } := rfl
@[simp] theorem Mod.enterReset_sup : m.enterReset.sup =
    { m.claimReleased.sup with holdupReady := false, pfSeen := false, deferred := 0 } := rfl
@[simp] theorem Mod.enterReset_bkp : m.enterReset.bkp =
    { m.claimReleased.bkp with shifts := 0, disciplinedAt := none, capAt := none, setAt := none } := rfl
@[simp] theorem Mod.enterReset_cas : m.enterReset.cas =
    { present := m.claimReleased.cas.present, mem := m.claimReleased.cas.mem, jrn := m.claimReleased.cas.mram,
      mram := m.claimReleased.cas.mram, tries := m.claimReleased.cas.tries, bus := m.claimReleased.cas.bus } := rfl
@[simp] theorem Mod.enterReset_bankA : m.enterReset.bankA = m.claimReleased.bankA := rfl
@[simp] theorem Mod.enterReset_bankB : m.enterReset.bankB = m.claimReleased.bankB := rfl
@[simp] theorem Mod.enterReset_otp : m.enterReset.otp = m.claimReleased.otp := rfl
@[simp] theorem Mod.enterReset_eap : m.enterReset.eap = { nextSess := m.claimReleased.eap.nextSess } := rfl

/-! The main side is held, and the tandem logic stands without role, claim and ACT (R75). -/

@[simp] theorem Mod.enterReset_live : m.enterReset.live = false := rfl
@[simp] theorem Mod.enterReset_resetAt : m.enterReset.boot.resetAt = m.claimReleased.mono := rfl
@[simp] theorem Mod.enterReset_role : m.enterReset.tan.role = .offline := rfl
@[simp] theorem Mod.enterReset_ownClaim : m.enterReset.tan.ilk.ownClaim = false := rfl
@[simp] theorem Mod.enterReset_act : m.enterReset.act = false := rfl

/-! What takes its value after reset (R14). -/

@[simp] theorem Mod.enterReset_ptp : m.enterReset.ptp = {} := rfl
@[simp] theorem Mod.enterReset_ce : m.enterReset.ce = {} := rfl
@[simp] theorem Mod.enterReset_ae : m.enterReset.ae = {} := rfl
@[simp] theorem Mod.enterReset_tasks : m.enterReset.tasks = List.replicate 16 {} := rfl
@[simp] theorem Mod.enterReset_net : m.enterReset.net = {} := rfl
@[simp] theorem Mod.enterReset_eth : m.enterReset.eth = {} := rfl
@[simp] theorem Mod.enterReset_cans : m.enterReset.cans = List.replicate 4 {} := rfl
@[simp] theorem Mod.enterReset_cfg : m.enterReset.cfg = {} := rfl
@[simp] theorem Mod.enterReset_change : m.enterReset.change = {} := rfl

/-- Outside the override, which lasts through resets (R503), the increment is the nominal one. -/
theorem Mod.enterReset_addend_nominal (h : m.claimReleased.clk.override = false) : m.enterReset.tb.addend = 0xA0000000 := by
  simp [h]

end EnterReset

/-- Settles O47: the module as the release left it is `Mod.claimReleased`, and each clause reads one group of fields off the laws
of `Mod.enterReset`. -/
theorem everyResetKeepsWhatTheSpecKeeps : Obligations.EveryResetKeepsWhatTheSpecKeeps := by
  unfold Obligations.EveryResetKeepsWhatTheSpecKeeps
  intro m k n
  have hk : k = m.claimReleased := rfl
  have hn : n = m.enterReset := rfl
  clear_value k n
  subst hk hn
  refine ⟨?held, ?cleared, ?memories, ?counters, ?backup, m.enterReset_si, ?media⟩
  case held => simp
  case cleared => simpa using m.enterReset_addend_nominal
  case memories => simp
  case counters => simp
  case backup => simp
  case media => simp

end Sys2Proof.Machine
end

section
/-! How a step without a command, an event of a live module and an armed timer run: the rules by which a statement on a command is
read off the command's definition. -/

namespace Sys2Proof.Machine

/-- A step of the empty queue is one idle ROOT cycle (log entry 7). -/
theorem step_of_pending_nil {s : State} (h : s.pending = []) : step s = .next s.idle := by simp only [step, h]

/-- Time that passes changes only the time base, the counters, the count of free values drawn and the backup domain. -/
theorem Mod.pass_frame (m : Mod) (n : Nat) :
    m.pass n = { m with tb := (m.pass n).tb, pmc := (m.pass n).pmc, free := (m.pass n).free, bkp := (m.pass n).bkp } := rfl

@[simp] theorem TimeBase.pass_mono (t : TimeBase) (n : Nat) : (t.pass n).mono = t.mono + n * t.cyclePhases := rfl
@[simp] theorem TimeBase.pass_root (t : TimeBase) (n : Nat) : (t.pass n).root = t.root + n := rfl
@[simp] theorem TimeBase.pass_now (t : TimeBase) (n : Nat) : (t.pass n).now = t.now + n * t.cycleUnits := rfl

section Rules
variable {c : Instr} {s : State} {f g : Mod → Mod}

/-- A command that changes the module by `f` makes `k` where `f` takes the present module to `k`. -/
theorem makes_of_run {k : Mod} (hc : exec c s = s.run f) (hk : f s.m = k) : Makes c s k := by
  rw [Makes, hc, State.run_def, hk]

/-- An event that acts on a live module alone, on a live module. -/
theorem makes_of_live {k : Mod} (hl : s.m.live = true) (hc : exec c s = s.run (·.whenLive f)) (hk : f s.m = k) : Makes c s k :=
  makes_of_run hc ((Mod.whenLive_live f hl).trans hk)

/-- A timer that runs on a live module alone, on a live module: `due` says from the module when it is armed, and `f` is what the
command does (`g`) at that instant. -/
theorem actsAt_of_live {due : Mod → Option Nat} {d : Option Nat} (hl : s.m.live = true)
    (hc : exec c s = s.run (·.whenLive fun m => m.onDue (due m) g)) (hd : due s.m = d) (hg : ∀ t, g (s.m.to t) = f (s.m.to t)) :
    ActsAt c s d f := by
  subst hd
  constructor
  · intro t ht
    exact makes_of_live hl hc (by rw [ht, Mod.onDue_some, hg])
  · intro hn
    exact makes_of_live hl hc (by rw [hn, Mod.onDue_none])

end Rules

/-- Settles O2: the step is one idle cycle, and the frame of the time that passes leaves the rest of the module. -/
theorem emptyQueueIdlesOneRootCycle : Obligations.EmptyQueueIdlesOneRootCycle := by
  unfold Obligations.EmptyQueueIdlesOneRootCycle
  intro s h
  exact ⟨s.idle, step_of_pending_nil h, h, by simp, by simp, by simp, s.m.pass_frame 1⟩

end Sys2Proof.Machine
end

section
/-! The faults of a module, the start that follows a failure, and the claim keeper. -/

namespace Sys2Proof.Machine

section FailedRestart
variable {m : Mod}

/-- A rollback is recorded in the journal, or its record waits for the supply (R63). -/
abbrev Mod.rollbackDue (m : Mod) : Prop := m.cas.jrn.pend = 2 ∨ m.cas.pendW.contains .rollback = true

/-- The counted starts within the last hour of operating time (R319). -/
abbrev Mod.recentStarts (m : Mod) : List Nat := m.tan.starts.filter fun a => decide (m.optime < a + 3600000)

theorem Mod.failedRestart_rollback (h : m.rollbackDue) : m.failedRestart = m.orderStart { cause := 5, cold := some true } :=
  if_pos h

theorem Mod.failedRestart_exhausted (h : ¬ m.rollbackDue) (h3 : 3 ≤ m.recentStarts.length) :
    m.failedRestart = m.updTan fun t => { t with failedAt := none } :=
  (if_neg h).trans (if_pos h3)

theorem Mod.failedRestart_again (h : ¬ m.rollbackDue) (h3 : m.recentStarts.length < 3) :
    m.failedRestart = m.orderStart { cause := m.tan.failCause } :=
  (if_neg h).trans (if_neg (Nat.not_le.mpr h3))

end FailedRestart

theorem Mod.keeperExpires_claim {m : Mod} (h : m.tan.ilk.ownClaim = true) :
    m.keeperExpires = m.releaseClaim.updIlk fun k => { k with keeperRefresh := false } := if_pos h

theorem Mod.keeperExpires_unclaimed {m : Mod} (h : m.tan.ilk.ownClaim = false) : m.keeperExpires = m := by
  simp [Mod.keeperExpires, h]

/-- Settles O48: each fault is an event of a live module, with the unit of a memory error as `eccUnit` names it; the restart is a timer
of a live module; the keeper acts in every state. -/
theorem faultsFailTheModule : Obligations.FaultsFailTheModule := by
  unfold Obligations.FaultsFailTheModule
  intro s m
  refine ⟨fun hl => ⟨fun p => ⟨?lockstep, ?watchdog, ?exception⟩, fun p => ⟨?tcm, ?ceStore⟩, ?sram, ?dram, fun src => ?corrected, ?restart⟩,
    fun h => ?keeper, fun h => ?noClaim, fun k => ⟨?rollback, ?exhausted, ?again⟩⟩
  case lockstep | watchdog | exception | tcm | ceStore | sram | dram | corrected => exact makes_of_live hl rfl rfl
  case restart => exact actsAt_of_live hl rfl rfl fun _ => rfl
  case keeper => exact makes_of_run rfl (Mod.keeperExpires_claim h)
  case noClaim => exact makes_of_run rfl (Mod.keeperExpires_unclaimed h)
  case rollback => exact Mod.failedRestart_rollback
  case exhausted => exact Mod.failedRestart_exhausted
  case again => exact Mod.failedRestart_again

end Sys2Proof.Machine
end

section
/-! The interlock: the peer line, the timeouts of the stages, and the timers of claim, latch and role decision. -/

namespace Sys2Proof.Machine

/-- The reading of the peer line settles a conflict on a live module alone (R584, R29, R324). -/
theorem Mod.peerVoltage_eq (m : Mod) (mv : Nat) (held : Bool) : m.peerVoltage mv held =
    if m.live = true then (m.updIlk fun k => k.setPeer (readPeer k.peer mv held) m.mono).restage.settleConflict.watchFit
    else (m.updIlk fun k => k.setPeer (readPeer k.peer mv held) m.mono).restage := rfl

/-- Settles O49: the line and the output timeout act in every state, all others are timers of a live module. Time that runs on to
a timer's instant leaves the tandem logic as it was, so a claim and the latch are judged as they stood before. -/
theorem interlockClaimsLatchesAndWithdraws : Obligations.InterlockClaimsLatchesAndWithdraws := by
  unfold Obligations.InterlockClaimsLatchesAndWithdraws
  intro s m i
  refine ⟨fun mv held => ?line, fun c => ?dio, fun c => ?ao, fun hl =>
    ⟨?latch, ?enable, ?claim, ?slotA, ?recheck, ?openWait, ?blocked, ?redecide, ?gone⟩⟩
  case line => exact makes_of_run (f := (·.peerVoltage mv held)) rfl (m.peerVoltage_eq mv held)
  case dio | ao => exact rfl
  case latch | enable | claim | slotA | recheck | openWait | redecide => exact actsAt_of_live hl rfl rfl fun _ => rfl
  case blocked => exact actsAt_of_live hl rfl rfl fun t => by simp [Mod.act, m, i]
  case gone => exact actsAt_of_live hl rfl (by simp [m, i]) fun _ => rfl

end Sys2Proof.Machine
end

section
/-! How a command is read off its definition: the next module that it comes to, and what a COMMAND that may run leaves. -/

namespace Sys2Proof.Machine

/-- A command that leaves the module `k`, written as the next module `t` that its definition comes to. -/
theorem makes_of_next {c : Instr} {s : State} {t k : Mod} (hc : exec c s = .next { s with m := t }) (ht : t = k) : Makes c s k :=
  ht ▸ hc

section Commanded
variable {c : Instr} {s : State} {rq : Req} {x : Session} {idx role : Nat} {p5 im : Bool} {f : Session → Mod → CmdAns}
  (hc : exec c s = s.run fun m => m.command rq idx role p5 im f) (h : admitted s.m rq x idx role p5 im)
include hc h

/-- A COMMAND that may run and whose meaning answers `r`: the module of `r`, with the command object `o` that follows from `r` (R575). -/
theorem makes_commanded {r : CmdAns} {o : CmdObj} (hf : f x (s.m.touchSession rq.sess) = r)
    (ho : (if r.status = stAccepted ∧ r.stays ∧ r.ended.isNone then { at_ s.m.eap.cmds idx {} with open_ := true }
      else { status := r.ended.getD (if r.status = stAccepted then stOk else r.status), detail := r.detail, value := r.value }) = o) :
    Makes c s (commanded r.m rq idx o r.status r.body) := by
  obtain ⟨⟨hl, hs, ht⟩, hr, hp, hm, hop⟩ := h
  exact makes_of_run hc (by rw [Mod.command_at hl hs ht hr hp hm hop hf, commanded, ho])

/-- One that is complete with its answer. -/
theorem makes_commanded_done {k : Mod} {st : Nat} (hf : f x (s.m.touchSession rq.sess) = { m := k, status := st }) (hst : st ≠ stAccepted) :
    Makes c s (commanded k rq idx { status := st } st []) :=
  makes_commanded hc h hf (by simp [hst])

/-- One that is accepted and stays open. -/
theorem makes_commanded_open {k : Mod} (hf : f x (s.m.touchSession rq.sess) = { m := k, status := stAccepted }) :
    Makes c s (commanded k rq idx { at_ s.m.eap.cmds idx {} with open_ := true } stAccepted []) :=
  makes_commanded hc h hf (by simp)

/-- One that is accepted and has ended at once, with status `e`. -/
theorem makes_commanded_ended {k : Mod} {e : Nat} (hf : f x (s.m.touchSession rq.sess) = { m := k, status := stAccepted, ended := some e }) :
    Makes c s (commanded k rq idx { status := e } stAccepted []) :=
  makes_commanded hc h hf (by simp)

end Commanded

end Sys2Proof.Machine
end

section
/-! A module in reset: requests are not heard there, and the events and timers of the main side do nothing. -/

namespace Sys2Proof.Machine

section Held
variable {m : Mod} (h : m.live = false)
include h

theorem Mod.serve_held (rq : Req) (f : Session → Mod → Served) : m.serve rq f = m := by
  simp only [Mod.serve, h, Bool.not_false, if_true]

theorem Mod.alarmRequest_held (rq : Req) (f : Mod → Nat ⊕ AlmCmd) : m.alarmRequest rq f = m := Mod.serve_held h ..

theorem Mod.onFoMsg_held (b : Bytes) (f : Mod → Nat → Mod) : m.onFoMsg b f = m := by simp [Mod.onFoMsg, h]

theorem Mod.whenCan_held (f : Mod → Mod) : m.whenCan f = m := by simp [Mod.whenCan, h]

/-- No port of a module in reset takes part in PTP (R286). -/
theorem Mod.ptpOn_held (n : Nat) : m.ptpOn n = none := by
  unfold Mod.ptpOn; split <;> simp [h]

theorem Mod.ptpTakes_held (n : Nat) (x : PtpRx) : m.ptpTakes n x = none := by simp [Mod.ptpTakes, Mod.ptpOn_held h]

theorem Mod.ptpForward_held (n : Nat) (x : PtpRx) (g : PtpMsg) : m.ptpForward n x g = m := by
  simp [Mod.ptpForward, Mod.ptpOn_held h, Mod.netOf]

theorem Mod.syncCame_held (x : PtpRx) (o : PtpOffset) : m.syncCame x o = m := by
  unfold Mod.syncCame; split <;> simp_all [Mod.ptpTakes_held h]

theorem Mod.announceCame_held (x : PtpRx) (a : Announce) : m.announceCame x a = m := by
  simp only [Mod.announceCame, Mod.ptpTakes_held h]

theorem Mod.delayCame_held (n : Nat) (x : PtpRx) (peer request : Bool) (d : Nat) : m.delayCame n x peer request d = m := by
  simp only [Mod.delayCame, Mod.ptpTakes_held h]

theorem Mod.managementCame_held (n : Nat) (x : PtpRx) (get : Bool) : m.managementCame n x get = m := by
  simp only [Mod.managementCame, Mod.ptpTakes_held h]

end Held

section Unchanged
variable {c : Instr} {s : State} {f : Mod → Mod} (hl : s.m.live = false)
include hl

theorem makes_self_of_whenLive (hc : exec c s = s.run (·.whenLive f)) : Makes c s s.m :=
  makes_of_run hc (Mod.whenLive_held f hl)

theorem makes_self_of_whenCan (hc : exec c s = s.run (·.whenCan f)) : Makes c s s.m :=
  makes_of_run hc (Mod.whenCan_held hl f)

theorem makes_self_of_serve {rq : Req} {g : Session → Mod → Served} (hc : exec c s = s.run (·.serve rq g)) : Makes c s s.m :=
  makes_of_run hc (Mod.serve_held hl rq g)

theorem makes_self_of_onFoMsg {b : Bytes} {g : Mod → Nat → Mod} (hc : exec c s = s.run (·.onFoMsg b g)) : Makes c s s.m :=
  makes_of_run hc (Mod.onFoMsg_held hl b g)

/-- A PTP message is not passed on in reset; `g` is what the module then does with it. -/
theorem makes_self_of_ptp {n : Nat} {x : PtpRx} {p : PtpMsg} {g : Mod → Mod} (hc : exec c s = s.run fun m => g (m.ptpForward n x p))
    (hg : g s.m = s.m) : Makes c s s.m :=
  makes_of_run hc (by rw [Mod.ptpForward_held hl, hg])

/-- No command that carries a request is heard in reset (R63, R71); `HANDOVER` is one, and settles a request only that it has opened. -/
theorem makes_self_of_request {rq : Req} (hr : requestOf c = some rq) : Makes c s s.m := by
  cases c <;> cases hr
  case handover force =>
    refine makes_of_next rfl ?_
    simp [Mod.command, Mod.serve_held hl]
  case alarmAck | alarmShelve | alarmUnshelve | alarmOutOfService | alarmReturnToService =>
    exact makes_of_next rfl (Mod.alarmRequest_held hl ..)
  all_goals exact makes_self_of_serve hl rfl

/-- No event and no timer acts in reset but those of `actsInReset`: each is guarded by the main side running, most of them by
`Mod.whenLive` itself. -/
theorem makes_self_of_event (hr : requestOf c = none) (ha : actsInReset c = false) : Makes c s s.m := by
  cases c <;> cases ha <;> cases hr
  case internalReset | announceReceiptTimeout | holdoverLimit =>
    refine makes_of_next rfl ?_
    beta_reduce
    split <;> simp [hl]
  case ptpMessageInterval => exact makes_of_next rfl (by simp only [Mod.ptpOn_held hl])
  case frameBoundary | displayIconSample | actAtMessage => exact makes_of_next rfl (if_neg (by simp [hl]))
  case foCandidate | foDecided | foReset => exact makes_self_of_onFoMsg hl rfl
  case ptpSync => exact makes_self_of_ptp hl (g := (·.syncCame _ _)) rfl (Mod.syncCame_held hl ..)
  case ptpAnnounce => exact makes_self_of_ptp hl (g := (·.announceCame _ _)) rfl (Mod.announceCame_held hl ..)
  case ptpDelayMessage => exact makes_self_of_ptp hl (g := (·.delayCame _ _ _ _ _)) rfl (Mod.delayCame_held hl ..)
  case ptpManagement => exact makes_self_of_ptp hl (g := (·.managementCame _ _ _)) rfl (Mod.managementCame_held hl ..)
  case canFrameReceived | canTxSuccess | canArbitrationLost | canBusError | canTxtmoExpiry | canRecoveryStart |
      canRecoveryComplete | canRtmoExpiry | canBusIntegration | addressClaimWait | transportPacketTimer | transportSessionTimeout =>
    exact makes_self_of_whenCan hl rfl
  all_goals exact makes_self_of_whenLive hl rfl

end Unchanged

/-- Settles O53: a command that acts in no reset either carries a request, which is not heard there, or is an event or a timer of the
main side. -/
theorem inResetOnlyItsUngatedBlocksAct : Obligations.InResetOnlyItsUngatedBlocksAct := by
  unfold Obligations.InResetOnlyItsUngatedBlocksAct
  intro c s hl ha
  cases hr : requestOf c with
  | some rq => exact makes_self_of_request hl hr
  | none => exact makes_self_of_event hl hr ha

end Sys2Proof.Machine
end

section
/-! The image of a start: a switch by restart, `ACTIVATE` and `ROLLBACK`. -/

namespace Sys2Proof.Machine

/-! A switch by restart (R53). -/

section Switch
variable {m : Mod} {h : Hdr}

/-- The module that has written header `h` and ordered the start of its image (R53, R59, R65). -/
def Mod.restartedInto (m : Mod) (h : Hdr) : Mod :=
  ((m.newActive h).announce (h.slot h.active).icrc m.planHash).orderStart { cause := 4, cold := some true }

theorem Mod.switchByRestart_accepted (hl : (m.newActive h).hdrLost = false) :
    m.switchByRestart h stAccepted = { m := m.restartedInto h, status := stAccepted, ended := some stOk } :=
  if_neg (Bool.eq_false_iff.mp hl)

theorem Mod.switchByRestart_accepted_lost (hl : (m.newActive h).hdrLost = true) :
    m.switchByRestart h stAccepted = { m := m.newActive h, status := stAccepted, ended := some stCondition } := if_pos hl

theorem Mod.switchByRestart_ok (hl : (m.newActive h).hdrLost = false) :
    m.switchByRestart h stOk = { m := m.restartedInto h, status := stOk } :=
  if_neg (Bool.eq_false_iff.mp hl)

theorem Mod.switchByRestart_ok_lost (hl : (m.newActive h).hdrLost = true) :
    m.switchByRestart h stOk = { m := m.newActive h, status := stCondition } := if_pos hl

end Switch

/-! `ACTIVATE`, check by check (R47, R53, R65, R577). -/

section Activate
variable {m : Mod} {x : Session} {n : Nat} {r : Bool}

/-- `MAINTENANCE` takes an activation from SERVICE on P5 alone (R577). -/
def Mod.SentRight (m : Mod) (x : Session) : Prop := m.maint = true → 4 ≤ x.role ∧ x.port = 2

/-- An activation may run now: from this session, without another change, and neither `MAINTENANCE` nor the tandem against it. -/
structure Mod.MayActivate (m : Mod) (x : Session) : Prop where
  sent : m.SentRight x
  idle : m.changing = false
  unconfigured : m.maint = true → m.cas.hdr.unconfigured = true
  tandem : m.tandemForbids x = false

/-- Slot `n` may be switched to: `VALID`, not the active one, and held by the partner where R65 asks. -/
structure Mod.Switchable (m : Mod) (n : Nat) : Prop where
  slot : n < 8
  valid : (m.cas.hdr.slot n).st = 2
  other : n ≠ m.cas.hdr.active
  held : m.needsBoth = true → m.partnerHolds n = true

theorem Mod.SentRight.not_refused (h : m.SentRight x) : ¬ (m.maint && (decide (x.role < 4) || x.port != 2)) = true := by
  simpa [Mod.SentRight] using h

theorem Mod.MayActivate.not_forbidden (h : m.MayActivate x) : ¬ (m.maint && !m.cas.hdr.unconfigured || m.tandemForbids x) = true := by
  simpa [h.tandem] using h.unconfigured

theorem slot_not_absent {st : Nat} (hn : n < 8) (hv : st = 2) : ¬ (8 ≤ n ∨ st ≠ 2) := by omega

theorem Mod.Switchable.not_refused (h : m.Switchable n) : ¬ (n = m.cas.hdr.active ∨ m.needsBoth ∧ !m.partnerHolds n) := by
  simpa [h.other] using h.held

theorem Mod.activateCmd_role (hm : m.maint = true) (h : x.role < 4 ∨ x.port ≠ 2) : m.activateCmd x n r = { m := m, status := stRole } :=
  if_pos (by simpa [hm] using h)

theorem Mod.activateCmd_busy (hs : m.SentRight x) (hc : m.changing = true) : m.activateCmd x n r = { m := m.busyChange, status := stBusy } := by
  rw [Mod.activateCmd, if_neg hs.not_refused, if_pos hc]

theorem Mod.activateCmd_forbidden (hs : m.SentRight x) (hc : m.changing = false)
    (h : m.maint = true ∧ m.cas.hdr.unconfigured = false ∨ m.tandemForbids x = true) :
    m.activateCmd x n r = { m := m, status := stCondition } := by
  rw [Mod.activateCmd, if_neg hs.not_refused, if_neg (Bool.eq_false_iff.mp hc), if_pos (by simpa using h)]

section
variable (h : m.MayActivate x)
include h

theorem Mod.activateCmd_absent (hn : 8 ≤ n ∨ (m.cas.hdr.slot n).st ≠ 2) : m.activateCmd x n r = { m := m, status := stAbsent } := by
  rw [Mod.activateCmd, if_neg h.sent.not_refused, if_neg (Bool.eq_false_iff.mp h.idle), if_neg h.not_forbidden, if_pos hn]

theorem Mod.activateCmd_condition (hn : n < 8) (hv : (m.cas.hdr.slot n).st = 2)
    (hs : n = m.cas.hdr.active ∨ m.needsBoth = true ∧ m.partnerHolds n = false) :
    m.activateCmd x n r = { m := m, status := stCondition } := by
  rw [Mod.activateCmd, if_neg h.sent.not_refused, if_neg (Bool.eq_false_iff.mp h.idle), if_neg h.not_forbidden, if_neg (slot_not_absent hn hv),
    if_pos (by simpa using hs)]

theorem Mod.activateCmd_online (hs : m.Switchable n) (hm : m.maint = false) (ho : m.switchOnline n = true) :
    m.activateCmd x n false = { m := m.beginChange n 0, status := stAccepted } := by
  rw [Mod.activateCmd, if_neg h.sent.not_refused, if_neg (Bool.eq_false_iff.mp h.idle), if_neg h.not_forbidden,
    if_neg (slot_not_absent hs.slot hs.valid), if_neg hs.not_refused, if_pos (by simp [hm, ho])]

theorem Mod.activateCmd_restart (hs : m.Switchable n) (hr : m.maint = true ∨ r = true ∨ m.switchOnline n = false)
    (hj : m.judgeSlot n = none) : m.activateCmd x n r = m.switchByRestart (m.cas.hdr.activate n) stAccepted := by
  rw [Mod.activateCmd, if_neg h.sent.not_refused, if_neg (Bool.eq_false_iff.mp h.idle), if_neg h.not_forbidden,
    if_neg (slot_not_absent hs.slot hs.valid), if_neg hs.not_refused, if_neg (by simpa [or_iff_not_imp_left] using hr), hj]

end
end Activate

/-! `ROLLBACK`, check by check (R64, R577). -/

section Rollback
variable {m : Mod} {x : Session}

theorem Mod.rollbackCmd_busy (hc : m.changing = true) : m.rollbackCmd x = { m := m, status := stBusy } := if_pos hc

section
variable (hc : m.changing = false)
include hc

theorem Mod.rollbackCmd_forbidden (ht : m.tandemForbids x = true) : m.rollbackCmd x = { m := m, status := stCondition } := by
  rw [Mod.rollbackCmd, if_neg (Bool.eq_false_iff.mp hc), if_pos ht]

variable (ht : m.tandemForbids x = false)
include ht

theorem Mod.rollbackCmd_noPrevious (hp : 8 ≤ m.cas.hdr.previous ∨ (m.cas.hdr.slot m.cas.hdr.previous).st ≠ 2) :
    m.rollbackCmd x = { m := m, status := stNoPrevious } := by
  rw [Mod.rollbackCmd, if_neg (Bool.eq_false_iff.mp hc), if_neg (Bool.eq_false_iff.mp ht), if_pos hp]

variable (hp : m.cas.hdr.previous < 8) (hv : (m.cas.hdr.slot m.cas.hdr.previous).st = 2)
include hp hv

theorem Mod.rollbackCmd_online (ho : m.switchOnline m.cas.hdr.previous = true) :
    m.rollbackCmd x = { m := m.beginChange m.cas.hdr.previous 1, status := stAccepted } := by
  rw [Mod.rollbackCmd, if_neg (Bool.eq_false_iff.mp hc), if_neg (Bool.eq_false_iff.mp ht), if_neg (slot_not_absent hp hv), if_pos ho]

variable (ho : m.switchOnline m.cas.hdr.previous = false)
include ho

theorem Mod.rollbackCmd_fails (hj : (m.judgeSlot m.cas.hdr.previous).isSome = true) : m.rollbackCmd x = { m := m, status := stCondition } := by
  rw [Mod.rollbackCmd, if_neg (Bool.eq_false_iff.mp hc), if_neg (Bool.eq_false_iff.mp ht), if_neg (slot_not_absent hp hv),
    if_neg (Bool.eq_false_iff.mp ho), if_pos hj]

theorem Mod.rollbackCmd_restart (hj : m.judgeSlot m.cas.hdr.previous = none) : m.rollbackCmd x = m.switchByRestart m.cas.hdr.exchange stOk := by
  rw [Mod.rollbackCmd, if_neg (Bool.eq_false_iff.mp hc), if_neg (Bool.eq_false_iff.mp ht), if_neg (slot_not_absent hp hv),
    if_neg (Bool.eq_false_iff.mp ho), if_neg (by simp [hj])]

end
end Rollback

/-- Settles O11: both commands answer by their first check that fails; where none does, the switch is the online change or the header
and the start of `Mod.switchByRestart`. -/
theorem activateAndRollbackSwitchTheImage : Obligations.ActivateAndRollbackSwitchTheImage := by
  unfold Obligations.ActivateAndRollbackSwitchTheImage
  constructor
  · intro s rq x hc ht m
    refine ⟨fun slot r h hm hn hv ha hb => ?activate,
      fun h hp hv => ⟨fun ho => ?online, fun ho hj => ⟨fun hl => ?restart, fun hl => ?lost⟩⟩⟩
    case activate =>
      have may : m.MayActivate x := ⟨fun k => ⟨(hm k).1, (hm k).2.1⟩, hc, fun k => (hm k).2.2, ht⟩
      have slotOk : m.Switchable slot.toNat := ⟨hn, hv, ha, hb⟩
      refine ⟨fun hm hr ho => ?switched, fun hr hj => ⟨fun hl => ?byRestart, fun hl => ?headerLost⟩⟩
      case switched =>
        subst hr
        exact makes_commanded_open rfl h (Mod.activateCmd_online may slotOk hm ho)
      case byRestart => exact makes_commanded_ended rfl h ((Mod.activateCmd_restart may slotOk hr hj).trans (Mod.switchByRestart_accepted hl))
      case headerLost => exact makes_commanded_ended rfl h ((Mod.activateCmd_restart may slotOk hr hj).trans (Mod.switchByRestart_accepted_lost hl))
    case online => exact makes_commanded_open rfl h (Mod.rollbackCmd_online (m := m) hc ht hp hv ho)
    case restart =>
      exact makes_commanded_done rfl h ((Mod.rollbackCmd_restart (m := m) hc ht hp hv ho hj).trans (Mod.switchByRestart_ok hl)) (by decide)
    case lost =>
      exact makes_commanded_done rfl h ((Mod.rollbackCmd_restart (m := m) hc ht hp hv ho hj).trans (Mod.switchByRestart_ok_lost hl)) (by decide)
  · intro s rq x m
    refine ⟨fun slot r h => ⟨fun hm hx => ?role, fun hs => ⟨fun hc => ?busy, fun hc => ⟨fun hf => ?forbidden, fun hu ht => ?slot⟩⟩⟩,
      fun h => ⟨fun hc => ?rollbackBusy, fun hc => ⟨fun ht => ?rollbackForbidden,
        fun ht => ⟨fun hp => ?noPrevious, fun hp hv ho hj => ?fails⟩⟩⟩⟩
    case role => exact refuses_of rfl h (Mod.activateCmd_role hm hx) (by decide)
    case busy => exact makes_commanded_done rfl h (Mod.activateCmd_busy (m := m) hs hc) (by decide)
    case forbidden => exact refuses_of rfl h (Mod.activateCmd_forbidden hs hc hf) (by decide)
    case slot =>
      have may : m.MayActivate x := ⟨hs, hc, hu, ht⟩
      exact ⟨fun hn => refuses_of rfl h (Mod.activateCmd_absent may hn) (by decide),
        fun hn hv hs => refuses_of rfl h (Mod.activateCmd_condition may hn hv hs) (by decide)⟩
    case rollbackBusy => exact refuses_of rfl h (Mod.rollbackCmd_busy hc) (by decide)
    case rollbackForbidden => exact refuses_of rfl h (Mod.rollbackCmd_forbidden hc ht) (by decide)
    case noPrevious => exact refuses_of rfl h (Mod.rollbackCmd_noPrevious hc ht hp) (by decide)
    case fails => exact refuses_of rfl h (Mod.rollbackCmd_fails hc ht hp hv ho hj) (by decide)

end Sys2Proof.Machine
end

section
/-! Firmware banks and the owner key. -/

namespace Sys2Proof.Machine

/-! `BANK` and `OWNER_KEY`, check by check (R48, R66, R68, R77, R577). -/

section BankKey
variable {m : Mod} {toB now force : Bool}

/-- The three images of a bank are good (R66). -/
abbrev FwBank.imagesGood (b : FwBank) : Bool := b.boot.good && b.main.good && b.si.good

theorem FwBank.imagesGood_of {b : FwBank} (hb : b.boot.good = true) (hm : b.main.good = true) (hs : b.si.good = true) :
    b.imagesGood = true := by
  rw [FwBank.imagesGood, hb, hm, hs]; rfl

/-- The bank that `BANK` names. -/
abbrev Mod.namedBank (m : Mod) (toB : Bool) : FwBank := if toB then m.bankB else m.bankA

theorem Mod.bankCmd_img (h : (m.namedBank toB).imagesGood = false) :
    m.bankCmd toB now force = { m := m, status := stImg } :=
  if_pos ((Bool.not_eq_true' _).mpr h)

theorem Mod.bank_compatible (hv : m.maint = false → (m.namedBank toB).valid m.otp.hwRev = true) :
    ¬ (!m.maint && !(m.namedBank toB).valid m.otp.hwRev) = true := by simpa using hv

section
variable (h : (m.namedBank toB).imagesGood = true)
include h

theorem Mod.bankCmd_incompatible (hm : m.maint = false) (hv : (m.namedBank toB).valid m.otp.hwRev = false) :
    m.bankCmd toB now force = { m := m, status := stFwIncompatible } :=
  (if_neg (by simpa using h)).trans (if_pos (by rw [hm, hv]; rfl))

variable (hv : m.maint = false → (m.namedBank toB).valid m.otp.hwRev = true)
include hv

theorem Mod.bankCmd_noPartner (ha : m.alone = true) : m.bankCmd toB true false = { m := m, status := stNoPartner } :=
  (if_neg (by simpa using h)).trans ((if_neg (Mod.bank_compatible hv)).trans (if_pos (by rw [ha]; rfl)))

theorem Mod.bankCmd_ok (ha : now = true → m.alone = true → force = true) : m.bankCmd toB now force =
    { m :=
        let k := m.selectBank toB
        let k1 : Mod := { k with boot := { k.boot with bankSwitch := if toB = m.onB then none else some toB } }
        if now then k1.orderStart { cause := 8 } else k1 } :=
  (if_neg (by simpa using h)).trans ((if_neg (Mod.bank_compatible hv)).trans (if_neg (by simpa using ha)))

end

theorem Mod.enrolKey_condition (b : Bytes) (h : m.cas.present = false ∨ m.cas.keyErased = false) :
    m.enrolKey b = { m := m, status := stCondition } := if_pos (by simpa using h)

theorem Mod.enrolKey_supplyLow (b : Bytes) (hp : m.cas.present = true) (hk : m.cas.keyErased = true) (hw : m.sup.mayWrite = false) :
    m.enrolKey b = { m := m, status := stSupplyLow } :=
  (if_neg (by simp [hp, hk])).trans (if_pos (by simp [hw]))

theorem Mod.enrolKey_ok (b : Bytes) (hp : m.cas.present = true) (hk : m.cas.keyErased = true) (hw : m.sup.mayWrite = true) :
    m.enrolKey b = { m := { m with cas := m.cas.program 0x20000 (keyRec b) } } :=
  (if_neg (by simp [hp, hk])).trans (if_neg (by simp [hw]))

theorem Mod.eraseKey_condition (h : m.maint = false ∨ m.cas.present = false) : m.eraseKey = { m := m, status := stCondition } :=
  if_pos (by simpa using h)

theorem Mod.eraseKey_supplyLow (hm : m.maint = true) (hp : m.cas.present = true) (he : m.sup.mayErase = false) :
    m.eraseKey = { m := m, status := stSupplyLow } :=
  (if_neg (by simp [hm, hp])).trans (if_pos (by simp [he]))

theorem Mod.eraseKey_ok (hm : m.maint = true) (hp : m.cas.present = true) (he : m.sup.mayErase = true) :
    m.eraseKey = { m := { m with cas := m.cas.eraseRange 0x20000 0x30000 } } :=
  (if_neg (by simp [hm, hp])).trans (if_neg (by simp [he]))

end BankKey

/-- Settles O13: each clause is the case of `Mod.bankCmd`, `Mod.enrolKey` or `Mod.eraseKey` that its conditions name. -/
theorem bankAndOwnerKeyCommands : Obligations.BankAndOwnerKeyCommands := by
  unfold Obligations.BankAndOwnerKeyCommands
  constructor
  · intro s rq x m
    refine ⟨fun toB now force h hb ha => ?bank, fun pub h hp hk hw => ?enrol, fun h hm hp he => ?erase⟩
    case bank =>
      obtain ⟨hboot, hmain, hsi, hv⟩ := hb
      exact makes_commanded_done rfl h (Mod.bankCmd_ok (m := m) (FwBank.imagesGood_of hboot hmain hsi) hv ha) (by decide)
    case enrol => exact makes_commanded_done rfl h (Mod.enrolKey_ok (m := m) pub hp hk hw) (by decide)
    case erase => exact makes_commanded_done rfl h (Mod.eraseKey_ok (m := m) hm hp he) (by decide)
  · intro s rq x
    refine ⟨fun toB now force h => ⟨fun hg => ?img, fun hg => ⟨fun hm hv => ?incompatible, ?noPartner⟩⟩,
      fun h => ⟨fun pub => ⟨fun hc => ?enrolCondition, fun hp hk hw => ?enrolSupply⟩,
        fun hc => ?eraseCondition, fun hm hp he => ?eraseSupply⟩⟩
    case img => exact refuses_of rfl h (Mod.bankCmd_img hg) (by decide)
    case incompatible => exact refuses_of rfl h (Mod.bankCmd_incompatible hg hm hv) (by decide)
    case noPartner =>
      rintro hv rfl ha rfl
      exact refuses_of rfl h (Mod.bankCmd_noPartner hg hv ha) (by decide)
    case enrolCondition => exact refuses_of rfl h (Mod.enrolKey_condition pub hc) (by decide)
    case enrolSupply => exact refuses_of rfl h (Mod.enrolKey_supplyLow pub hp hk hw) (by decide)
    case eraseCondition => exact refuses_of rfl h (Mod.eraseKey_condition hc) (by decide)
    case eraseSupply => exact refuses_of rfl h (Mod.eraseKey_supplyLow hm hp he) (by decide)

end Sys2Proof.Machine
end

section
/-! Resets and starts. -/

namespace Sys2Proof.Machine

/-! The start at the end of a reset: what holds it in reset, and its cause. -/

section Start
variable {m : Mod} {o : ResetOrder} {obs : StartObs}

theorem Mod.causeOf_rollback (h : m.cas.jrn.pend = 2) : m.causeOf o = { o with cause := 5, cold := some true } := if_pos h

theorem Mod.causeOf_bankSwitch (h : m.cas.jrn.pend ≠ 2) (hb : m.boot.bankSwitch = some (pickBank m.bankA m.bankB).1) :
    m.causeOf o = { o with cause := 8, cold := none } :=
  (if_neg h).trans (if_pos hb)

theorem Mod.causeOf_own (h : m.cas.jrn.pend ≠ 2) (hb : m.boot.bankSwitch ≠ some (pickBank m.bankA m.bankB).1) : m.causeOf o = o :=
  (if_neg h).trans (if_neg hb)

theorem Mod.startAt_override (h : (m.t0 o obs).clk.override = true) : m.startAt o obs =
    { m.t0 o obs with clk := { (m.t0 o obs).clk with cmonEn := true, qualifying := true }
                      boot := { (m.t0 o obs).boot with held := some obs } } :=
  if_pos h

theorem Mod.startAt_clkinFails (h : (m.t0 o obs).clk.override = false) (hc : obs.clkinWindowsOk = false) : m.startAt o obs =
    ({ m.t0 o obs with
      clk := { (m.t0 o obs).clk.force 4 with cmonEn := true }, boot := { (m.t0 o obs).boot with held := some obs }
      ptp := { (m.t0 o obs).ptp with quality := .degraded } } : Mod).restage :=
  (if_neg (by simp [h])).trans (if_pos (by simp [hc]))

theorem Mod.startAt_goesOn (h : (m.t0 o obs).clk.override = false) (hc : obs.clkinWindowsOk = true) : m.startAt o obs =
    ({ m.t0 o obs with
      tb := { (m.t0 o obs).tb with slow := false }
      clk := { (m.t0 o obs).clk with cmonEn := true, clkinOk := true, pllLocked := true, src := List.replicate 5 false } } : Mod).startGoesOn obs :=
  (if_neg (by simp [h])).trans (if_neg (by simp [hc]))

end Start

/-- Settles O45: the three commands are read off their guards in order; what a start comes to is `Mod.startAt`, with the cause that
`Mod.causeOf` gives. -/
theorem resetsPassThroughAndStartsFollow : Obligations.ResetsPassThroughAndStartsFollow := by
  unfold Obligations.ResetsPassThroughAndStartsFollow
  intro s m
  have hm : m = s.m := rfl
  clear_value m
  subst hm
  refine ⟨fun o ho hl => ⟨fun hw => ?internal, fun hw => ?waits⟩, ?noOrder, fun hp => ?pressLatched,
    fun hp => ⟨fun hd => ?pressIgnored, fun hd hr => ?pressOnPower, fun hd hr => ?press⟩,
    fun obs => ⟨?releaseNothing, ?releaseToPin, ?release, ?notStuck, ?stuck⟩,
    fun k o => ⟨Mod.causeOf_rollback, Mod.causeOf_bankSwitch, Mod.causeOf_own⟩,
    fun k o obs => ⟨Mod.startAt_override, Mod.startAt_clkinFails, Mod.startAt_goesOn⟩⟩
  case internal | waits => exact makes_of_next rfl (by simp [ho, hl, hw])
  case noOrder =>
    rintro (ho | hl)
    · exact makes_of_next rfl (by simp only [ho])
    · exact makes_self_of_event hl rfl rfl
  case pressLatched => exact makes_of_next rfl (if_pos hp)
  case pressIgnored => exact makes_of_next rfl ((if_neg (by simp [hp])).trans (if_pos hd))
  case pressOnPower => exact makes_of_next rfl ((if_neg (by simp [hp])).trans ((if_neg (by simp [hd])).trans (if_pos hr)))
  case press => exact makes_of_next rfl ((if_neg (by simp [hp])).trans ((if_neg (by simp [hd])).trans (if_neg (by simp [hr]))))
  case releaseNothing => exact fun h => makes_of_next rfl (if_pos (by simpa using h))
  case releaseToPin =>
    exact fun hl hh hr hp => makes_of_next rfl ((if_neg (by simp [hl, hh])).trans (if_pos (by simp [hr, hp])))
  case release =>
    intro hl hh hr
    exact makes_of_next rfl ((if_neg (by simp [hl, hh])).trans (if_neg (by rcases hr with hr | hr <;> simp [hr])))
  case notStuck => exact fun hp => makes_of_next rfl (by simp only [hp])
  case stuck =>
    intro a hp
    exact ⟨fun hc => makes_of_next rfl (by simp only [hp, hc, if_false]),
      fun hc => makes_of_next rfl (by simp only [hp, hc, if_true])⟩

end Sys2Proof.Machine
end

section
/-! The commit window, and the writes that the supply holds back. -/

namespace Sys2Proof.Machine

section Writes
variable {m : Mod}

theorem Mod.setJrn_permitted (f : Journal → Journal) (h : m.sup.mayWrite = true) : m.setJrn f =
    { m with cas := { m.cas with jrn := f m.cas.jrn, mram := f m.cas.jrn, pendW := m.cas.pendW.filter fun w => w != .journal } } :=
  if_pos h

theorem Mod.storeWindow_permitted (h : m.sup.mayWrite = true) : m.storeWindow =
    { m with cas := { m.cas with
      jrn := { m.cas.jrn with servedMs := m.servedMs }, mram := { m.cas.jrn with servedMs := m.servedMs }, lastStore := m.mono
      winFrom := m.cas.winFrom.map fun a => m.mono - (m.mono - a) % phMs 1
      pendW := m.cas.pendW.filter fun w => w != .journal } } :=
  (if_pos h).trans (Mod.setJrn_permitted _ h)

theorem Mod.storeWindow_forbidden (h : m.sup.mayWrite = false) : m.storeWindow =
    ({ m with cas := { m.cas with
      lastStore := m.mono, pendW := m.cas.pendW.filter (fun w => w != .window) ++ [.window] } } : Mod).deferWrite :=
  if_neg (Bool.eq_false_iff.mp h)

/-- A commit put into the header that the supply permits to erase: the journal stands until the header shows it (R62). -/
theorem Mod.commitHdr_cas (h : m.sup.mayErase = true) :
    m.commitHdr.cas.winFrom = none ∧ m.commitHdr.cas.hdr.commit = 0 ∧ m.commitHdr.cas.jrn.servedMs = 0 ∧
      m.commitHdr.cas.jrn.pend = if m.commitHdr.cas.hdrFailed then m.cas.jrn.pend else 0 := by
  obtain ⟨hh, hj⟩ := m.changeRecorded_cas { m.cas.hdr with commit := 0 }
    (fun j => { j with pend := 1, servedMs := 0, trials := 0 }) h
  exact ⟨rfl, congrArg (·.commit) hh, congrArg (·.servedMs) hj, congrArg (·.pend) hj⟩

/-- The module as the completion of its window begins: an online change of the trial is over (R62). -/
def Mod.windowServed (m : Mod) : Mod := { m with change := { m.change with phase := if m.change.phase = 6 then 0 else m.change.phase } }

theorem Mod.commitWindow_permitted (h : m.sup.mayWrite = true) :
    m.commitWindow = (m.windowServed.setJrn fun j => { j with pend := 1 }).commitHdr := if_pos h

theorem Mod.commitWindow_forbidden (h : m.sup.mayWrite = false) : m.commitWindow =
    ({ m.windowServed with cas := { m.cas with winFrom := none, pendW := m.cas.pendW ++ [.commit] } } : Mod).deferWrite :=
  if_neg (Bool.eq_false_iff.mp h)

theorem Mod.resumeWrites_forbidden (h : m.sup.mayWrite = false) : m.resumeWrites = m := if_pos (by simp [h])

end Writes

/-- Settles O46: both timers run on a live module, and what they leave is the permitted or the forbidden form of the store and of the
commit. -/
theorem journalCommitAndHeldWrites : Obligations.JournalCommitAndHeldWrites := by
  unfold Obligations.JournalCommitAndHeldWrites
  intro s hl m
  refine ⟨?store, ?commit, fun h => ?held, fun _ => ?resumed, fun k =>
    ⟨fun h => ?storePermitted, fun h => ?storeForbidden, fun h => ?commitForbidden, fun h he => ?commitPermitted⟩⟩
  case store | commit => exact actsAt_of_live hl rfl rfl fun _ => rfl
  case held => exact makes_of_live hl rfl (Mod.resumeWrites_forbidden h)
  case resumed => exact makes_of_live hl rfl rfl
  case storePermitted => simp [Mod.storeWindow_permitted h]
  case storeForbidden => simp [Mod.storeWindow_forbidden h, Mod.deferWrite]
  case commitForbidden => simp [Mod.commitWindow_forbidden h, Mod.deferWrite, Mod.windowServed]
  case commitPermitted =>
    obtain ⟨hw, hc, hs, hp⟩ := Mod.commitHdr_cas (m := k.windowServed.setJrn fun j => { j with pend := 1 }) (by rwa [Mod.setJrn_mayErase])
    rw [Mod.commitWindow_permitted h]
    rw [Mod.setJrn_jrn] at hp
    exact ⟨hw, hc, hp, hs⟩

end Sys2Proof.Machine
end

section
/-! The task cycle: cadence ticks, cycle ends, apply instants and frame boundaries. -/

namespace Sys2Proof.Machine

/-! What becomes of an entry at its apply instant (R135, R139, R140, R341). -/

section ApplyEntry
variable {m : Mod} {t : Nat} {p : PendApply}

theorem Mod.applyEntry_notExecuting (h : m.executing = false) : m.applyEntry t p = m := if_pos (by rw [h]; rfl)

section
variable (h : m.executing = true)
include h

theorem Mod.applyEntry_halted (ht : (m.task t).halted = true) : m.applyEntry t p = m.discardCan (p.img.getD []) :=
  (if_neg (by simp [h])).trans (if_pos ht)

variable (ht : (m.task t).halted = false)
include ht

theorem Mod.applyEntry_inTime {img : List OutItem} (hp : p.img = some img) (hi : p.inTime = true) : m.applyEntry t p =
    ((m.applyImage t img).updTask t fun k => { k with consec := 0, runMax := 0, applied := some (p.at_, img) }).refresh t := by
  rw [Mod.applyEntry, if_neg (by simp [h]), if_neg (by simp [ht]), hp, hi]

theorem Mod.applyEntry_overrun (hp : p.img = none ∨ p.inTime = false) :
    m.applyEntry t p = ((m.discardCan (p.img.getD [])).overrun t).refresh t := by
  rw [Mod.applyEntry, if_neg (by simp [h]), if_neg (by simp [ht])]
  split
  next hi hn => simp [hi, hn] at hp
  next => rfl

end
end ApplyEntry

section TaskCycle
variable {s : State} (hl : s.m.live = true) {t : Fin 16}
include hl

theorem makes_applyInstant {p : PendApply} {rest : List PendApply} (hp : (s.m.task t).pend = p :: rest) :
    Makes (.applyInstant t) s (((s.m.toNow p.at_).updTask t fun k => { k with pend := rest }).applyEntry t p) :=
  makes_of_live hl rfl (by simp only [hp])

theorem makes_applyInstant_nil (hp : (s.m.task t).pend = []) : Makes (.applyInstant t) s s.m :=
  makes_of_live hl rfl (by simp only [hp])

theorem makes_cycleFinish {c : Cycle} {a : Nat} (ns : Nat) (hc : (s.m.task t).running = some c) (ha : c.onAt = some a) :
    Makes (.cycleFinish t ns) s ((s.m.to (a + (ns * 8 / 5 - c.ran))).finishCycle t ns c) :=
  makes_of_live hl rfl (by simp only [hc, ha])

/-- A cycle that waits for its core pair executes nothing that could end (R129, log entry 140). -/
theorem makes_cycleFinish_waiting {c : Cycle} (ns : Nat) (hc : (s.m.task t).running = some c) (ha : c.onAt = none) :
    Makes (.cycleFinish t ns) s s.m :=
  makes_of_live hl rfl (by simp only [hc, ha])

theorem makes_cycleFinish_idle (ns : Nat) (hc : (s.m.task t).running = none) : Makes (.cycleFinish t ns) s s.m :=
  makes_of_live hl rfl (by simp only [hc])

theorem makes_frameBoundary (hr : s.m.cas.running = true) :
    Makes .frameBoundary s ((s.m.toNow s.m.ce.nextB).switchCe.frameBoundary) :=
  makes_of_next rfl (if_pos (by rw [hl, hr]; rfl))

end TaskCycle

theorem makes_frameBoundary_stopped {s : State} (hr : s.m.cas.running = false) : Makes .frameBoundary s s.m :=
  makes_of_next rfl (if_neg (by simp [hr]))

/-- Settles O21: the instant takes the first entry, and each clause is the case of `Mod.applyEntry` that its conditions name. -/
theorem applyEntryAppliesHoldsOrSkips : Obligations.ApplyEntryAppliesHoldsOrSkips := by
  unfold Obligations.ApplyEntryAppliesHoldsOrSkips
  intro s t p rest hl hp m
  have taken : Makes (.applyInstant t) s (m.applyEntry t p) := makes_applyInstant hl hp
  refine ⟨fun he => ?notExecuting, fun he ht => ?halted, fun img he ht hi hin => ?applied, fun he ht hi => ?overrun⟩
  case notExecuting => exact Mod.applyEntry_notExecuting he ▸ taken
  case halted => exact Mod.applyEntry_halted he ht ▸ taken
  case applied => exact Mod.applyEntry_inTime he ht hi hin ▸ taken
  case overrun => exact Mod.applyEntry_overrun he ht hi ▸ taken

/-- Settles O20: each command runs time on to its instant and does the work of that instant, where there is one. -/
theorem cadenceCyclesAndApplyInstants : Obligations.CadenceCyclesAndApplyInstants := by
  unfold Obligations.CadenceCyclesAndApplyInstants
  refine ⟨fun s hl => ⟨?cadence, fun t ns => ⟨fun c hc => ⟨fun a ha => ?finish, fun ha => ?waits⟩, fun hc => ?noCycle⟩,
    fun t => ⟨fun p rest hp => ?apply, fun hp => ?noEntry⟩, fun hr => ?boundary⟩, fun s hr => ?stopped⟩
  case cadence => exact makes_of_live hl rfl rfl
  case finish => exact makes_cycleFinish hl ns hc ha
  case waits => exact makes_cycleFinish_waiting hl ns hc ha
  case noCycle => exact makes_cycleFinish_idle hl ns hc
  case apply => exact makes_applyInstant hl hp
  case noEntry => exact makes_applyInstant_nil hl hp
  case boundary => exact makes_frameBoundary hl hr
  case stopped => exact makes_frameBoundary_stopped hr

end Sys2Proof.Machine
end

section
/-! The online change and the re-plan: what each of their steps comes to, and the parts of the module that it sets. -/

namespace Sys2Proof.Machine

/-! What a message, the journal and the plan leave of the change and of the plan. -/

theorem Mod.setJrn_change_plan (m : Mod) (f : Journal → Journal) : (m.setJrn f).change = m.change ∧ (m.setJrn f).plan = m.plan := by
  unfold Mod.setJrn; dsimp only; split
  · exact ⟨rfl, rfl⟩
  · split <;> exact ⟨rfl, rfl⟩

theorem Mod.keepPlan_change_plan (m : Mod) (p : Plan) : (m.keepPlan p).change = m.change ∧ (m.keepPlan p).plan = m.plan := by
  unfold Mod.keepPlan; split
  · exact ⟨rfl, rfl⟩
  · exact Mod.setJrn_change_plan ..

theorem Mod.announce_change_plan (m : Mod) (i : Nat) (h : BitVec 256) : (m.announce i h).change = m.change ∧ (m.announce i h).plan = m.plan :=
  ⟨(Mod.sendTl_frame ..).1, (Mod.sendTl_frame ..).2.1⟩

@[simp] theorem Mod.control_change (m : Mod) (n : Nat) (b : Bytes) : (m.control n b).change = m.change := (Mod.sendTl_frame ..).1

/-! Phase 1 (R149). -/

section Plan
variable {m : Mod} {c : Cfg} {p : Plan}

/-- The costs with which a change is planned: measured ones in `SOLO` only (R181). -/
abbrev Mod.changeCosts (m : Mod) : List (Nat × Nat) := if m.tan.role = .solo then m.plan.measured else []

/-- The check of the new image that fails first, where one does (R54). -/
abbrev Mod.changeCheck (m : Mod) : Option ImgFail := imgCheck m.bank.main m.cas.ownerKey (m.slotImage m.change.slot)

/-- What the new image requires, this module has (R54). -/
abbrev Mod.changeFits (m : Mod) : Bool :=
  checkReqs (m.slotImage m.change.slot) m.fwMain m.bank.si.version m.otp.hwRev m.otp.variantE

/-- The module with the change in phase 2 and its plan kept. -/
def Mod.planned (m : Mod) (p : Plan) : Mod :=
  ({ m with change := { m.change with phase := 2, plan := some p },
            plan := { m.plan with state := 2, replans := Nat.min 255 (m.plan.replans + 1) } } : Mod).keepPlan p

/-- The same, the plan hash sent in a tandem (R181). -/
def Mod.plannedAnnounced (m : Mod) (c : Cfg) (p : Plan) : Mod :=
  if m.tan.role = .active ∨ m.tan.role = .standby then (m.planned p).announce c.icrc (BitVec.ofNat 256 (beNat p.hash)) else m.planned p

theorem Mod.plannedAnnounced_change_plan (m : Mod) (c : Cfg) (p : Plan) :
    (m.plannedAnnounced c p).change = { m.change with phase := 2, plan := some p } ∧
      (m.plannedAnnounced c p).plan = { m.plan with state := 2, replans := Nat.min 255 (m.plan.replans + 1) } := by
  obtain ⟨hc, hp⟩ : (m.planned p).change = { m.change with phase := 2, plan := some p } ∧
      (m.planned p).plan = { m.plan with state := 2, replans := Nat.min 255 (m.plan.replans + 1) } := Mod.keepPlan_change_plan ..
  unfold Mod.plannedAnnounced
  split
  · exact ⟨(Mod.announce_change_plan ..).1.trans hc, (Mod.announce_change_plan ..).2.trans hp⟩
  · exact ⟨hc, hp⟩

theorem Mod.planDone_idle (h : m.change.phase ≠ 1 ∨ m.change.cfg = none) : m.planDone = m := by
  unfold Mod.planDone
  split
  next hp hc => simp [hp, hc] at h
  next => rfl

section
variable (h1 : m.change.phase = 1) (hc : m.change.cfg = some c)
include h1 hc

theorem Mod.planDone_unsound {f : ImgFail} (hi : m.changeCheck = some f) : m.planDone = m.refuseChange f.step 0 := by
  simp only [Mod.planDone, h1, hc, hi]

variable (hi : m.changeCheck = none)
include hi

theorem Mod.planDone_unfit (hq : m.changeFits = false) : m.planDone = m.refuseChange 7 0 := by
  simp [Mod.planDone, h1, hc, hi, hq]

variable (hq : m.changeFits = true)
include hq

theorem Mod.planDone_rejected {r : Reject} (hr : m.planChange c m.changeCosts = .inr r) :
    m.planDone = (m.planRejected r).refuseChange 8 r.code := by
  simp [Mod.planDone, h1, hc, hi, hq, hr]

theorem Mod.planDone_planned (hp : m.planChange c m.changeCosts = .inl p) : m.planDone = m.plannedAnnounced c p := by
  simp [Mod.planDone, Mod.plannedAnnounced, Mod.planned, h1, hc, hi, hq, hp]

end
end Plan

/-! Phases 2 and 3, and the boundary B (R149, R150, R153). -/

section Boundary
variable {m : Mod}

/-- The module with its tables prepared and the header of phase 3 written. -/
def Mod.headed (m : Mod) : Mod := ({ m.prepTabs with change := { m.change with bnum := 0 } } : Mod).changeHeader

theorem Mod.prepareDone_idle (h : m.change.phase ≠ 2) : m.prepareDone = m := if_pos h

section
variable (h2 : m.change.phase = 2)
include h2

theorem Mod.prepareDone_standby (hr : m.tan.role = .standby) : m.prepareDone = m.prepTabs :=
  (if_neg (not_not.mpr h2)).trans (if_pos hr)

theorem Mod.prepareDone_peer (hr : m.tan.role = .active) (hp : m.change.peer ≠ 1) :
    m.prepareDone = (m.prepTabs.refuseChange 8 0).sendHello :=
  (if_neg (not_not.mpr h2)).trans ((if_neg (by simp [hr])).trans (if_pos ⟨hr, hp⟩))

variable (hr : m.tan.role ≠ .standby) (hp : m.tan.role = .active → m.change.peer = 1)
include hr hp

theorem Mod.prepareDone_headed :
    m.prepareDone = if m.headed.hdrLost && decide (m.change.how < 2) then m.headed.refuseAs 9 0 0 else m.headed.fixB :=
  (if_neg (not_not.mpr h2)).trans ((if_neg hr).trans (if_neg fun ⟨ha, hn⟩ => hn (hp ha)))

theorem Mod.prepareDone_fixed (hh : m.headed.hdrLost = false ∨ 2 ≤ m.change.how) : m.prepareDone = m.headed.fixB := by
  refine (Mod.prepareDone_headed h2 hr hp).trans (if_neg ?_)
  rw [Bool.and_eq_true, decide_eq_true_eq, not_and, Nat.not_lt]
  exact fun hl => hh.resolve_left (by simp [hl])

theorem Mod.prepareDone_headerLost (hl : m.headed.hdrLost = true) (hh : m.change.how < 2) : m.prepareDone = m.headed.refuseAs 9 0 0 :=
  (Mod.prepareDone_headed h2 hr hp).trans (if_pos (by simp [hl, hh]))

end

/-- The boundary at which a change proposed now switches (R153). -/
abbrev Mod.nextBoundary (m : Mod) : Nat := boundaryFrom m.cfg.tasks (m.tb.now + unitsMs 10)

theorem Mod.fixB_change (m : Mod) : m.fixB.change =
    { m.change with phase := 4, b := some m.nextBoundary, switchAt := dtimeOf m.nextBoundary, bnum := m.change.bnum + 1, partnerAck := false } := by
  unfold Mod.fixB
  dsimp only
  split
  · exact Mod.control_change ..
  · rfl

/-- The module at device time `u`, at which its proposal has failed: the failure counts. -/
def Mod.proposalCounted (m : Mod) (u : Nat) : Mod :=
  let m1 := m.toNow u
  { m1 with change := { m1.change with proposals := m1.change.proposals + 1 } }

/-- The new proposal is one more, for the first common boundary from there (R150). -/
theorem Mod.proposalCounted_fixB (m : Mod) (u : Nat) :
    let k := (m.proposalCounted u).fixB
    k.change.proposals = m.change.proposals + 1 ∧ k.change.bnum = m.change.bnum + 1 ∧ k.change.partnerAck = false ∧
      k.change.b = some (boundaryFrom m.cfg.tasks ((m.toNow u).tb.now + unitsMs 10)) := by
  dsimp only
  rw [Mod.fixB_change]
  exact ⟨rfl, rfl, rfl, rfl⟩

theorem Mod.proposalFails_again {b : Nat} (h4 : m.change.phase = 4) (hb : m.change.b = some b) (hr : m.tan.role = .active)
    (ha : m.change.partnerAck = false) (hn : m.change.proposals < 3) : m.proposalFails = (m.proposalCounted (b - unitsMs 5)).fixB := by
  simp only [Mod.proposalFails, h4, hb]
  exact if_neg (by simp [hr, ha, hn])

theorem Mod.proposalFails_idle (h : m.change.phase ≠ 4 ∨ m.change.b = none ∨ m.tan.role ≠ .active ∨ m.change.partnerAck = true ∨
    3 ≤ m.change.proposals) : m.proposalFails = m := by
  unfold Mod.proposalFails
  split
  next h4 hb => exact if_pos (by simpa [h4, hb] using h)
  next => rfl

end Boundary

/-! The standby's side (R150). -/

section Proposed
variable {m : Mod} {b : Nat} {n : BitVec 8}

/-- A standby that has prepared the change goes with its header written into phase 4, unless that write failed. -/
def Mod.readied (m : Mod) : Mod :=
  if m.change.phase = 2 then
    let c := m.prepTabs.changeHeader
    if c.hdrLost then c else { c with change := { c.change with phase := 4 } }
  else m

/-- The module once B and its number have been taken as proposed and acknowledged. -/
def Mod.acknowledged (m : Mod) (b : Nat) (n : BitVec 8) : Mod :=
  ({ m with change := { m.change with b := some b, switchAt := dtimeOf b, bnum := n } } : Mod).control 3 (natLe 1 n.toNat)

theorem Mod.acknowledged_change (m : Mod) (b : Nat) (n : BitVec 8) :
    (m.acknowledged b n).change = { m.change with b := some b, switchAt := dtimeOf b, bnum := n } := Mod.control_change ..

theorem Mod.readied_other (h : m.change.phase ≠ 2) : m.readied = m := if_neg h

theorem Mod.readied_prepared (h2 : m.change.phase = 2) (hl : m.prepTabs.changeHeader.hdrLost = false) : m.readied =
    { m.prepTabs.changeHeader with change := { m.prepTabs.changeHeader.change with phase := 4 } } :=
  (if_pos h2).trans (if_neg (Bool.eq_false_iff.mp hl))

theorem Mod.proposed_notStandby (hr : m.tan.role ≠ .standby) : m.proposed b n = m := if_pos hr

section
variable (hr : m.tan.role = .standby)
include hr

theorem Mod.proposed_fourth (hn : 4 ≤ n.toNat) : m.proposed b n = m.readied.detach 9 :=
  (if_neg (not_not.mpr hr)).trans (if_pos hn)

theorem Mod.proposed_taken (hn : n.toNat < 4) (h4 : m.readied.change.phase = 4) : m.proposed b n = m.readied.acknowledged b n :=
  (if_neg (not_not.mpr hr)).trans ((if_neg (Nat.not_le.mpr hn)).trans (if_pos h4))

theorem Mod.proposed_otherPhase (h2 : m.change.phase ≠ 2) (h4 : m.change.phase ≠ 4) :
    m.proposed b n = if 4 ≤ n.toNat then m.detach 9 else m := by
  split
  next hn => rw [Mod.proposed_fourth hr hn, Mod.readied_other h2]
  next hn =>
    refine (if_neg (not_not.mpr hr)).trans ((if_neg hn).trans ((if_neg ?_).trans (Mod.readied_other h2)))
    rwa [← Mod.readied, Mod.readied_other h2]

end
end Proposed

/-! Re-planning (R182). -/

section Replan
variable {m : Mod} {p : Plan} {b : Nat}

theorem Mod.replan_plan (m : Mod) (p : Plan) : (m.replan p).plan = { (m.usePlan p).plan with next := none } :=
  congrArg (fun q : PlanSt => { q with next := none }) (Mod.judgeLink_frame (m.usePlan p)).1

theorem Mod.replan_waiting (m : Mod) (p : Plan) : (m.replan p).tan.sh.waiting = m.tan.sh.waiting :=
  (Mod.judgeLink_frame (m.usePlan p)).2

/-- The module at its boundary, with the waiting plan in use and `HELLO` sent. -/
def Mod.replanned (m : Mod) (p : Plan) (b : Nat) : Mod := ((m.toNow b).replan p).sendHello

theorem Mod.replanned_plan (m : Mod) (p : Plan) (b : Nat) : (m.replanned p b).plan = { (m.usePlan p).plan with next := none } :=
  (Mod.sendTl_frame ..).2.1.trans ((m.toNow b).replan_plan p)

theorem Mod.replanned_waiting (m : Mod) (p : Plan) (b : Nat) : (m.replanned p b).tan.sh.waiting = m.tan.sh.waiting := by
  have ht : (m.replanned p b).tan = { ((m.toNow b).replan p).tan with lseq := (m.replanned p b).tan.lseq } := (Mod.sendTl_frame ..).2.2
  rw [ht]
  exact Mod.replan_waiting ..

theorem Mod.replanSwitch_none (h : m.plan.next = none) : m.replanSwitch = m := by simp only [Mod.replanSwitch, h]

theorem Mod.replanSwitch_some (h : m.plan.next = some (p, b)) : m.replanSwitch =
    if (m.replanned p b).tan.sh.waiting then (m.replanned p b).serveResync else m.replanned p b := by
  simp only [Mod.replanSwitch, h]; rfl

end Replan

/-- An event of the main side that would change nothing where it runs changes nothing in reset either. -/
theorem makes_self_of_idle {c : Instr} {s : State} {f : Mod → Mod} (hc : exec c s = s.run (·.whenLive f)) (hk : f s.m = s.m) :
    Makes c s s.m := by
  cases hl : s.m.live with
  | false => exact makes_self_of_whenLive hl hc
  | true => exact makes_of_live hl hc hk

/-! The commands on a live module. -/

section Commands
variable {s : State} (hl : s.m.live = true)
include hl

theorem makes_onlinePlanDone {k : Mod} (h : s.m.planDone = k) : Makes .onlinePlanDone s k := makes_of_live hl rfl h

theorem makes_onlinePrepareDone {k : Mod} (h : s.m.prepareDone = k) : Makes .onlinePrepareDone s k := makes_of_live hl rfl h

theorem makes_bProposalTimeout {k : Mod} (h : s.m.proposalFails = k) : Makes .bProposalTimeout s k := makes_of_live hl rfl h

theorem makes_bPropose {b : BitVec 96} {n : BitVec 8} {k : Mod} (h : s.m.proposed (dtTicks b * 2 ^ 14) n = k) : Makes (.bPropose b n) s k :=
  makes_of_live hl rfl h

theorem makes_bAck {n : BitVec 8} (h4 : s.m.change.phase = 4) (hn : s.m.change.bnum = n) :
    Makes (.bAck n) s { s.m with change := { s.m.change with partnerAck := true } } :=
  makes_of_live hl rfl (if_pos ⟨h4, hn⟩)

theorem makes_replanSwitch {k : Mod} (h : s.m.replanSwitch = k) : Makes .replanSwitch s k := makes_of_live hl rfl h

end Commands

/-- Settles O22: each command does what the case of its phase, role and proposal says. -/
theorem onlineChangePhases : Obligations.OnlineChangePhases := by
  unfold Obligations.OnlineChangePhases
  refine ⟨fun s hl => ⟨fun h1 c p hc hi hq hp => ?planned, fun h2 hr => ?standby,
    fun h2 hr hp => ⟨fun hh => ?fixed, fun hh hw => ?headerLost⟩, fun h2 hr hp => ?peer, fun b h4 hb hr ha hn => ?again,
    fun b n hr h4 => ⟨fun hn => ?fourth, fun hn => ?taken⟩, fun b n hr h2 hh hn => ?readied, fun h4 => ?ack, fun p b hp => ?replan⟩,
    fun s => ⟨fun hl h1 c hc => ⟨fun f hi => ?unsound, fun hi hq => ?unfit, fun r hi hq hr => ?rejected⟩, fun h => ?planIdle,
      fun h => ?prepareIdle, fun h => ?proposalIdle, fun b n hr => ?notStandby,
      fun b n hl hr => ⟨fun h2 h4 => ?otherPhase, fun h2 hh hn => ?readiedFourth⟩, fun n h => ?ackIdle, fun h => ?noPlan⟩⟩
  case planned => exact makes_onlinePlanDone hl (Mod.planDone_planned h1 hc hi hq hp)
  case standby => exact makes_onlinePrepareDone hl (Mod.prepareDone_standby h2 hr)
  case fixed => exact makes_onlinePrepareDone hl (Mod.prepareDone_fixed h2 hr hp hh)
  case headerLost => exact makes_onlinePrepareDone hl (Mod.prepareDone_headerLost h2 hr hp hh hw)
  case peer => exact makes_onlinePrepareDone hl (Mod.prepareDone_peer h2 hr hp)
  case again => exact makes_bProposalTimeout hl (Mod.proposalFails_again h4 hb hr ha hn)
  case fourth =>
    have ready : s.m.readied = s.m := Mod.readied_other (by omega)
    exact makes_bPropose hl ((Mod.proposed_fourth hr hn).trans (by rw [ready]))
  case taken =>
    have ready : s.m.readied = s.m := Mod.readied_other (by omega)
    exact makes_bPropose hl ((Mod.proposed_taken hr hn (by rwa [ready])).trans (by rw [ready]; rfl))
  case readied =>
    have ready := Mod.readied_prepared h2 hh
    exact makes_bPropose hl ((Mod.proposed_taken hr hn (by rw [ready])).trans (by rw [ready]; rfl))
  case ack => exact makes_bAck hl h4 rfl
  case replan => exact makes_replanSwitch hl (Mod.replanSwitch_some hp)
  case unsound => exact makes_onlinePlanDone hl (Mod.planDone_unsound h1 hc hi)
  case unfit => exact makes_onlinePlanDone hl (Mod.planDone_unfit h1 hc hi hq)
  case rejected => exact makes_onlinePlanDone hl (Mod.planDone_rejected h1 hc hi hq hr)
  case planIdle => exact makes_self_of_idle rfl (Mod.planDone_idle h)
  case prepareIdle => exact makes_self_of_idle rfl (Mod.prepareDone_idle h)
  case proposalIdle => exact makes_self_of_idle rfl (Mod.proposalFails_idle h)
  case notStandby => exact makes_self_of_idle rfl (Mod.proposed_notStandby hr)
  case otherPhase => exact makes_bPropose hl (Mod.proposed_otherPhase hr h2 h4)
  case readiedFourth => exact makes_bPropose hl ((Mod.proposed_fourth hr hn).trans (by rw [Mod.readied_prepared h2 hh]))
  case ackIdle => exact makes_self_of_idle rfl (if_neg (not_and_or.mpr h))
  case noPlan => exact makes_self_of_idle rfl (Mod.replanSwitch_none h)

/-- Settles O23: the state that each command makes by its case above, with the fields that the case sets. -/
theorem onlineChangeCommandsComplete : Obligations.OnlineChangeCommandsComplete := by
  unfold Obligations.OnlineChangeCommandsComplete
  intro s hl
  refine ⟨fun c p h1 hc hi hq hp => ?planned, fun h2 hw hr hp => ?fixed, fun b h4 hb hr ha hn => ?again,
    fun b n hr h4 => ⟨fun hn => ?taken, fun hn => ?fourth⟩, fun n h4 hn => ?ack, fun p b hp hw => ?replan⟩
  case planned =>
    obtain ⟨hchange, hplan⟩ := s.m.plannedAnnounced_change_plan c p
    exact ⟨_, makes_onlinePlanDone hl (Mod.planDone_planned h1 hc hi hq hp),
      by simp [hchange], by simp [hchange], by simp [hplan], rfl⟩
  case fixed =>
    have hchange := s.m.headed.fixB_change
    exact ⟨_, makes_onlinePrepareDone hl (Mod.prepareDone_fixed h2 hr hp (.inr hw)),
      by simp [hchange], by simp [hchange], by simp [hchange], rfl⟩
  case again =>
    obtain ⟨hcount, hnumber, hack, hboundary⟩ := s.m.proposalCounted_fixB (b - unitsMs 5)
    exact ⟨_, makes_bProposalTimeout hl (Mod.proposalFails_again h4 hb hr ha hn), hcount, hnumber, hack, hboundary, rfl⟩
  case taken =>
    have ready : s.m.readied = s.m := Mod.readied_other (by omega)
    have hchange := s.m.readied.acknowledged_change (dtTicks b * 2 ^ 14) n
    exact ⟨_, makes_bPropose hl (Mod.proposed_taken hr hn (by rwa [ready])),
      by rw [hchange], by rw [hchange], by rw [hchange, ready]; exact h4, rfl⟩
  case fourth =>
    obtain ⟨-, -, hrole, hreason⟩ := s.m.readied.detach_frame 9
    exact ⟨_, makes_bPropose hl (Mod.proposed_fourth hr hn), hrole, hreason, rfl⟩
  case ack => exact ⟨_, makes_bAck hl h4 hn, rfl, rfl, rfl, rfl⟩
  case replan =>
    have hnot : ¬ (s.m.replanned p b).tan.sh.waiting = true := by simp [Mod.replanned_waiting, hw]
    have hplan := s.m.replanned_plan p b
    exact ⟨_, makes_replanSwitch hl ((Mod.replanSwitch_some hp).trans (if_neg hnot)),
      by rw [hplan]; rfl, by rw [hplan]; rfl, by rw [hplan], by rw [hplan]; rfl, rfl⟩

end Sys2Proof.Machine
end

section
/-! Restarts and fault resets. -/

namespace Sys2Proof.Machine

/-! `RESTART`, check by check (R147, R152, R576, R577). -/

section Restart
variable {m : Mod} {x : Session} {o : ResetOrder} {force : Bool}

theorem Mod.restartCmd_role (hm : m.maint = true) (hx : x.role < 4) : m.restartCmd x o force = { m := m, status := stRole } :=
  if_pos (by simp [hm, hx])

/-- `MAINTENANCE` takes a restart from SERVICE alone. -/
theorem Mod.restart_admitted (h : m.maint = true → 4 ≤ x.role) : ¬ (m.maint && decide (x.role < 4)) = true := by simpa using h

section
variable (h : m.maint = true → 4 ≤ x.role)
include h

theorem Mod.restartCmd_busy (hc : m.changing = true) : m.restartCmd x o force = { m := m, status := stBusy } :=
  (if_neg (Mod.restart_admitted h)).trans (if_pos hc)

variable (hc : m.changing = false)
include hc

theorem Mod.restartCmd_noPartner (ha : m.alone = true) : m.restartCmd x o false = { m := m, status := stNoPartner } :=
  (if_neg (Mod.restart_admitted h)).trans ((if_neg (by simp [hc])).trans (if_pos (by simp [ha])))

theorem Mod.restartCmd_ok (ha : m.alone = true → force = true) :
    m.restartCmd x o force = { m := m.orderStart { o with due := m.mono + phMs 50 } } :=
  (if_neg (Mod.restart_admitted h)).trans ((if_neg (by simp [hc])).trans (if_neg (by simpa using ha)))

end

end Restart

/-- Settles O10: the three commands are one `Mod.restartCmd` with its own order, and each clause is the case that its conditions name. -/
theorem restartCommandsOrderTheirStart : Obligations.RestartCommandsOrderTheirStart := by
  unfold Obligations.RestartCommandsOrderTheirStart
  constructor
  · intro s rq x readmit force h hx hc ha m due
    refine ⟨?cold, ?warm, ?maintenance⟩
    case cold | warm | maintenance => exact makes_commanded_done rfl h (Mod.restartCmd_ok (m := m) hx hc ha) (by decide)
  · intro s rq x readmit force h c hmem
    obtain ⟨o, ho⟩ : ∃ o, exec c s = s.run fun m => m.command rq 0 3 false true fun k m => m.restartCmd k o force := by
      simp only [List.mem_cons, List.not_mem_nil, or_false] at hmem
      rcases hmem with rfl | rfl | rfl <;> exact ⟨_, rfl⟩
    refine ⟨fun hm hx => ?role, fun hx => ⟨fun hc => ?busy, fun hc ha hf => ?noPartner⟩⟩
    case role => exact refuses_of ho h (Mod.restartCmd_role hm hx) (by decide)
    case busy => exact refuses_of ho h (Mod.restartCmd_busy hx hc) (by decide)
    case noPartner =>
      subst hf
      exact refuses_of ho h (Mod.restartCmd_noPartner hx hc ha) (by decide)

/-! `FAULT_RESET`, scope by scope (R141, R319, R320, R443, R444, R460, R578). -/

section FaultReset
variable {m : Mod} {n : Nat}

theorem Mod.resetTask_range (h : 16 ≤ n) : m.resetTask n = { m := m, status := stRange } := if_pos h

theorem Mod.resetTask_condition (h : n < 16) (hh : (m.task n).halted = false) : m.resetTask n = { m := m, status := stCondition } :=
  (if_neg (Nat.not_le.mpr h)).trans (if_pos (by simp [hh]))

theorem Mod.resetTask_ok (h : n < 16) (hh : (m.task n).halted = true) :
    m.resetTask n = { m := m.updTask n fun k => { k with halted := false, consec := 0 } } :=
  (if_neg (Nat.not_le.mpr h)).trans (if_neg (by simp [hh]))

/-- What a reset of a controller clears is present (R443, R444). -/
def Mod.CanResettable (m : Mod) (n : Nat) : Prop :=
  (m.can n).st = .busOff ∨ (m.can n).autorecSusp = true ∨ (m.canCfg n).cen = true ∧ (m.canCfg n).nbr = 0

theorem Mod.resetCan_range (h : 4 ≤ n) : m.resetCan n = { m := m, status := stRange } := if_pos h

theorem Mod.resetCan_condition (h : n < 4) (hc : ¬ m.CanResettable n) : m.resetCan n = { m := m, status := stCondition } := by
  refine (if_neg (Nat.not_le.mpr h)).trans (if_pos ?_)
  simpa [Mod.CanResettable, imp_iff_not_or] using hc

theorem Mod.resetCan_ok (h : n < 4) (hc : m.CanResettable n) :
    m.resetCan n = { m := m.updCan n fun k => k.faultReset (m.canCfg n) } := by
  refine (if_neg (Nat.not_le.mpr h)).trans (if_neg ?_)
  rcases hc with hc | hc | ⟨hc, hn⟩
  · simp [hc]
  · simp [hc]
  · simp [hc, hn]

theorem Mod.resetDio_range (h : 32 ≤ n) : m.resetDio n = { m := m, status := stRange } := if_pos h

theorem Mod.resetDio_condition (h : n < 32) (hl : (m.dioCh n).latched = false) : m.resetDio n = { m := m, status := stCondition } :=
  (if_neg (Nat.not_le.mpr h)).trans (if_pos (by simp [hl]))

theorem Mod.resetDio_ok (h : n < 32) (hl : (m.dioCh n).latched = true) :
    m.resetDio n = { m := m.updDio n fun k => { k with latched := false, thermAt := [] } } :=
  (if_neg (Nat.not_le.mpr h)).trans (if_neg (by simp [hl]))

theorem Mod.resetResync_range (h : n ≠ 0) : m.resetResync n = { m := m, status := stRange } := if_pos h

theorem Mod.resetResync_condition (h : n = 0) (hr : m.tan.role ≠ .detached ∨ m.tan.detach ≠ 8) :
    m.resetResync n = { m := m, status := stCondition } :=
  (if_neg (not_not.mpr h)).trans (if_pos hr)

theorem Mod.resetResync_ok (h : n = 0) (hr : m.tan.role = .detached) (hd : m.tan.detach = 8) : m.resetResync n = { m := m.rejoin } :=
  (if_neg (not_not.mpr h)).trans (if_neg (by simp [hr, hd]))

theorem Mod.resetFailed_range (h : n ≠ 0) : m.resetFailed n = { m := m, status := stRange } := if_pos h

theorem Mod.resetFailed_condition (h : n = 0) (hr : m.tan.role ≠ .failed) : m.resetFailed n = { m := m, status := stCondition } :=
  (if_neg (not_not.mpr h)).trans (if_pos hr)

theorem Mod.resetFailed_ok (h : n = 0) (hr : m.tan.role = .failed) :
    m.resetFailed n = { m := m.orderStart { cause := 3, cold := some true } } :=
  (if_neg (not_not.mpr h)).trans (if_neg (not_not.mpr hr))

theorem Mod.resetAll_range (h : n ≠ 0xFFFF) : m.resetAll n = { m := m, status := stRange } := if_pos h

/-- Several scopes together are complete with their answer, `OK` or `CONDITION`. -/
theorem applyScopes_complete (m : Mod) (fs : List (Mod → CmdAns)) :
    applyScopes m fs = { m := (applyScopes m fs).m, status := (applyScopes m fs).status } ∧
    (applyScopes m fs).status ≠ stAccepted := by
  refine ⟨rfl, ?_⟩
  show (if _ then stOk else stCondition) ≠ stAccepted
  split <;> decide

theorem Mod.resetAll_complete (m : Mod) : m.resetAll 0xFFFF = { m := (m.resetAll 0xFFFF).m, status := (m.resetAll 0xFFFF).status } ∧
    (m.resetAll 0xFFFF).status ≠ stAccepted := by
  rw [Mod.resetAll, if_neg (not_not.mpr rfl)]
  exact applyScopes_complete ..

end FaultReset

/-- Settles O12: each clause is the case of its scope's reset that its conditions name. -/
theorem faultResetsClearTheirCondition : Obligations.FaultResetsClearTheirCondition := by
  unfold Obligations.FaultResetsClearTheirCondition
  constructor
  · intro s rq x unit h m
    refine ⟨fun hn hh => ?task, fun hn hc => ?can, fun hn hl => ?dio, fun hu hr hd => ?resync, fun hu hr => ?failed, fun hu => ?all⟩
    case task => exact makes_commanded_done rfl h (Mod.resetTask_ok (m := m) hn hh) (by decide)
    case can => exact makes_commanded_done rfl h (Mod.resetCan_ok (m := m) hn hc) (by decide)
    case dio => exact makes_commanded_done rfl h (Mod.resetDio_ok (m := m) hn hl) (by decide)
    case resync => exact makes_commanded_done rfl h (Mod.resetResync_ok (m := m) (congrArg BitVec.toNat hu) hr hd) (by decide)
    case failed => exact makes_commanded_done rfl h (Mod.resetFailed_ok (m := m) (congrArg BitVec.toNat hu) hr) (by decide)
    case all =>
      obtain ⟨heq, hst⟩ := m.resetAll_complete
      exact makes_commanded_done rfl h ((congrArg m.resetAll hu).trans heq) hst
  · intro s rq x unit h
    refine ⟨fun hn => ?taskRange, fun hn hh => ?task, fun hn => ?canRange, fun hn hb ha hd => ?can, fun hn => ?dioRange, fun hn hl => ?dio,
      fun hn => ⟨?resyncRange, ?failedRange⟩, fun hn hr => ?resync, fun hn hr => ?failed, fun hn => ?allRange⟩
    case taskRange => exact refuses_of rfl h (Mod.resetTask_range hn) (by decide)
    case task => exact refuses_of rfl h (Mod.resetTask_condition hn hh) (by decide)
    case canRange => exact refuses_of rfl h (Mod.resetCan_range hn) (by decide)
    case can =>
      have absent : ¬ (s.m.touchSession rq.sess).CanResettable unit.toNat := not_or.mpr ⟨hb, not_or.mpr ⟨Bool.eq_false_iff.mp ha, hd⟩⟩
      exact refuses_of rfl h (Mod.resetCan_condition hn absent) (by decide)
    case dioRange => exact refuses_of rfl h (Mod.resetDio_range hn) (by decide)
    case dio => exact refuses_of rfl h (Mod.resetDio_condition hn hl) (by decide)
    case resyncRange => exact refuses_of rfl h (Mod.resetResync_range hn) (by decide)
    case failedRange => exact refuses_of rfl h (Mod.resetFailed_range hn) (by decide)
    case resync => exact refuses_of rfl h (Mod.resetResync_condition hn hr) (by decide)
    case failed => exact refuses_of rfl h (Mod.resetFailed_condition hn hr) (by decide)
    case allRange => exact refuses_of rfl h (Mod.resetAll_range hn) (by decide)

end Sys2Proof.Machine
end

section
/-! The event recorder, the performance counters and the display. -/

namespace Sys2Proof.Machine

/-! A WRITE and a read that clears, heard outside `MAINTENANCE` (R567, R568). -/

section Objects
variable {c : Instr} {s : State} {rq : Req} {x : Session} (h : heard s.m rq x)
include h

theorem makes_writeOne {role : Nat} {im : Bool} {f : Session → Mod → Mod × Nat} {k : Mod} {st : Nat}
    (hc : exec c s = s.run (·.writeOne rq role im f)) (hr : role ≤ x.role) (hm : s.m.maint = false)
    (hf : f x (s.m.touchSession rq.sess) = (k, st)) : Makes c s (k.respond rq stOk (writeResult st)) := by
  obtain ⟨hl, hs, ht⟩ := h
  exact makes_of_run hc (by rw [Mod.writeOne_ok f hl hs ht hr (by simp [hm]), hf])

theorem makes_readClear {f : Mod → Mod × Nat × Bytes} {k : Mod} {st : Nat} {v : Bytes} (hc : exec c s = s.run (·.readClear rq f))
    (hm : s.m.maint = false) (hf : f (s.m.touchSession rq.sess) = (k, st, v)) :
    Makes c s ((k.pass 1).respond rq stOk (readResult st v)) := by
  obtain ⟨hl, hs, ht⟩ := h
  exact makes_of_run hc (by rw [Mod.readClear_ok f hl hs ht hm, hf])

end Objects

/-! The counters and the figures of a task (R162, R538, R539, R543). -/

section Counters
variable {m : Mod} {n : Nat}

theorem Mod.writePmcSel_noEvent {v : BitVec 16} (h : n = 0 ∧ v.getLsbD 12 = true) : m.writePmcSel n v = (m, stAccess) := if_pos h

theorem Mod.writePmcSel_ok {v : BitVec 16} (h : ¬ (n = 0 ∧ v.getLsbD 12 = true)) : m.writePmcSel n v =
    ({ m with pmc := { m.pmc with sel := put m.pmc.sel n (v &&& 0x1FFF), val := put m.pmc.val n 0 } }, stOk) := if_neg h

theorem Mod.readExecMax_task (h : (m.taskCfg n).kind ≠ 0) :
    m.readExecMax n = (m.updTask n fun k => { k with execMax := 0 }, stOk, natLe 4 (m.task n).execMax) := if_neg h

theorem Mod.readExecMax_noTask (h : (m.taskCfg n).kind = 0) : m.readExecMax n = (m, stOk, natLe 4 0) := if_pos h

theorem Mod.readMarginMin_task (h : (m.taskCfg n).kind ≠ 0) : m.readMarginMin n =
    (m.updTask n fun k => { k with margin := none }, stOk, natLe 4 (Nat.min 0xFFFFFFFF ((m.task n).margin.getD 0))) := if_neg h

theorem Mod.readMarginMin_noTask (h : (m.taskCfg n).kind = 0) : m.readMarginMin n = (m, stOk, natLe 4 0) := if_pos h

end Counters

/-! `ER_CLEAR`, check by check (R534, R535). -/

@[simp] theorem Mod.touchSession_maint (m : Mod) (i : Nat) : (m.touchSession i).maint = m.maint := rfl

section ErClear
variable {s : State} {rq : Req} {x : Session} (h : admitted s.m rq x 12 4 true true)
include h

theorem makes_erClear_outside (hm : s.m.maint = false) :
    Makes (.erClear rq) s (commanded (s.m.touchSession rq.sess) rq 12 { status := stCondition } stCondition []) :=
  makes_commanded_done rfl h (if_pos (by simpa using hm)) (by decide)

variable (hm : s.m.maint = true)
include hm

theorem refuses_erClear_supply (hw : s.m.sup.mayWrite = false) : Refuses (.erClear rq) s rq 12 stSupplyLow :=
  refuses_of rfl h ((if_neg (by simpa using hm)).trans (if_pos (by simpa using hw))) (by decide)

theorem makes_erClear (hw : s.m.sup.mayWrite = true) :
    let n := s.m.touchSession rq.sess
    Makes (.erClear rq) s
      (commanded (({ n with er := { n.er with held := [], latest := [] } } : Mod).log 10 6 0xF0 0 (serialBytes x.serial)) rq 12 {} stOk []) :=
  makes_commanded_done rfl h ((if_neg (by simpa using hm)).trans (if_neg (by simpa using hw))) (by decide)

end ErClear

/-- A timer that runs in every state, also in reset. -/
theorem actsAt_of_run {c : Instr} {s : State} {f : Mod → Mod} {due : Mod → Option Nat}
    (hc : exec c s = s.run fun m => m.onDue (due m) f) : ActsAt c s (due s.m) f :=
  ⟨fun d hd => makes_of_run hc (by rw [hd, Mod.onDue_some]), fun hn => makes_of_run hc (by rw [hn, Mod.onDue_none])⟩

/-- Settles O41: records and display frames are events of a live module, the operating time is a timer of every state, and a request does
what the case of its object says. -/
theorem recorderCountersAndDisplay : Obligations.RecorderCountersAndDisplay := by
  unfold Obligations.RecorderCountersAndDisplay
  constructor
  · intro s m
    refine ⟨fun hl => ⟨?record, fun hi mid => ⟨?frame, ?waveform⟩, fun t => ?temperature, ?scan, ?icons⟩, ?optime,
      fun rq x h => ⟨fun hm hw => ?clear, fun hm => ?clearOutside⟩, fun rq x h hm =>
        ⟨fun hr => ⟨fun i v => ⟨fun hv => ?select, fun hv => ?selectNone⟩, fun mask => ?clearCounters⟩,
          fun t => ⟨fun hk => ⟨?execMax, ?margin⟩, fun hk => ⟨?execMaxNone, ?marginNone⟩⟩⟩⟩
    case record => exact makes_of_live hl rfl (by simp only [Bool.and_eq_true, m])
    case frame | temperature | scan => exact makes_of_live hl rfl rfl
    case waveform => exact actsAt_of_live hl rfl rfl fun _ => rfl
    case icons =>
      have hl' : s.m.live = true := hl
      exact makes_of_next rfl (by simp only [hl', Bool.true_and, m])
    case optime => exact actsAt_of_run (due := fun m => if m.sup.mayWrite then m.er.storeDue else none) rfl
    case clear => exact makes_erClear h hm hw
    case clearOutside => exact makes_erClear_outside h hm
    case select => exact makes_writeOne h rfl hr hm (Mod.writePmcSel_ok hv)
    case selectNone => exact makes_writeOne h rfl hr hm (Mod.writePmcSel_noEvent hv)
    case clearCounters => exact makes_writeOne h rfl hr hm rfl
    case execMax => exact makes_readClear h rfl hm (Mod.readExecMax_task hk)
    case margin => exact makes_readClear h rfl hm (Mod.readMarginMin_task hk)
    case execMaxNone => exact makes_readClear h rfl hm (Mod.readExecMax_noTask hk)
    case marginNone => exact makes_readClear h rfl hm (Mod.readMarginMin_noTask hk)
  · intro s rq x h hm hw
    exact refuses_erClear_supply h hm hw

end Sys2Proof.Machine
end

section
/-! The words of the control engine's instructions: their fields, and the bits that an operation code leaves unused (R194 to R197). -/

namespace Sys2Proof.Machine

/-- The runs of bits that an operation code leaves unused, each by its lowest bit and its length: the complement of `ceUsed`. -/
def ceUnused : Nat → List (Nat × Nat)
  | 0x02 | 0x03 | 0x0B | 0x0C => [(22, 4), (8, 11)]
  | 0x04 => [(22, 4), (16, 3)]
  | 0x05 | 0x06 | 0x07 => [(8, 16)]
  | 0x08 | 0x09 | 0x12 | 0x13 | 0x1A => [(22, 2), (0, 19)]
  | 0x0A | 0x10 | 0x11 => [(0, 22)]
  | 0x0D | 0x0E | 0x0F | 0x19 => [(22, 2), (0, 16)]
  | 0x14 | 0x15 => [(22, 4), (0, 16)]
  | 0x16 | 0x17 => [(0, 24)]
  | 0x18 => [(6, 18)]
  | 0x1B => [(16, 10), (7, 5)]
  | 0x1C | 0x1D => [(22, 4), (10, 9), (4, 4)]
  | 0x1E => [(22, 4), (4, 15)]
  | 0x1F => [(8, 18)]
  | _ => [(0, 26)]

/-- The number whose bits are those of the runs in `l`. -/
def runsMask : List (Nat × Nat) → Nat
  | [] => 0
  | r :: t => (2 ^ r.2 - 1) <<< r.1 ||| runsMask t

/-- A run of `n` reads 0 exactly where the mask of the run leaves nothing of `n`. -/
theorem and_run_eq_zero (n i len : Nat) : n &&& (2 ^ len - 1) <<< i = 0 ↔ bitsOf n i len = 0 := by
  have h : n &&& (2 ^ len - 1) <<< i = (n >>> i &&& (2 ^ len - 1)) <<< i := by
    refine Nat.eq_of_testBit_eq fun j => ?_
    by_cases hj : i ≤ j <;> simp [hj, Nat.testBit_shiftLeft, Bool.and_comm]
  rw [h, Nat.shiftLeft_eq_zero_iff, Nat.and_two_pow_sub_one_eq_mod, Nat.shiftRight_eq_div_pow, bitsOf]

theorem and_runsMask_eq_zero (n : Nat) (l : List (Nat × Nat)) : n &&& runsMask l = 0 ↔ ∀ r ∈ l, bitsOf n r.1 r.2 = 0 := by
  induction l with
  | nil => simp [runsMask]
  | cons r t ih => simp [runsMask, Nat.and_or_distrib_left, and_run_eq_zero, ih]

theorem runsMask_ceUnused : ∀ op < 64, 2 ^ 32 - 1 - ceUsed op = runsMask (ceUnused op) := by decide

/-- Unused bits are 0 exactly where every unused run reads 0. -/
theorem ceUnused_clear_iff (w : BitVec 32) : w.toNat &&& (2 ^ 32 - 1 - ceUsed (w.toNat / 2 ^ 26)) = 0 ↔
    ∀ r ∈ ceUnused (w.toNat / 2 ^ 26), bitsOf w.toNat r.1 r.2 = 0 := by
  rw [runsMask_ceUnused _ (by omega), and_runsMask_eq_zero]

/-! The fields of an encoded word. -/

/-- The fields fit their places in a word (R194). -/
abbrev FieldsFit (op a b x y o : Nat) : Prop := op < 64 ∧ a < 4 ∧ b < 4 ∧ x < 8 ∧ y < 8 ∧ o < 2 ^ 16

section Fields
variable {op a b x y o : Nat}

section
variable (h : FieldsFit op a b x y o)
include h

theorem ceWord_toNat :
    (ceWord op a b x y o).toNat = op * 2 ^ 26 + a * 2 ^ 24 + b * 2 ^ 22 + x * 2 ^ 19 + y * 2 ^ 16 + o := by
  rw [ceWord, BitVec.toNat_ofNat]
  omega

theorem ceWord_op : bitsOf (ceWord op a b x y o).toNat 26 6 = op := by rw [ceWord_toNat h, bitsOf]; omega
theorem ceWord_a : bitsOf (ceWord op a b x y o).toNat 24 2 = a := by rw [ceWord_toNat h, bitsOf]; omega
theorem ceWord_b : bitsOf (ceWord op a b x y o).toNat 22 2 = b := by rw [ceWord_toNat h, bitsOf]; omega
theorem ceWord_x : bitsOf (ceWord op a b x y o).toNat 19 3 = x := by rw [ceWord_toNat h, bitsOf]; omega
theorem ceWord_y : bitsOf (ceWord op a b x y o).toNat 16 3 = y := by rw [ceWord_toNat h, bitsOf]; omega

/-- Below bit 16 stands the operand. -/
theorem ceWord_mod {k : Nat} (hk : k ≤ 16) : (ceWord op a b x y o).toNat % 2 ^ k = o % 2 ^ k := by
  have h16 : (ceWord op a b x y o).toNat % 2 ^ 16 = o := by rw [ceWord_toNat h]; omega
  rw [← Nat.mod_mod_of_dvd _ (Nat.pow_dvd_pow 2 hk), h16]

theorem ceWord_bits {i len : Nat} (hk : i + len ≤ 16) : bitsOf (ceWord op a b x y o).toNat i len = bitsOf o i len := by
  simp only [bitsOf, ← Nat.mod_mul_right_div_self, ← Nat.pow_add, ceWord_mod h hk]

end

theorem ceWord_setWidth {k : Nat} {v : BitVec k} (h : FieldsFit op a b x y v.toNat) (hk : k ≤ 16) :
    (ceWord op a b x y v.toNat).setWidth k = v := by
  apply BitVec.eq_of_toNat_eq
  rw [BitVec.toNat_setWidth, ceWord_mod h hk, Nat.mod_eq_of_lt v.isLt]

end Fields

/-! The codes of the branch conditions (R196). -/

theorem ceCondOf_ceCondCode (c : CeCond) : ceCondOf (ceCondCode c) = some c := by cases c <;> rfl

theorem ceCondCode_le (c : CeCond) : ceCondCode c ≤ 8 := by cases c <;> decide

theorem ceCondCode_of_ceCondOf {n : Nat} {c : CeCond} (h : ceCondOf n = some c) : ceCondCode c = n := by
  unfold ceCondOf at h
  split at h <;> cases h <;> rfl

/-- A word with the code of `BR` decodes by its condition code (R196). -/
theorem ceDecode_branch {k : Nat} (hk : k < 16) (t : BitVec 7) :
    ceDecode (ceWord 0x1B 0 0 0 0 (k * 4096 + t.toNat)) = (ceCondOf k).map fun c => .br c t := by
  have h : FieldsFit 0x1B 0 0 0 0 (k * 4096 + t.toNat) := by omega
  have hb : bitsOf (k * 4096 + t.toNat) 12 4 = k := by rw [bitsOf]; omega
  have ht : (ceWord 0x1B 0 0 0 0 (k * 4096 + t.toNat)).setWidth 7 = t := by
    apply BitVec.eq_of_toNat_eq
    rw [BitVec.toNat_setWidth, ceWord_mod h (by omega)]
    omega
  simp [ceDecode, ceWord_op h, ceWord_bits h, hb, ht]

/-! Words and instructions correspond one to one. -/

/-- The operation code selects the instruction, and each operand is read from the field that it was placed in. -/
theorem ceDecode_ceEncode (i : CeInstr) : ceDecode (ceEncode i) = some i := by
  cases i
  case br c t =>
    rw [ceEncode, ceDecode_branch (Nat.lt_of_le_of_lt (ceCondCode_le c) (by decide)), ceCondOf_ceCondCode, Option.map_some]
  case tbl x t e | tblf x t e =>
    have ht : bitsOf (t + e * 256) 0 4 = t := by rw [bitsOf]; omega
    have he : bitsOf (t + e * 256) 8 2 = e := by rw [bitsOf]; omega
    simp (disch := omega) [ceEncode, ceDecode, ceWord_op, ceWord_x, ceWord_bits, ht, he]
  case trc x ch =>
    have hch : bitsOf ch 0 4 = ch := by rw [bitsOf]; omega
    simp (disch := omega) [ceEncode, ceDecode, ceWord_op, ceWord_x, ceWord_bits, hch]
  case flg s c =>
    have h : FieldsFit 0x1F 0 0 0 0 (s.toNat + c.toNat * 16) := by omega
    have hs : (ceWord 0x1F 0 0 0 0 (s.toNat + c.toNat * 16)).setWidth 4 = s := by
      apply BitVec.eq_of_toNat_eq
      rw [BitVec.toNat_setWidth, ceWord_mod h (by omega)]
      omega
    have hc : BitVec.ofNat 4 ((ceWord 0x1F 0 0 0 0 (s.toNat + c.toNat * 16)).toNat / 16) = c := by
      apply BitVec.eq_of_toNat_eq
      rw [BitVec.toNat_ofNat, ceWord_toNat h]
      omega
    simp [ceEncode, ceDecode, ceWord_op h, hs, hc]
  all_goals
    simp (disch := omega) [ceEncode, ceDecode, ceWord_op, ceWord_a, ceWord_b, ceWord_x, ceWord_y, ceWord_setWidth]

/-- The unused bits of an encoded word, read off its fields. -/
theorem ceWord_unused {op a b x y o : Nat} (h : FieldsFit op a b x y o)
    (hu : ∀ r ∈ ceUnused op, bitsOf (op * 2 ^ 26 + a * 2 ^ 24 + b * 2 ^ 22 + x * 2 ^ 19 + y * 2 ^ 16 + o) r.1 r.2 = 0) :
    ∀ r ∈ ceUnused ((ceWord op a b x y o).toNat / 2 ^ 26), bitsOf (ceWord op a b x y o).toNat r.1 r.2 = 0 := by
  rw [ceWord_toNat h] at *
  rwa [show (op * 2 ^ 26 + a * 2 ^ 24 + b * 2 ^ 22 + x * 2 ^ 19 + y * 2 ^ 16 + o) / 2 ^ 26 = op by omega]

theorem ceEncode_unused (i : CeInstr) :
    ∀ r ∈ ceUnused ((ceEncode i).toNat / 2 ^ 26), bitsOf (ceEncode i).toNat r.1 r.2 = 0 := by
  cases i
  case nop | fin | nega | absa => exact ceWord_unused (by omega) (by simp [ceUnused, bitsOf])
  case br c t =>
    have hc := ceCondCode_le c
    refine ceWord_unused (by omega) ?_
    simp [ceUnused, bitsOf]
    omega
  all_goals
    refine ceWord_unused (by omega) ?_
    simp [ceUnused, bitsOf]
    omega

/-- A word is the sum of its fields; where the unused ones are 0, the fields that its instruction keeps are all of it. -/
theorem ceEncode_of_ceDecode {w : BitVec 32} {i : CeInstr} (h : ceDecode w = some i)
    (hu : ∀ r ∈ ceUnused (w.toNat / 2 ^ 26), bitsOf w.toNat r.1 r.2 = 0) : ceEncode i = w := by
  have hop : w.toNat / 2 ^ 26 = bitsOf w.toNat 26 6 := by rw [bitsOf]; omega
  have hw := w.isLt
  unfold ceDecode at h
  dsimp only at h
  apply BitVec.eq_of_toNat_eq
  split at h
  case h_33 => cases h
  case h_28 ho =>
    obtain ⟨c, hc, rfl⟩ := Option.map_eq_some_iff.1 h
    rw [hop, ho] at hu
    simp [ceUnused, bitsOf, ceEncode, ceWord, ceCondCode_of_ceCondOf hc] at hu ho ⊢
    omega
  all_goals
    rename_i ho
    cases h
    rw [hop, ho] at hu
    simp [ceUnused, bitsOf, ceEncode, ceWord] at hu ho ⊢
    omega

theorem ceDecode_of_op_ge {w : BitVec 32} (h : 0x20 ≤ w.toNat / 2 ^ 26) : ceDecode w = none := by
  have hop : 0x20 ≤ bitsOf w.toNat 26 6 := by rw [bitsOf]; omega
  unfold ceDecode
  dsimp only
  split
  case h_33 => rfl
  all_goals omega

/-- Settles O59: an instruction decodes from its own word, whose unused runs read 0; a word whose unused runs read 0 is spelled by the
fields that its instruction keeps. -/
theorem engineInstructionsDecodeFromTheirWords : Obligations.EngineInstructionsDecodeFromTheirWords := by
  unfold Obligations.EngineInstructionsDecodeFromTheirWords
  exact ⟨ceDecode_ceEncode, fun i => (ceUnused_clear_iff _).2 (ceEncode_unused i),
    fun w _ h hu => ceEncode_of_ceDecode h ((ceUnused_clear_iff w).1 hu), fun _ => ceDecode_of_op_ge⟩

end Sys2Proof.Machine
end

section
/-! How an instruction of the control engine is read off its definition, and the frame that all of them share (R195, R538). -/

namespace Sys2Proof.Machine

theorem Ce.onLane_eq (c : Ce) (l : Fin 4) (n : Nat) (f : Lane → Lane) : c.onLane l n f = laneStep c l n f := rfl

section Issue
variable {c : Instr} {s : State} {l : Fin 4}

/-- An instruction that `f` defines on the engine, written as the engine `e` that `f` comes to. -/
theorem makes_issued {f : Ce → Ce} {e : Ce} (hc : exec c s = s.run (·.ceStep l f)) (he : f s.m.ce = e) : Makes c s (issued s.m l e) :=
  makes_of_run hc (by rw [← he]; rfl)

/-- Each of the 32 instructions is one change of the engine, issued in its lane. -/
theorem exec_of_ceLaneOf (h : ceLaneOf c = some l) : ∃ f : Ce → Ce, exec c s = s.run (·.ceStep l f) := by
  unfold ceLaneOf at h
  split at h
  case h_33 => cases h
  all_goals
    cases h
    exact ⟨_, rfl⟩

end Issue

/-- Settles O3: whatever the instruction makes of the engine, issuing it adds the count and nothing else. -/
theorem ceInstructionTouchesEngineOnly : Obligations.CeInstructionTouchesEngineOnly := by
  unfold Obligations.CeInstructionTouchesEngineOnly
  intro c s l h
  obtain ⟨f, hf⟩ := exec_of_ceLaneOf (s := s) h
  exact ⟨f s.m.ce, makes_issued hf rfl⟩

end Sys2Proof.Machine
end

section
/-! Accumulators and operand registers: the exact value of an instruction, clamped once (R191, R192, R195). -/

namespace Sys2Proof.Machine

/-! Clamped values (R191, R192). -/

theorem clamp_eq {lo hi : Int} (h : lo ≤ hi) (v : Int) : clamp lo hi v = max lo (min hi v) := by
  unfold clamp
  split_ifs <;> omega

theorem sat40_toInt (v : Int) : (sat40 v).toInt = intoRange 39 v := by
  rw [sat40, clamp_eq (by decide), BitVec.toInt_ofInt_eq_self (by decide) (by omega) (by omega), intoRange]

theorem sat16_toInt (v : Int) : (sat16 v).toInt = intoRange 15 v := by
  rw [sat16, clamp_eq (by decide), BitVec.toInt_ofInt_eq_self (by decide) (by omega) (by omega), intoRange]
  rfl

theorem clamps40_eq (v : Int) : clamps40 v = decide (intoRange 39 v ≠ v) := by
  rw [clamps40, ← Bool.decide_or, intoRange]
  exact decide_eq_decide.2 (by omega)

theorem clamps16_eq (v : Int) : clamps16 v = decide (intoRange 15 v ≠ v) := by
  rw [clamps16, ← Bool.decide_or, intoRange]
  exact decide_eq_decide.2 (by omega)

theorem Lane.setAcc_eq (r : Lane) (a : Fin 4) (v : Int) : r.setAcc a v = accResult r a v := by
  simp only [accResult, Bool.or_assoc]
  rfl

/-! Instructions that write an accumulator or an operand register, by the exact value `v` of the lane's registers. -/

section Results
variable {c : Instr} {s : State} {l : Fin 4}

section
variable {a : Fin 4} {v : Lane → Int} (hc : exec c s = s.run (·.ceStep l (·.onLane l 1 fun r => r.setAcc a (v r))))
include hc

theorem makes_setAcc : Makes c s (issued s.m l (laneStep s.m.ce l 1 fun r => accResult r a (v r))) :=
  makes_issued hc (by simp only [Ce.onLane_eq, Lane.setAcc_eq])

theorem accumulates_of_setAcc : Accumulates c s l a v :=
  ⟨_, makes_issued hc rfl, fun r => ⟨sat40 (v r), sat40_toInt _, by rw [Lane.setAcc, clamps40_eq, sat40_toInt]⟩⟩

end

theorem convertsTo_of_setXSat {x : Fin 8} {v : Lane → Int}
    (hc : exec c s = s.run (·.ceStep l (·.onLane l 1 fun r => r.setXSat x (v r)))) : ConvertsTo c s l x v :=
  ⟨_, makes_issued hc rfl, fun r => ⟨sat16 (v r), sat16_toInt _, by rw [Lane.setXSat, clamps16_eq, sat16_toInt]⟩⟩

end Results

/-! `ABSA` and `SHA` with the values that R191 and R195 give them. -/

theorem exec_ceAbsa (s : State) (l a : Fin 4) :
    exec (.ceAbsa l a) s = s.run (·.ceStep l (·.onLane l 1 fun r => r.setAcc a |(r.acc a).toInt|)) := by
  have h (v : Int) : |v| = if v < 0 then -v else v := by
    split_ifs with hv
    · exact abs_of_neg hv
    · exact abs_of_nonneg (not_lt.1 hv)
  simp only [h]
  rfl

/-- A right shift by `n ≥ 1` that rounds half up stays in range. -/
theorem intoRange_halfUp (v : Acc) {n : Nat} (h : 1 ≤ n) :
    intoRange 39 ((v.toInt + 2 ^ (n - 1)) / 2 ^ n) = (v.toInt + 2 ^ (n - 1)) / 2 ^ n := by
  have hlo := v.le_toInt
  have hhi := v.toInt_lt
  have hp : (0 : Int) < 2 ^ (n - 1) := by positivity
  have hn : (2 : Int) ^ n = 2 * 2 ^ (n - 1) := by rw [← pow_succ', Nat.sub_add_cancel h]
  have h1 : -(2 ^ 39) ≤ (v.toInt + 2 ^ (n - 1)) / 2 ^ n := (Int.le_ediv_iff_mul_le (by positivity)).2 (by rw [hn]; omega)
  have h2 : (v.toInt + 2 ^ (n - 1)) / 2 ^ n < 2 ^ 39 := Int.ediv_lt_of_lt_mul (by positivity) (by rw [hn]; omega)
  unfold intoRange
  omega

section Shift
variable (s : State) (l a : Fin 4) {k : BitVec 6}

theorem exec_ceSha_left (hk : 0 ≤ k.toInt) :
    exec (.ceSha l a k) s = s.run (·.ceStep l (·.onLane l 1 fun r => r.setAcc a ((r.acc a).toInt * 2 ^ k.toInt.toNat))) := by
  have h (v : Acc) : accShift v k.toInt = v.toInt * 2 ^ k.toInt.toNat := if_pos hk
  simp only [← h]
  rfl

theorem exec_ceSha_right {n : Nat} (h1 : 1 ≤ n) (hk : k.toInt = -(n : Int)) : exec (.ceSha l a k) s =
    s.run (·.ceStep l (·.onLane l 1 fun r => r.setAcc a (((r.acc a).toInt + 2 ^ (n - 1)) / 2 ^ n))) := by
  have h (v : Acc) : accShift v k.toInt = (v.toInt + 2 ^ (n - 1)) / 2 ^ n := by
    rw [accShift, if_neg (by omega), hk, neg_neg, Int.toNat_natCast]
  simp only [← h]
  rfl

end Shift

/-- Settles O4: loads and moves act on their lane alone; those into an accumulator leave its result there. -/
theorem ceLoadsAndMoves : Obligations.CeLoadsAndMoves := by
  unfold Obligations.CeLoadsAndMoves
  intro s l x a b w imm
  refine ⟨?nop, ?ldx, ?ldi, ?lda, ?movq, ?ldax, ?mova⟩
  case nop | ldx | ldi | movq => exact makes_issued rfl rfl
  case lda => exact makes_issued rfl (by simp only [ceLdaOp, Ce.onLane_eq, Lane.setAcc_eq]; rfl)
  case ldax | mova => exact makes_setAcc rfl

/-- Settles O5: each leaves in its accumulator the result of its exact value. -/
theorem ceAccumulatorArithmetic : Obligations.CeAccumulatorArithmetic := by
  unfold Obligations.CeAccumulatorArithmetic
  intro s l a b x y
  refine ⟨?mpy, ?mac, ?msu, ?adda, ?suba, ?addx, ?subx, ?nega, ?absa⟩
  case absa => exact makes_setAcc (exec_ceAbsa s l a)
  all_goals exact makes_setAcc rfl

/-- Settles O55: the clamp of an exact value is `intoRange`, and it sets `AOV` where it differs from the value. -/
theorem accumulatorArithmeticNeverWraps : Obligations.AccumulatorArithmeticNeverWraps := by
  unfold Obligations.AccumulatorArithmeticNeverWraps
  intro s l a b x y k
  refine ⟨?ldax, ?mpy, ?mac, ?msu, ?adda, ?suba, ?addx, ?subx, ?nega, ?absa, fun hk => ?left, fun n h1 h31 hk => ⟨?right, fun r => ?exact⟩⟩
  case absa => exact accumulates_of_setAcc (exec_ceAbsa s l a)
  case left => exact accumulates_of_setAcc (exec_ceSha_left s l a hk)
  case right => exact accumulates_of_setAcc (exec_ceSha_right s l a h1 hk)
  case exact => exact intoRange_halfUp _ h1
  all_goals exact accumulates_of_setAcc rfl

/-- Settles O56: `sat16` is `intoRange` to Q15, and it sets `SAT` where it differs from the value. -/
theorem conversionsToQ15RoundHalfUpAndSaturate : Obligations.ConversionsToQ15RoundHalfUpAndSaturate := by
  unfold Obligations.ConversionsToQ15RoundHalfUpAndSaturate
  intro s l a x y w
  refine ⟨?movq, ?addq, ?subq, ?stq⟩
  case movq | addq | subq => exact convertsTo_of_setXSat rfl
  case stq =>
    refine ⟨toQ15 ((s.m.ce.lane l).acc a), sat16_toInt _, makes_issued rfl ?_⟩
    simp only [← clamps16_eq]
    rfl

/-- Settles O6: `SHA` and `LIMA` leave accumulator results, the others act on their lane or on its loop's flags as defined. -/
theorem ceShiftClampCompareAndQ15 : Obligations.CeShiftClampCompareAndQ15 := by
  unfold Obligations.CeShiftClampCompareAndQ15
  intro s l a x y k set clr
  refine ⟨?sha, ?lima, ?cmpa, ?addq, ?subq, ?flg⟩
  case sha => exact makes_setAcc rfl
  case lima => exact makes_issued rfl (by simp only [ceLimaOp, Ce.onLane_eq, Lane.setAcc_eq]; rfl)
  case cmpa | addq | subq | flg => exact makes_issued rfl rfl

end Sys2Proof.Machine
end

section
/-! State words, branches, table look-ups, the trace and the end of an execution (R192, R195, R196, R203, R238). -/

namespace Sys2Proof.Machine

/-! Stores. -/

theorem Ce.setWord_get (c : Ce) (n w i : Nat) (v : BitVec 32) : SMap.get 0 (c.setWord n w v).words i =
    if i = n * 256 + w % 256 then v else SMap.get 0 c.words i := SMap.get_set _ _ _

theorem does_of_makes {c : Instr} {s : State} {k : Mod} {P : Mod → Prop} (h : Makes c s k) (hp : P k) : Does c s P :=
  ⟨_, h, rfl, hp⟩

/-- Settles O7: a store is one write of a state word, `STA` two, read back by the laws of tables. -/
theorem ceStoresWriteOnlyTheirWords : Obligations.CeStoresWriteOnlyTheirWords := by
  unfold Obligations.CeStoresWriteOnlyTheirWords
  intro s l a x w loop v
  refine ⟨?stx, ?stq, ?sta⟩
  case stx | stq => exact does_of_makes (makes_issued rfl rfl) ⟨fun i => Ce.setWord_get .., rfl⟩
  case sta =>
    refine does_of_makes (makes_issued rfl rfl) ⟨fun i => ?_, rfl⟩
    exact (Ce.setWord_get ..).trans (by rw [Ce.setWord_get])

/-! Branches. -/

theorem ceBrOp_eq (c : Ce) (l : Fin 4) (cc : CeCond) (t : BitVec 7) : ceBrOp c l cc t =
    { c with lanes := upd c.lanes l fun r => { r with pc := if r.cond cc then t.toNat else r.pc + 1, cycles := r.cycles + 1 } } := by
  have h (r : Lane) : (if r.cond cc then { r.tick 1 with pc := t.toNat } else r.tick 1) =
      { r with pc := if r.cond cc then t.toNat else r.pc + 1, cycles := r.cycles + 1 } := by
    split <;> rfl
  simp only [ceBrOp, h]
  rfl

/-- A branch on a condition that holds in a lane where `p` does. -/
theorem makes_ceBr (s : State) (l : Fin 4) (t : BitVec 7) {cc : CeCond} {p : Lane → Bool} (hp : ∀ r : Lane, r.cond cc = p r) :
    Makes (.ceBr l cc t) s (issued s.m l { s.m.ce with lanes := upd s.m.ce.lanes l fun r =>
      { r with pc := if p r then t.toNat else r.pc + 1, cycles := r.cycles + 1 } }) :=
  makes_issued rfl (by simp only [ceBrOp_eq, hp])

theorem ceCondOf_eq_getElem? : ∀ c : Fin 16,
    ceCondOf c = [CeCond.always, .z, .nz, .n, .nn, .lim, .nlim, .first, .nfirst][c.val]? := by decide

/-- Settles O57: a branch goes by its condition, and its word decodes by its condition code. -/
theorem branchConditionsHoldAsTabled : Obligations.BranchConditionsHoldAsTabled := by
  unfold Obligations.BranchConditionsHoldAsTabled
  constructor
  · intro s l t on
    refine ⟨?always, ?z, ?nz, ?n, ?nn, ?lim, ?nlim, ?first, ?nfirst⟩
    all_goals exact makes_ceBr s l t fun _ => rfl
  · intro t c
    have hw : BitVec.ofNat 32 (0x1B * 2 ^ 26 + c.val * 2 ^ 12 + t.toNat) = ceWord 0x1B 0 0 0 0 (c.val * 4096 + t.toNat) := by
      unfold ceWord
      exact congrArg _ (by omega)
    rw [hw, ceDecode_branch c.isLt, ceCondOf_eq_getElem?]

/-! The trace and the end of an execution. -/

theorem ceTrcOp_taken {c : Ce} {l : Fin 4} {x : Fin 8} {ch : Fin 16} (hs : (at_ c.trc.chs ch {}).src = 1)
    (hl : (at_ c.trc.chs ch {}).lnum = (c.lane l).loop) : ceTrcOp c l x ch =
      laneStep { c with trc := c.trc.sample ch ((c.lane l).xr x) c.f (dtimeOf c.nextB) } l 1 id := by
  simp only [ceTrcOp, hs, hl, beq_self_eq_true, Bool.and_self, if_true]
  rfl

theorem ceTrcOp_other {c : Ce} {l : Fin 4} {x : Fin 8} {ch : Fin 16}
    (h : (at_ c.trc.chs ch {}).src ≠ 1 ∨ (at_ c.trc.chs ch {}).lnum ≠ (c.lane l).loop) : ceTrcOp c l x ch = laneStep c l 1 id := by
  have h' : ((at_ c.trc.chs ch {}).src == 1 && (at_ c.trc.chs ch {}).lnum == (c.lane l).loop) = false := by
    rcases h with h | h <;> simp [h]
  simp only [ceTrcOp, h']
  rfl

theorem ceEndOp_none {c : Ce} {l : Fin 4} (h : c.loopCfg ((laneStep c l 1 id).lane l).loop = none) :
    ceEndOp c l = (laneStep c l 1 id).updLane l fun r => { r with done := true } := by
  have h' : (c.onLane l 1 id).loopCfg ((c.onLane l 1 id).lane l).loop = none := h
  simp only [ceEndOp, h']
  rfl

theorem ceEndOp_some {c : Ce} {l : Fin 4} {d : LoopCfg} (h : c.loopCfg ((laneStep c l 1 id).lane l).loop = some d) :
    let mode := modeInEffect d.nmode (c.loopSt d.lnum).down.mode (c.loopSt d.lnum).mode
    ceEndOp c l = (laneStep c l 1 id).finish l d mode ((c.loopSt d.lnum).handsOver mode) := by
  have h' : (c.onLane l 1 id).loopCfg ((c.onLane l 1 id).lane l).loop = some d := h
  simp only [ceEndOp, h']
  rfl

/-- Settles O8: ports and tables act on their lane alone; `BR`, `TRC` and `END` by the case that their conditions name. -/
theorem ceBranchPortsTablesTraceEnd : Obligations.CeBranchPortsTablesTraceEnd := by
  unfold Obligations.CeBranchPortsTablesTraceEnd
  intro s l x p cc t tb e ch
  refine ⟨?br, ?input, ?output, ?tbl, ?tblf, fun h => ?trcOther, fun hs hl => ?trcTaken, fun h => ?endNone, fun d h => ?endSome⟩
  case br => exact makes_ceBr s l t fun _ => rfl
  case input | output | tbl | tblf => exact makes_issued rfl rfl
  case trcOther => exact makes_issued rfl (ceTrcOp_other h)
  case trcTaken => exact makes_issued rfl (ceTrcOp_taken hs hl)
  case endNone => exact makes_issued rfl (ceEndOp_none h)
  case endSome => exact makes_issued rfl (ceEndOp_some h)

end Sys2Proof.Machine
end

section
/-! Requests to the compensation tables, the trace unit and the engine's counters. -/

namespace Sys2Proof.Machine

/-! `TAB_SWITCH`, check by check (R228, R229). -/

section Tab
variable {m : Mod} {n : Nat}

theorem Mod.tabSwitch_range (h : 15 < n) : m.tabSwitch n = (m, stRange) := if_pos h

section
variable (h : n ≤ 15)
include h

theorem Mod.tabSwitch_busy (hb : m.changing = true ∨ (at_ m.ce.tabSt n {}).pending = true) : m.tabSwitch n = (m, stBusy) :=
  (if_neg (Nat.not_lt.2 h)).trans (if_pos (by simpa using hb))

variable (hc : m.changing = false) (hp : (at_ m.ce.tabSt n {}).pending = false)
include hc hp

theorem Mod.tabSwitch_absent (ha : (at_ m.ce.tabSt n {}).present = false ∨ (at_ m.ce.tabSt n {}).fresh = false) :
    m.tabSwitch n = (m, stAbsent) :=
  (if_neg (Nat.not_lt.2 h)).trans ((if_neg (by simp [hc, hp])).trans (if_pos (by simpa using ha)))

variable (hr : (at_ m.ce.tabSt n {}).present = true) (hf : (at_ m.ce.tabSt n {}).fresh = true)
include hr hf

theorem Mod.tabSwitch_partner (hw : m.partnerFollows = true) (ho : (at_ m.ce.tabSt n {}).partnerOk = false) :
    m.tabSwitch n = (m, stPartner) :=
  (if_neg (Nat.not_lt.2 h)).trans ((if_neg (by simp [hc, hp])).trans ((if_neg (by simp [hr, hf])).trans (if_pos (by simp [hw, ho]))))

theorem Mod.tabSwitch_ok (hw : m.partnerFollows = true → (at_ m.ce.tabSt n {}).partnerOk = true) : m.tabSwitch n =
    ({ m with ce := { m.ce with tabSt := upd m.ce.tabSt n fun t => { t with pending := true } } }, stOk) :=
  (if_neg (Nat.not_lt.2 h)).trans ((if_neg (by simp [hc, hp])).trans ((if_neg (by simp [hr, hf])).trans (if_neg (by simpa using hw))))

end
end Tab

/-! `LOOP_MISS` (R218), and what the checks of `TRACE` arm read once a session has been used (R241, R572). -/

theorem Mod.readLoopMiss_some {m : Mod} {n : Nat} (h : (m.ce.loopCfg n).isSome = true) : m.readLoopMiss n =
    ({ m with ce := m.ce.updLoop n fun q => { q with miss := 0 } }, stOk, natLe 2 (m.ce.loopSt n).miss) := by
  rw [Mod.readLoopMiss, if_pos h]

theorem Mod.readLoopMiss_none {m : Mod} {n : Nat} (h : m.ce.loopCfg n = none) : m.readLoopMiss n =
    (m, stOk, natLe 2 (m.ce.loopSt n).miss) := by
  rw [Mod.readLoopMiss, if_neg (by simp [h])]

@[simp] theorem Mod.touchSession_act (m : Mod) (i : Nat) : (m.touchSession i).act = m.act := rfl
@[simp] theorem Mod.touchSession_readingFile (m : Mod) (i : Nat) (n : FileName) :
    (m.touchSession i).readingFile n = m.readingFile n := rfl

/-- Settles O9: a request comes to the case of its object that its conditions name. -/
theorem ceTableTraceAndCounterRequests : Obligations.CeTableTraceAndCounterRequests := by
  unfold Obligations.CeTableTraceAndCounterRequests
  constructor
  · intro s rq x
    refine ⟨fun n h hr hm hn hc hp ha hf hw => ?switch, fun h => ⟨fun ha hf => ?arm, fun ht => ?trigger, ?stop, ?reset⟩,
      fun h hm => ⟨fun l => ?laneMax, fun n hn => ?loopMiss⟩⟩
    case switch => exact makes_writeOne h rfl hr hm (Mod.tabSwitch_ok (m := s.m.touchSession rq.sess) hn hc hp ha hf hw)
    case arm => exact makes_commanded_done rfl h ((if_neg (by simpa using ha)).trans (if_neg (by simpa using hf))) (by decide)
    case trigger => exact makes_commanded_done rfl h (if_neg (by simpa using ht)) (by decide)
    case stop | reset => exact makes_commanded_done rfl h rfl (by decide)
    case laneMax => exact makes_readClear h rfl hm rfl
    case loopMiss => exact makes_readClear h rfl hm (Mod.readLoopMiss_some hn)
  · intro s rq x m
    refine ⟨fun n h hr hm => ⟨fun hn => ?range,
        fun hn => ⟨fun hb => ?busy, fun hc hp => ⟨fun ha => ?absent, fun ha hf hw ho => ?partner⟩⟩⟩,
      fun h => ⟨fun ha => ?notActive, fun ha hf => ?reading, fun ht => ?notArmed⟩, fun h hm n hn => ?loopMissNone⟩
    case range => exact makes_writeOne h rfl hr hm (Mod.tabSwitch_range hn)
    case busy => exact makes_writeOne h rfl hr hm (Mod.tabSwitch_busy (m := m) hn hb)
    case absent => exact makes_writeOne h rfl hr hm (Mod.tabSwitch_absent (m := m) hn hc hp ha)
    case partner => exact makes_writeOne h rfl hr hm (Mod.tabSwitch_partner (m := m) hn hc hp ha hf hw ho)
    case notActive => exact refuses_of rfl h (if_pos (by simpa using ha)) (by decide)
    case reading => exact refuses_of rfl h ((if_neg (by simpa using ha)).trans (if_pos hf)) (by decide)
    case notArmed => exact refuses_of rfl h (if_pos ht) (by decide)
    case loopMissNone => exact makes_readClear h rfl hm (Mod.readLoopMiss_none (m := m) hn)

end Sys2Proof.Machine
end

section
/-! The `FILE` service: opening, blocks and closing, check by check. -/

namespace Sys2Proof.Machine

/-! A request heard, by what its meaning answers (R565). -/

section Served
variable {c : Instr} {s : State} {rq : Req} {x : Session} {f : Session → Mod → Served} {k : Mod}
  (h : heard s.m rq x) (hc : exec c s = s.run (·.serve rq f))
include h hc

theorem makes_served {st : Nat} {b : Bytes} (hf : f x (s.m.touchSession rq.sess) = { m := k, ans := some (st, b) }) :
    Makes c s (k.respond rq st b) := by
  obtain ⟨hl, hs, ht⟩ := h
  exact makes_of_run hc (by rw [Mod.serve_new f hl hs ht, hf])

/-- One whose answer is to come. -/
theorem makes_served_later (hf : f x (s.m.touchSession rq.sess) = { m := k, ans := none }) : Makes c s k := by
  obtain ⟨hl, hs, ht⟩ := h
  exact makes_of_run hc (by rw [Mod.serve_new f hl hs ht, hf])

end Served

/-! Opening for reading (R571, R572). -/

section OpenRead
variable {m : Mod} {x : Session} {n : FileName}

theorem Mod.openRead_busy (h : 2 ≤ m.openFiles x.id) : m.openRead x n = { m := m, ans := some (stBusy, []) } := if_pos h

variable (h : m.openFiles x.id < 2)
include h

theorem Mod.openRead_refused {st : Nat} (hc : m.fileContent x n = .inl st) : m.openRead x n = { m := m, ans := some (st, []) } := by
  rw [Mod.openRead, if_neg (Nat.not_le.mpr h), hc]

theorem Mod.openRead_ok {b : Bytes} (hc : m.fileContent x n = .inr b) : m.openRead x n =
    let f : FileOpen := { sess := x.id, fh := m.freeFh, name := n, write := false, total := b.length, data := b, lastAt := m.mono }
    { m := { m with eap := { m.eap with files := m.eap.files ++ [f] } },
      ans := some (stOk, fileBody 1 f.fh (natLe 4 b.length ++ natLe 4 (crc32 b))) } := by
  rw [Mod.openRead, if_neg (Nat.not_le.mpr h), hc]

end OpenRead

/-! Opening for writing (R571 to R573). -/

section OpenWrite
variable {m : Mod} {x : Session} {n : FileName} {r total : Nat}

/-- The session may write a file that asks for role `r`; in `MAINTENANCE` that is SERVICE on P5 (R69, R571). -/
def Mod.WriteRight (m : Mod) (x : Session) (r : Nat) : Prop := (if m.maint then 4 else r) ≤ x.role ∧ (m.maint = true → x.port = 2)

/-- `n` is a file that role `r` may write, and no table in `MAINTENANCE`. -/
structure Mod.Writable (m : Mod) (n : FileName) (r : Nat) : Prop where
  role : writeRole n = some r
  noTable : m.maint = true → ∀ k, n ≠ .ctab k

/-- The session holds a free handle, and no file is being written (R572). -/
structure Mod.OpensFree (m : Mod) (x : Session) : Prop where
  handles : m.openFiles x.id < 2
  noWrite : m.eap.files.any (·.write) = false

theorem Mod.WriteRight.not_refused (h : m.WriteRight x r) : ¬ (x.role < (if m.maint then 4 else r) ∨ m.maint ∧ x.port ≠ 2) := by
  simpa [Mod.WriteRight] using h

theorem Mod.OpensFree.not_busy (h : m.OpensFree x) : ¬ (2 ≤ m.openFiles x.id ∨ m.eap.files.any (·.write)) := by
  simp only [h.noWrite, Bool.false_eq_true, or_false, Nat.not_le.mpr h.handles, not_false_eq_true]

theorem Mod.openWrite_access (h : writeRole n = none) : m.openWrite x n total = { m := m, ans := some (stAccess, []) } := by
  simp only [Mod.openWrite, h]

theorem Mod.openWrite_tableInMaint {k : Fin 16} (hm : m.maint = true) :
    m.openWrite x (.ctab k) total = { m := m, ans := some (stCondition, []) } := by
  simp only [Mod.openWrite, writeRole, hm, Bool.and_self, if_true]

section
variable (h : m.Writable n r)
include h

/-- The checks that follow those of the name: of the session, of the files that are open, and of the file's place. -/
theorem Mod.openWrite_writable : m.openWrite x n total =
    if x.role < (if m.maint then 4 else r) ∨ m.maint ∧ x.port ≠ 2 then { m := m, ans := some (stRole, []) }
    else if 2 ≤ m.openFiles x.id ∨ m.eap.files.any (·.write) then { m := m, ans := some (stBusy, []) }
    else if (m.prepareWrite x n total).2 ≠ stOk then
      { m := (m.prepareWrite x n total).1, ans := some ((m.prepareWrite x n total).2, []) }
    else
      let k := (m.prepareWrite x n total).1.dropAck (relayOf n)
      let f : FileOpen := { sess := x.id, fh := k.freeFh, name := n, write := true, total := total, lastAt := k.mono }
      { m := { k with eap := { k.eap with files := k.eap.files ++ [f] } }, ans := some (stOk, fileBody 2 f.fh []) } := by
  simp only [Mod.openWrite, h.role]
  refine if_neg fun hc => ?_
  obtain ⟨hm, hn⟩ := Bool.and_eq_true_iff.mp hc
  cases n with
  | ctab k => exact h.noTable hm k rfl
  | _ => cases hn

theorem Mod.openWrite_role (hr : ¬ m.WriteRight x r) : m.openWrite x n total = { m := m, ans := some (stRole, []) } :=
  (Mod.openWrite_writable h).trans (if_pos (by simpa [Mod.WriteRight, or_iff_not_imp_left] using hr))

variable (hr : m.WriteRight x r)
include hr

theorem Mod.openWrite_busy (hb : 2 ≤ m.openFiles x.id ∨ m.eap.files.any (·.write) = true) :
    m.openWrite x n total = { m := m, ans := some (stBusy, []) } :=
  (Mod.openWrite_writable h).trans ((if_neg hr.not_refused).trans (if_pos hb))

variable (hf : m.OpensFree x)
include hf

theorem Mod.openWrite_refused (hp : (m.prepareWrite x n total).2 ≠ stOk) : m.openWrite x n total =
    { m := (m.prepareWrite x n total).1, ans := some ((m.prepareWrite x n total).2, []) } :=
  (Mod.openWrite_writable h).trans ((if_neg hr.not_refused).trans ((if_neg hf.not_busy).trans (if_pos hp)))

theorem Mod.openWrite_ok (hp : (m.prepareWrite x n total).2 = stOk) : m.openWrite x n total =
    let k := (m.prepareWrite x n total).1.dropAck (relayOf n)
    let f : FileOpen := { sess := x.id, fh := k.freeFh, name := n, write := true, total := total, lastAt := k.mono }
    { m := { k with eap := { k.eap with files := k.eap.files ++ [f] } }, ans := some (stOk, fileBody 2 f.fh []) } :=
  (Mod.openWrite_writable h).trans ((if_neg hr.not_refused).trans ((if_neg hf.not_busy).trans (if_neg (not_not.mpr hp))))

end
end OpenWrite

/-! Blocks (R572). -/

/-- The monotonic time does not depend on the cassette; `simp` rewrites with it, where unfolding a write of the cassette to see it is costly. -/
theorem Mod.mono_of_cas (m : Mod) (c : Cas) : ({ m with cas := c } : Mod).mono = m.mono := by rfl

section Block
variable {m : Mod} {x : Session} {fh : BitVec 8} {f : FileOpen} {off : Nat} {b : Bytes}

/-- Session `x` holds the open file `f` under handle `fh`. -/
abbrev Mod.Holds (m : Mod) (x : Session) (fh : BitVec 8) (f : FileOpen) : Prop :=
  (m.eap.files.find? fun f => f.fh == fh && f.sess == x.id) = some f

/-- Session `x` holds no open file under handle `fh`. -/
abbrev Mod.HoldsNone (m : Mod) (x : Session) (fh : BitVec 8) : Prop :=
  (m.eap.files.find? fun f => f.fh == fh && f.sess == x.id) = none

theorem Mod.block_unheld (op : BlockOp) (h : m.HoldsNone x fh) : m.block x fh op = { m := m, ans := some (stCondition, []) } := by
  rw [Mod.block, h]

theorem Mod.block_write (h : m.Holds x fh f) : m.block x fh (.write off b) = m.writeBlock x f off b := by
  rw [Mod.block, h]

theorem Mod.block_read_access {len : Nat} (h : m.Holds x fh f) (hw : f.write = true) :
    m.block x fh (.read off len) = { m := m, ans := some (stAccess, []) } := by
  simp only [Mod.block, h, hw, if_true]

theorem Mod.block_read {len : Nat} (h : m.Holds x fh f) (hw : f.write = false) : m.block x fh (.read off len) =
    { m := m, ans := some (stOk, fileBody 3 fh (slice f.data off (Nat.min (Nat.min len 1024) (f.data.length - off)))) } := by
  simp only [Mod.block, h, hw, Bool.false_eq_true, if_false]

/-- `b` is the block of the written file `f` that follows on what has come. -/
structure FileOpen.Takes (f : FileOpen) (b : Bytes) : Prop where
  write : f.write = true
  short : b.length ≤ 1024
  fits : f.pos + b.length ≤ f.total

theorem Mod.writeBlock_access (hw : f.write = false) : m.writeBlock x f off b = { m := m, ans := some (stAccess, []) } :=
  if_pos (by simp [hw])

section
variable (hw : f.write = true)
include hw

theorem FileOpen.not_readOnly : ¬ (!f.write) = true := by simp [hw]

theorem Mod.writeBlock_length (hl : 1024 < b.length) : m.writeBlock x f off b = { m := m, ans := some (stLength, []) } :=
  (if_neg (f.not_readOnly hw)).trans (if_pos hl)

variable (hl : b.length ≤ 1024)
include hl

theorem Mod.writeBlock_sequence (ho : off ≠ f.pos) : m.writeBlock x f off b = { m := m, ans := some (stSequence, []) } :=
  (if_neg (f.not_readOnly hw)).trans ((if_neg (Nat.not_lt.mpr hl)).trans (if_pos ho))

theorem Mod.writeBlock_range (ht : f.total < f.pos + b.length) : m.writeBlock x f f.pos b = { m := m, ans := some (stRange, []) } :=
  (if_neg (f.not_readOnly hw)).trans ((if_neg (Nat.not_lt.mpr hl)).trans ((if_neg (not_not.mpr rfl)).trans (if_pos ht)))

end

section
variable (h : f.Takes b)
include h

theorem Mod.writeBlock_data (hn : ∀ k, f.name ≠ .slot k) : m.writeBlock x f f.pos b =
    { m := (m.updFile f.fh fun g => { g with pos := g.pos + b.length, lastAt := m.mono, data := g.data ++ b }).passOn x f f.pos b,
      ans := some (stOk, fileBody 3 f.fh []) } := by
  rw [Mod.writeBlock, if_neg (f.not_readOnly h.write), if_neg (Nat.not_lt.mpr h.short), if_neg (not_not.mpr rfl), if_neg (Nat.not_lt.mpr h.fits)]
  cases he : f.name with
  | slot k => exact absurd he (hn k)
  | _ => simp only [if_true]

theorem Mod.writeBlock_slot_held {k : Fin 8} (hn : f.name = .slot k) (hs : m.slotHeld k f.pos b.length = true) :
    m.writeBlock x f f.pos b = { m := m.updFile f.fh fun g => { g with lastAt := m.mono }, ans := some (stSupplyLow, []) } := by
  rw [Mod.writeBlock, if_neg (f.not_readOnly h.write), if_neg (Nat.not_lt.mpr h.short), if_neg (not_not.mpr rfl), if_neg (Nat.not_lt.mpr h.fits)]
  simp only [hn, hs, if_true]

theorem Mod.writeBlock_slot {k : Fin 8} (hn : f.name = .slot k) (hs : m.slotHeld k f.pos b.length = false) :
    m.writeBlock x f f.pos b =
      { m := (({ m with cas := m.cas.writeSlot k f.pos b } : Mod).updFile f.fh fun g =>
          { g with pos := g.pos + b.length, lastAt := m.mono }).passOn x f f.pos b,
        ans := some (stOk, fileBody 3 f.fh []) } := by
  rw [Mod.writeBlock, if_neg (f.not_readOnly h.write), if_neg (Nat.not_lt.mpr h.short), if_neg (not_not.mpr rfl), if_neg (Nat.not_lt.mpr h.fits)]
  simp only [hn, hs, Bool.false_eq_true, if_false, Mod.mono_of_cas]

end
end Block

/-! Closing (R228, R229, R572, R573). -/

section Close
variable {m : Mod} {x : Session} {rq : Req} {fh : BitVec 8} {f : FileOpen}

theorem Mod.closeFile_unheld (h : m.HoldsNone x fh) : m.closeFile x rq fh = { m := m, ans := some (stCondition, []) } := by
  rw [Mod.closeFile, h]

theorem Mod.abandon_unheld (h : m.HoldsNone x fh) : m.abandon x fh = { m := m, ans := some (stCondition, []) } := by
  rw [Mod.abandon, h]

section
variable (h : m.Holds x fh f)
include h

theorem Mod.abandon_held : m.abandon x fh = { m := m.dropFile f, ans := some (stOk, fileBody 5 fh []) } := by
  rw [Mod.abandon, h]

theorem Mod.closeFile_read (hw : f.write = false) :
    m.closeFile x rq fh = { m := m.forgetFile fh, ans := some (stOk, fileBody 4 fh []) } := by
  simp only [Mod.closeFile, h, hw, Bool.not_false, if_true]

variable (hw : f.write = true)
include hw

theorem Mod.closeFile_slot {t : Fin 8} (hn : f.name = .slot t) : m.closeFile x rq fh = m.closeSlot x rq f t := by
  simp only [Mod.closeFile, h, hw, hn, Bool.not_true, Bool.false_eq_true, if_false]

theorem Mod.closeFile_table_short {t : Fin 16} (hn : f.name = .ctab t) (hp : f.pos ≠ 2048) :
    m.closeFile x rq fh = { m := m.forgetFile fh, ans := some (stLength, []) } := by
  simp only [Mod.closeFile, h, hw, hn, Bool.not_true, Bool.false_eq_true, if_false, if_pos hp]

theorem Mod.closeFile_table {t : Fin 16} (hn : f.name = .ctab t) (hp : f.pos = 2048) : m.closeFile x rq fh =
    let k := (m.forgetFile fh).completeTab t f.data
    { m := if m.acked (.ctab t) (crc32 f.data) then k.confirmTab t true else k, ans := some (stOk, fileBody 4 fh []) } := by
  simp only [Mod.closeFile, h, hw, hn, Bool.not_true, Bool.false_eq_true, if_false, if_neg (not_not.mpr hp)]

theorem Mod.closeFile_firmware {kind : Nat} (hn : fwKind f.name = some kind) : m.closeFile x rq fh =
    let good := (parseFw f.data).good && kind == (parseFw f.data).kind
    { m := (m.forgetFile fh).setFw kind { parseFw f.data with kind := kind, good := good },
      ans := some (if good then stOk else stImg, fileBody 4 fh (if good then [0, 0, 0] else [3, 0, 0])) } := by
  cases he : f.name with
  | fwBoot | fwMain | fwSi =>
    rw [he] at hn
    simp only [Mod.closeFile, h, hw, he, hn, Bool.not_true, Bool.false_eq_true, if_false, Option.some_beq_some]
  | _ => rw [he] at hn; cases hn

end

/-! A slot, once its content has been checked (R55, R65): `c` is what the check finds, the module with the slot's entry, the CRC-32, the
step that failed and the planner's code. -/

section
variable {t : Fin 8} {c : Mod × Nat × Nat × Nat}

/-- The body of the response to the close of a slot, and of the answer that waits for the partner (R573). -/
abbrev FileOpen.slotBody (f : FileOpen) (c : Mod × Nat × Nat × Nat) : Bytes := fileBody 4 f.fh (natLe 1 c.2.2.1 ++ natLe 2 c.2.2.2)

variable (hc : (m.forgetFile f.fh).completeSlot t f.pos = c)
include hc

theorem Mod.closeSlot_lost (hl : c.1.hdrLost = true) :
    m.closeSlot x rq f t = { m := c.1.joinImage, ans := some (stCondition, f.slotBody c) } := by
  subst hc
  exact if_pos hl

variable (hl : c.1.hdrLost = false)
include hl

theorem Mod.closeSlot_img (hs : 1 ≤ c.2.2.1 ∧ c.2.2.1 ≤ 6) :
    m.closeSlot x rq f t = { m := c.1.joinImage, ans := some (stImg, f.slotBody c) } := by
  subst hc
  exact (if_neg (Bool.eq_false_iff.mp hl)).trans (if_pos hs)

variable (hs : ¬ (1 ≤ c.2.2.1 ∧ c.2.2.1 ≤ 6))
include hs

theorem Mod.closeSlot_ok (ha : m.relays x f.name = false ∨ m.acked (.slot t) c.2.1 = true) :
    m.closeSlot x rq f t = { m := c.1.joinImage, ans := some (stOk, f.slotBody c) } := by
  subst hc
  exact (if_neg (Bool.eq_false_iff.mp hl)).trans ((if_neg hs).trans (if_pos (by simpa using ha)))

theorem Mod.closeSlot_waits (hr : m.relays x f.name = true) (ha : m.acked (.slot t) c.2.1 = false) : m.closeSlot x rq f t =
    let w : RelayClose := { rq := rq, slot := t, crc := BitVec.ofNat 32 c.2.1, body := f.slotBody c, due := m.mono + phS 10 }
    let k := c.1.joinImage
    { m := { k with eap := { k.eap with relayClose := some w } }, ans := none } := by
  subst hc
  exact (if_neg (Bool.eq_false_iff.mp hl)).trans ((if_neg hs).trans (if_neg (by simp [hr, ha])))

end
end Close

/-- Settles O44: a request comes to the case of its operation that its conditions name; the rest are events and timers of a live module. -/
theorem filesOpenTransferAndClose : Obligations.FilesOpenTransferAndClose := by
  unfold Obligations.FilesOpenTransferAndClose
  constructor
  · intro s m
    refine ⟨fun rq x h => ?requests, fun hl => ⟨fun f hf => ?timeout, fun hf => ?noTimeout, fun f off b => ?relay, fun f crc => ?relayAck,
      fun w hw => ?closeEnds, fun hw => ?noClosing⟩⟩
    case timeout | noTimeout => exact makes_of_live hl rfl (by rw [hf])
    case relay => exact makes_of_live hl rfl (by simp [m])
    case relayAck => exact makes_of_live hl rfl rfl
    case closeEnds | noClosing => exact makes_of_live hl rfl (by rw [hw])
    case requests =>
      intro n
      refine ⟨fun name => ⟨fun ho => ?readBusy, fun ho => ⟨fun b hb => ?read, fun st hst => ?readRefused⟩,
          fun total r hn hr hm ho hw hp => ?write⟩,
        fun fh => ⟨fun hf => ⟨fun op => ?noBlock, ?noClose, ?noAbandon⟩,
          fun f hf => ⟨fun hw => ⟨fun off len => ?blockRead, ?closeRead⟩, fun b hw hl ht hn => ?blockData, ?abandon⟩⟩⟩
      case readBusy => exact makes_served h rfl (Mod.openRead_busy ho)
      case read => exact makes_served h rfl (Mod.openRead_ok ho hb)
      case readRefused => exact makes_served h rfl (Mod.openRead_refused ho hst)
      case write =>
        have named : n.Writable name r := ⟨hn, by simp [n, m, hm]⟩
        have right : n.WriteRight x r := by simpa [Mod.WriteRight, n, m, hm] using hr
        exact makes_served h rfl (Mod.openWrite_ok named right ⟨ho, hw⟩ hp)
      case noBlock => exact makes_served h rfl (Mod.block_unheld (m := n) op hf)
      case noClose => exact makes_served h rfl (Mod.closeFile_unheld (m := n) hf)
      case noAbandon => exact makes_served h rfl (Mod.abandon_unheld (m := n) hf)
      case blockRead => exact makes_served h rfl (Mod.block_read (m := n) hf hw)
      case closeRead => exact makes_served h rfl (Mod.closeFile_read (m := n) hf hw)
      case blockData => exact makes_served h rfl ((Mod.block_write (m := n) hf).trans (Mod.writeBlock_data ⟨hw, hl, ht⟩ hn))
      case abandon => exact makes_served h rfl (Mod.abandon_held (m := n) hf)
  · intro s rq x h n
    refine ⟨fun name total => ?opens, fun fh f hf => ⟨fun off b => ?blocks, fun off len hw => ?readWritten, fun hw => ?closes⟩⟩
    case opens =>
      refine ⟨fun hn => ?access, fun r hn => ⟨fun hm hk => ?table, fun ht => ⟨fun hr => ?role, fun hr =>
        ⟨fun hb => ?busy, fun ho hw hp => ?refused⟩⟩⟩⟩
      case access => exact makes_served h rfl (Mod.openWrite_access hn)
      case table =>
        obtain ⟨k, rfl⟩ := hk
        exact makes_served h rfl (Mod.openWrite_tableInMaint (m := n) hm)
      case role => exact makes_served h rfl (Mod.openWrite_role (m := n) ⟨hn, ht⟩ hr)
      case busy => exact makes_served h rfl (Mod.openWrite_busy (m := n) ⟨hn, ht⟩ hr hb)
      case refused => exact makes_served h rfl (Mod.openWrite_refused (m := n) ⟨hn, ht⟩ hr ⟨ho, hw⟩ hp)
    case blocks =>
      refine ⟨fun hw => ?direction, fun hw => ⟨fun hl => ?length, fun hl => ⟨fun ho => ?sequence, ?inPlace⟩⟩⟩
      case direction => exact makes_served h rfl ((Mod.block_write (m := n) hf).trans (Mod.writeBlock_access hw))
      case length => exact makes_served h rfl ((Mod.block_write (m := n) hf).trans (Mod.writeBlock_length hw hl))
      case sequence => exact makes_served h rfl ((Mod.block_write (m := n) hf).trans (Mod.writeBlock_sequence hw hl ho))
      case inPlace =>
        rintro rfl
        refine ⟨fun ht => ?range, fun k ht hk => ⟨fun hs => ?slotHeld, fun hs => ?slot⟩⟩
        case range => exact makes_served h rfl ((Mod.block_write (m := n) hf).trans (Mod.writeBlock_range hw hl ht))
        case slotHeld =>
          exact makes_served h rfl ((Mod.block_write (m := n) hf).trans (Mod.writeBlock_slot_held ⟨hw, hl, ht⟩ hk hs))
        case slot => exact makes_served h rfl ((Mod.block_write (m := n) hf).trans (Mod.writeBlock_slot ⟨hw, hl, ht⟩ hk hs))
    case readWritten => exact makes_served h rfl (Mod.block_read_access (m := n) hf hw)
    case closes =>
      refine ⟨fun t ht => ⟨fun hp => ?short, fun hp => ?table⟩, fun kind hk => ?firmware, fun t ht => ⟨fun hl => ?lost, fun hl =>
        ⟨fun hs => ?img, fun hs => ⟨fun ha => ?ok, fun hr ha => ?waits⟩⟩⟩⟩
      case short => exact makes_served h rfl (Mod.closeFile_table_short (m := n) hf hw ht hp)
      case table => exact makes_served h rfl (Mod.closeFile_table (m := n) hf hw ht hp)
      case firmware => exact makes_served h rfl (Mod.closeFile_firmware (m := n) hf hw hk)
      case lost => exact makes_served h rfl ((Mod.closeFile_slot (m := n) hf hw ht).trans (Mod.closeSlot_lost rfl hl))
      case img => exact makes_served h rfl ((Mod.closeFile_slot (m := n) hf hw ht).trans (Mod.closeSlot_img rfl hl hs))
      case ok => exact makes_served h rfl ((Mod.closeFile_slot (m := n) hf hw ht).trans (Mod.closeSlot_ok rfl hl hs ha))
      case waits => exact makes_served_later h rfl ((Mod.closeFile_slot (m := n) hf hw ht).trans (Mod.closeSlot_waits rfl hl hs hr ha))

end Sys2Proof.Machine
end

section
/-! The timers of the alarm engine: delays, shelving and the release of a suppression group. -/

namespace Sys2Proof.Machine

/-! A delay that runs out (R253). -/

section Delay
variable {m : Mod} {pnum i : Nat} {on : Bool}

/-- The delay of the point at `i` towards `on` runs: the module executes, and the condition, of good quality, stands at `on` without
having been taken over. -/
structure Mod.DelayRuns (m : Mod) (i : Nat) (on : Bool) : Prop where
  executing : m.executing = true
  condition : (m.pt i).c = on
  notTaken : (m.pt i).a = !on
  good : (m.pt i).badq = false

theorem Mod.DelayRuns.not_of (h : m.executing = false ∨ (m.pt i).badq = true ∨ (m.pt i).c = !on ∨ (m.pt i).a = on) :
    ¬ m.DelayRuns i on := by
  rintro ⟨hx, hc, ha, hb⟩
  rcases h with h | h | h | h
  · simp [hx] at h
  · simp [hb] at h
  · simp [hc] at h
  · simp [ha] at h

/-- The command's guard is `Mod.DelayRuns`. -/
theorem Mod.delayRuns_iff : (m.executing && (m.pt i).c == on && (m.pt i).a != on && !(m.pt i).badq) = true ↔ m.DelayRuns i on := by
  simp only [Bool.and_eq_true, beq_iff_eq, bne_iff_ne, ← Bool.eq_not, Bool.not_eq_true']
  exact ⟨fun ⟨⟨⟨hx, hc⟩, ha⟩, hb⟩ => ⟨hx, hc, ha, hb⟩, fun ⟨hx, hc, ha, hb⟩ => ⟨⟨⟨hx, hc⟩, ha⟩, hb⟩⟩

theorem Mod.delayExpiry_unknown (hi : m.ptIndex pnum = none) : m.delayExpiry pnum on = m := by
  simp only [Mod.delayExpiry, hi]

variable (hi : m.ptIndex pnum = some i)
include hi

theorem Mod.delayExpiry_runs (h : m.DelayRuns i on) : m.delayExpiry pnum on =
    let dly := phMs (if on then (m.ptCfg i).ondly else (m.ptCfg i).offdly)
    (m.to (m.mono + (dly - (m.pt i).held))).evalNow [(i, m.ptCfg i)]
      fun p => if p.c = on ∧ p.a ≠ on then { p with held := Nat.max dly p.held } else p := by
  simp only [Mod.delayExpiry, hi]
  exact if_pos (Mod.delayRuns_iff.mpr h)

theorem Mod.delayExpiry_stands (h : ¬ m.DelayRuns i on) : m.delayExpiry pnum on = m := by
  simp only [Mod.delayExpiry, hi]
  exact if_neg (mt Mod.delayRuns_iff.mp h)

end Delay

/-! Shelving (R257) and suppression (R256) that run out: each command on a live module, and where its timer does not run. -/

section Timers
variable {s : State} {pnum i : Nat} {grp : Fin 256}

theorem makes_shelvingExpiry {t : Nat} (hl : s.m.live = true) (hi : s.m.ptIndex pnum = some i) (ht : (s.m.pt i).shelved = some t)
    (hx : s.m.executing = true) :
    let m1 := s.m.to (s.m.mono + phMs (t - s.m.optime))
    Makes (.shelvingExpiry pnum) s (m1.evalNow [(i, m1.ptCfg i)] id) :=
  makes_of_live hl rfl (by simp only [hi, ht]; exact if_pos hx)

theorem makes_shelvingExpiry_unknown (hi : s.m.ptIndex pnum = none) : Makes (.shelvingExpiry pnum) s s.m :=
  makes_self_of_idle rfl (by simp only [hi])

theorem makes_shelvingExpiry_idle (hi : s.m.ptIndex pnum = some i) (h : s.m.executing = false ∨ (s.m.pt i).shelved = none) :
    Makes (.shelvingExpiry pnum) s s.m := by
  refine makes_self_of_idle rfl ?_
  simp only [hi]
  split
  case h_1 => rfl
  case h_2 t ht => exact if_neg (by simpa [ht] using h)

theorem makes_suppressionRelease {ms : Nat} (hl : s.m.live = true) (hg : (at_ s.m.ae.sgs grp {}).left = some ms)
    (hx : s.m.executing = true) :
    let m1 := s.m.to (s.m.mono + phMs ms)
    Makes (.suppressionRelease grp) s
      (({ m1 with ae := { m1.ae with sgs := upd m1.ae.sgs grp fun _ => {} } } : Mod).releaseMembers grp) :=
  makes_of_live hl rfl (by simp only [hg]; exact if_pos hx)

theorem makes_suppressionRelease_idle (h : s.m.executing = false ∨ (at_ s.m.ae.sgs grp {}).left = none) :
    Makes (.suppressionRelease grp) s s.m := by
  refine makes_self_of_idle rfl ?_
  dsimp only
  split
  case h_1 => rfl
  case h_2 ms hg => exact if_neg (by simpa [hg] using h)

end Timers

/-- Settles O14: each command is the case of its timer that runs or does not run. -/
theorem alarmTimersMoveTheirPoint : Obligations.AlarmTimersMoveTheirPoint := by
  unfold Obligations.AlarmTimersMoveTheirPoint
  refine ⟨fun s hl => ⟨fun pnum i hi hx hb => ⟨fun hc ha => ?on, fun hc ha => ?off⟩, fun pnum i t hi ht hx => ?shelving,
      fun grp ms hg hx => ?suppression, fun pnum hi => ⟨?onUnknown, ?offUnknown, ?shelvingUnknown⟩, fun grp hg => ?noRelease⟩,
    fun s => ⟨fun pnum i hi => ⟨fun h => ?onStands, fun h => ?offStands, fun h => ?shelvingStands⟩, fun grp hx => ?released⟩⟩
  case on | off => exact makes_of_live hl rfl (Mod.delayExpiry_runs hi ⟨hx, hc, ha, hb⟩)
  case shelving => exact makes_shelvingExpiry hl hi ht hx
  case suppression => exact makes_suppressionRelease hl hg hx
  case onUnknown | offUnknown => exact makes_self_of_idle rfl (Mod.delayExpiry_unknown hi)
  case shelvingUnknown => exact makes_shelvingExpiry_unknown hi
  case noRelease => exact makes_suppressionRelease_idle (.inr hg)
  case onStands | offStands => exact makes_self_of_idle rfl (Mod.delayExpiry_stands hi (Mod.DelayRuns.not_of h))
  case shelvingStands => exact makes_shelvingExpiry_idle hi h
  case released => exact makes_suppressionRelease_idle (.inl hx)

end Sys2Proof.Machine
end

section
/-! The `ALARM` operations: what a request comes to, check by check, and what the command that waits makes of its point. -/

namespace Sys2Proof.Machine

/-! A request heard (R577, R579); `f` gives the status with which it is refused, or the command that waits. -/

section AlarmRequest
variable {c : Instr} {s : State} {rq : Req} {x : Session} {f : Mod → Nat ⊕ AlmCmd}
  (h : heard s.m rq x) (hc : exec c s = s.run (·.alarmRequest rq f))
include h hc

theorem makes_alarm_role (hr : x.role < 2) : Makes c s ((s.m.touchSession rq.sess).respond rq stRole []) :=
  makes_served h hc (if_pos hr)

variable (hr : 2 ≤ x.role)
include hr

theorem makes_alarm_maint (hm : s.m.maint = true) : Makes c s ((s.m.touchSession rq.sess).respond rq stCondition []) :=
  makes_served h hc ((if_neg (Nat.not_lt.mpr hr)).trans (if_pos hm))

variable (hm : s.m.maint = false)
include hm

theorem makes_alarm_waiting (hw : (s.m.ae.cmds.any fun k => k.rq == rq) = true) : Makes c s (s.m.touchSession rq.sess) :=
  makes_served_later h hc ((if_neg (Nat.not_lt.mpr hr)).trans ((if_neg (by simp [hm])).trans (if_pos hw)))

variable (hw : (s.m.ae.cmds.any fun k => k.rq == rq) = false)
include hw

theorem makes_alarm_notActive (ha : s.m.act = false) : Makes c s ((s.m.touchSession rq.sess).respond rq stNotActive []) :=
  makes_served h hc ((if_neg (Nat.not_lt.mpr hr)).trans ((if_neg (by simp [hm])).trans ((if_neg (Bool.eq_false_iff.mp hw)).trans
    (if_pos (by simp [ha])))))

variable (ha : s.m.act = true)
include ha

theorem makes_alarm_refused {st : Nat} (hf : f (s.m.touchSession rq.sess) = .inl st) :
    Makes c s ((s.m.touchSession rq.sess).respond rq st []) :=
  makes_served h hc ((if_neg (Nat.not_lt.mpr hr)).trans ((if_neg (by simp [hm])).trans ((if_neg (Bool.eq_false_iff.mp hw)).trans
    ((if_neg (by simp [ha])).trans (by rw [hf])))))

theorem makes_alarm_queued {k : AlmCmd} (hf : f (s.m.touchSession rq.sess) = .inr k) :
    Makes c s ((s.m.touchSession rq.sess).queueAlarm k) :=
  makes_served_later h hc ((if_neg (Nat.not_lt.mpr hr)).trans ((if_neg (by simp [hm])).trans ((if_neg (Bool.eq_false_iff.mp hw)).trans
    ((if_neg (by simp [ha])).trans (by rw [hf])))))

end AlarmRequest

/-! What each operation asks for (R579). -/

section Asked
variable {m : Mod} {rq : Req} {op i : Nat} {num occ mins : BitVec 16}

/-- What operation `op` on point `num` asks for. -/
def Mod.askPoint (m : Mod) (rq : Req) (op : Nat) (num occ mins : BitVec 16) : Nat ⊕ AlmCmd :=
  match m.ptIndex num.toNat with
  | none => .inl stRange
  | some i => .inr { rq := rq, op := op, mins := mins.toNat, accepted := m.dt, tq := m.tq, left := [((m.ptCfg i).pid, occ)], status := stRange }

theorem Mod.alarmPoint_eq : m.alarmPoint rq op num occ mins = m.alarmRequest rq (·.askPoint rq op num occ mins) := rfl

theorem Mod.askPoint_none (h : m.ptIndex num.toNat = none) : m.askPoint rq op num occ mins = .inl stRange := by
  rw [Mod.askPoint, h]

theorem Mod.askPoint_some (h : m.ptIndex num.toNat = some i) : m.askPoint rq op num occ mins =
    .inr { rq := rq, op := op, mins := mins.toNat, accepted := m.dt, tq := m.tq, left := [((m.ptCfg i).pid, occ)], status := stRange } := by
  rw [Mod.askPoint, h]

/-- What acknowledging the members of first-out group `num` asks for. -/
def Mod.askGroup (m : Mod) (rq : Req) (num : BitVec 16) : Nat ⊕ AlmCmd :=
  if (m.foIndex num.toNat).isNone then .inl stRange
  else .inr { rq := rq, op := 6, accepted := m.dt, tq := m.tq, left := m.occurrences fun d => d.fgroup == num.toNat, status := stOk }

theorem exec_alarmAckGroup {s : State} : exec (.alarmAckGroup rq num) s = s.run (·.alarmRequest rq (·.askGroup rq num)) := rfl

theorem Mod.askGroup_none (h : m.foIndex num.toNat = none) : m.askGroup rq num = .inl stRange := if_pos (by simp [h])

theorem Mod.askGroup_some (h : m.foIndex num.toNat = some i) : m.askGroup rq num =
    .inr { rq := rq, op := 6, accepted := m.dt, tq := m.tq, left := m.occurrences fun d => d.fgroup == num.toNat, status := stOk } :=
  if_neg (by simp [h])

/-- The operations 1 to 7, on point or group `num` where they name one. -/
def AlarmOperation (rq : Req) (num : BitVec 16) (c : Instr) : Prop :=
  (∃ occ, c = .alarmAck rq num occ) ∨ (∃ mins, c = .alarmShelve rq num mins) ∨ c = .alarmUnshelve rq num ∨ c = .alarmOutOfService rq num ∨
    c = .alarmReturnToService rq num ∨ c = .alarmAckGroup rq num ∨ c = .alarmAckAll rq

/-- What an operation names: a first-out group or a point. -/
def Mod.alarmTarget (m : Mod) (rq : Req) (num : BitVec 16) (c : Instr) : Option Nat :=
  if c = .alarmAckGroup rq num then m.foIndex num.toNat else m.ptIndex num.toNat

section
variable {c : Instr} {s : State}

/-- The command `c` is an `ALARM` request that is refused with `RANGE` where it names nothing that exists. -/
def RefusesUnknown (rq : Req) (num : BitVec 16) (c : Instr) (s : State) : Prop :=
  ∃ f, exec c s = s.run (·.alarmRequest rq f) ∧
    ∀ m : Mod, c ≠ .alarmAckAll rq → m.alarmTarget rq num c = none → f m = .inl stRange

theorem refusesUnknown_of_point (hc : exec c s = s.run (·.alarmPoint rq op num occ mins)) (hg : c ≠ .alarmAckGroup rq num) :
    RefusesUnknown rq num c s := by
  refine ⟨(·.askPoint rq op num occ mins), by simpa only [Mod.alarmPoint_eq] using hc, fun m _ hn => Mod.askPoint_none ?_⟩
  rwa [Mod.alarmTarget, if_neg hg] at hn

theorem refusesUnknown_of_group : RefusesUnknown rq num (.alarmAckGroup rq num) s := by
  refine ⟨(·.askGroup rq num), exec_alarmAckGroup, fun m _ hn => Mod.askGroup_none ?_⟩
  rwa [Mod.alarmTarget, if_pos rfl] at hn

theorem AlarmOperation.refusesUnknown (h : AlarmOperation rq num c) : RefusesUnknown rq num c s := by
  rcases h with ⟨occ, rfl⟩ | ⟨mins, rfl⟩ | rfl | rfl | rfl | rfl | rfl
  iterate 5 exact refusesUnknown_of_point rfl nofun
  · exact refusesUnknown_of_group
  · exact ⟨_, rfl, fun m hall => absurd rfl hall⟩

end
end Asked

/-- A first-out reset is complete with its answer (R267, R579). -/
theorem makes_alarmFoReset {s : State} {rq : Req} {x : Session} {num : BitVec 16} {i : Nat} (h : admitted s.m rq x 6 2 false false)
    (ha : s.m.act = true) (hi : s.m.foIndex num.toNat = some i) :
    Makes (.alarmFoReset rq num) s (commanded ((s.m.touchSession rq.sess).foReset i) rq 6 {} stOk (alarmBody 0 0)) := by
  have named : (s.m.touchSession rq.sess).foIndex num.toNat = some i := hi
  refine makes_commanded rfl h (r := { m := (s.m.touchSession rq.sess).foReset i, body := alarmBody 0 0 }) ?_ rfl
  exact (if_neg (by simp [ha])).trans (by rw [named])

/-! A command that waits alone, at the evaluation of its point (R251, R254, R255, R257, R579). -/

section Alone
variable {c : AlmCmd} {d : PtCfg} {p q : Pt} {occ : BitVec 16} {optime cause st : Nat}

theorem applyCmds_alone (hc : c.left = [(d.pid, occ)]) : applyCmds [c] d p optime = ({ p := p } : PtCmds).take 0 c occ d optime := by
  simp [applyCmds, enumFrom, hc]

/-- Its outcome is `OK`: the point is changed. -/
theorem applyCmds_ok (hc : c.left = [(d.pid, occ)]) (h : c.outcome occ d p optime = (stOk, q, cause)) :
    (applyCmds [c] d p optime).p = q ∧ (applyCmds [c] d p optime).res = [(0, stOk, q.state)] := by
  rw [applyCmds_alone hc, PtCmds.take, h]
  exact ⟨rfl, rfl⟩

/-- Its outcome is another: the point stands. -/
theorem applyCmds_refused (hc : c.left = [(d.pid, occ)]) (h : (c.outcome occ d p optime).1 = st) (hst : st ≠ stOk) :
    (applyCmds [c] d p optime).p = p ∧ (applyCmds [c] d p optime).res = [(0, st, p.state)] := by
  subst h
  rw [applyCmds_alone hc, PtCmds.take, if_pos hst]
  exact ⟨rfl, rfl⟩

/-- The point has an occurrence that may be acknowledged: visible, in state UNACK or RTN_UNACK. -/
structure Pt.Pending (p : Pt) : Prop where
  visible : p.hidden = false
  unacknowledged : p.vis = 1 ∨ p.vis = 3

theorem Pt.Pending.ackCode_ok (h : p.Pending) (ho : p.occ = occ) : p.ackCode occ = stOk := by
  obtain ⟨hv, hu⟩ := h
  have pending : ¬ (p.vis ≠ 1 ∧ p.vis ≠ 3) := by omega
  rw [Pt.ackCode, if_neg (by simp [hv]), if_neg pending, if_neg (not_not.mpr ho)]

theorem Pt.Pending.ackCode_stale (h : p.Pending) (ho : p.occ ≠ occ) : p.ackCode occ = stStale := by
  obtain ⟨hv, hu⟩ := h
  have pending : ¬ (p.vis ≠ 1 ∧ p.vis ≠ 3) := by omega
  rw [Pt.ackCode, if_neg (by simp [hv]), if_neg pending, if_pos ho]

theorem AlmCmd.outcome_ack (hop : c.op = 1) : c.outcome occ d p optime = (p.ackCode occ, p.ack, 3) := by
  simp only [AlmCmd.outcome, hop]

theorem AlmCmd.outcome_shelve (hop : c.op = 2) (hs : d.shelvable = true) (h0 : c.mins ≠ 0) (hmax : c.mins ≤ d.shlvmax) :
    c.outcome occ d p optime = (stOk, { p with shelved := some (optime + c.mins * 60000) }, 4) := by
  have inRange : ¬ (c.mins = 0 ∨ d.shlvmax < c.mins) := by omega
  simp only [AlmCmd.outcome, hop, hs, Bool.not_true, Bool.false_eq_true, if_false, if_neg inRange]

theorem AlmCmd.outcome_unshelve (hop : c.op = 3) (hs : p.shelved.isSome = true) :
    c.outcome occ d p optime = (stOk, ({ p with shelved := none } : Pt).unhide, 5) := by
  simp only [AlmCmd.outcome, hop, hs, if_true]

theorem AlmCmd.outcome_outOfService (hop : c.op = 4) : c.outcome occ d p optime = (stOk, { p with oos := true }, 8) := by
  simp only [AlmCmd.outcome, hop]

theorem AlmCmd.outcome_returnToService (hop : c.op = 5) (ho : p.oos = true) :
    c.outcome occ d p optime = (stOk, ({ p with oos := false } : Pt).unhide, 9) := by
  simp only [AlmCmd.outcome, hop, ho, if_true]

end Alone

/-- Settles O15: a request comes to the case that its conditions name, and a command alone makes of its point what its outcome says. -/
theorem alarmCommandsChangeTheirPoint : Obligations.AlarmCommandsChangeTheirPoint := by
  unfold Obligations.AlarmCommandsChangeTheirPoint
  refine ⟨⟨?requests, ?applied⟩, ?refusals⟩
  case requests =>
    intro s rq x hadm ha hw m
    obtain ⟨h, hr, -, hm, -⟩ := id hadm
    replace hm : s.m.maint = false := by simpa using hm
    refine ⟨fun num i hi => ⟨fun occ => ?ack, fun mins => ?shelve, ?unshelve, ?outOfService, ?returnToService⟩,
      fun num i hi => ⟨?group, ?foReset⟩, ?all⟩
    case ack | shelve | unshelve | outOfService | returnToService =>
      exact makes_alarm_queued h rfl hr hm hw ha (Mod.askPoint_some (m := m) hi)
    case group => exact makes_alarm_queued h exec_alarmAckGroup hr hm hw ha (Mod.askGroup_some (m := m) hi)
    case foReset => exact makes_alarmFoReset hadm ha hi
    case all => exact makes_alarm_queued h rfl hr hm hw ha rfl
  case applied =>
    intro rq at' d p occ mins st optime
    refine ⟨fun hv hu => ⟨fun ho => ?acknowledged, fun ho => ?stale⟩, fun hs h0 hmax => ?shelved, fun hs => ?unshelved, ?outOfService,
      fun ho => ?returned⟩
    case acknowledged => exact applyCmds_ok rfl ((AlmCmd.outcome_ack rfl).trans (by rw [Pt.Pending.ackCode_ok ⟨hv, hu⟩ ho]))
    case stale =>
      exact applyCmds_refused rfl ((congrArg Prod.fst (AlmCmd.outcome_ack rfl)).trans (Pt.Pending.ackCode_stale ⟨hv, hu⟩ ho)) (by decide)
    case shelved => exact applyCmds_ok rfl (AlmCmd.outcome_shelve rfl hs h0 hmax)
    case unshelved => exact applyCmds_ok rfl (AlmCmd.outcome_unshelve rfl hs)
    case outOfService => exact applyCmds_ok rfl (AlmCmd.outcome_outOfService rfl)
    case returned => exact applyCmds_ok rfl (AlmCmd.outcome_returnToService rfl ho)
  case refusals =>
    intro s rq x h m c num hop
    obtain ⟨f, hc, hf⟩ := AlarmOperation.refusesUnknown (s := s) hop
    refine ⟨fun hr => ?role, fun hr => ⟨fun hm => ?maint, fun hm => ⟨fun hw => ?waiting, fun hw => ⟨fun ha => ?notActive,
      fun ha hall hn => ?unknown⟩⟩⟩⟩
    case role => exact makes_alarm_role h hc hr
    case maint => exact makes_alarm_maint h hc hr hm
    case waiting => exact makes_alarm_waiting h hc hr hm hw
    case notActive => exact makes_alarm_notActive h hc hr hm hw ha
    case unknown => exact makes_alarm_refused h hc hr hm hw ha (hf m hall hn)

end Sys2Proof.Machine
end

section
/-! First-out groups: the messages between arbiter and participants, the deadlines, and `EVAL_MAX`. -/

namespace Sys2Proof.Machine

/-! A station message (R28, R269); `f` is what it does to its group. -/

section FoMessage
variable {c : Instr} {s : State} {msg : Bytes} {f : Mod → Nat → Mod} {i : Nat} (hc : exec c s = s.run (·.onFoMsg msg f))
include hc

theorem makes_foMessage {k : Mod} (hl : s.m.live = true) (ha : s.m.act = true) (hi : s.m.foIndex (field msg 1 1) = some i)
    (hf : f s.m i = k) : Makes c s k :=
  makes_of_run hc (by simp only [Mod.onFoMsg, hl, ha, hi, Bool.and_self, if_true, hf])

theorem makes_foMessage_unheard (h : s.m.act = false ∨ s.m.foIndex (field msg 1 1) = none) : Makes c s s.m := by
  refine makes_of_run hc ?_
  rcases h with ha | hi
  · simp only [Mod.onFoMsg, ha, Bool.and_false, Bool.false_eq_true, if_false]
  · simp only [Mod.onFoMsg, hi, ite_self]

/-- A message that would change nothing where it is heard changes nothing elsewhere either. -/
theorem makes_foMessage_idle (hi : s.m.foIndex (field msg 1 1) = some i) (hf : f s.m i = s.m) : Makes c s s.m :=
  makes_of_run hc (by simp only [Mod.onFoMsg, hi, hf, ite_self])

end FoMessage

/-! The arbiter's decision at a participant, and what a participant passes over (R267, R269). -/

section Taken
variable {m : Mod} {i : Nat} {msg : Bytes}

theorem Mod.foTaken_participant (hp : m.foArbiter i = false) (he : BitVec.ofNat 16 (field msg 2 2) = (at_ m.ae.fos i {}).epoch) :
    m.foTaken i msg =
      let w := (field msg 8 2, BitVec.ofNat 32 (field msg 12 4))
      (((m.updFo i fun g => { g with
          state := 2
          winner := some { node := w.1, pid := w.2, pnum := w.2.toNat, tc := dtTicks (BitVec.ofNat 96 (field msg 16 12)), sgran := 0,
                           align := none }
          simul := bitOf (field msg 5 1) 0, partial_ := false, uncertain := bitOf (field msg 5 1) 2,
          nsim := field msg 4 1 % 8, settleAt := none, partialAt := none }).foMarks (field msg 1 1) w (foEntries msg)).trigger 5
        (field msg 1 1) fun _ => true) :=
  if_neg (by simp [hp, he])

theorem Mod.foTaken_passed (h : m.foArbiter i = true ∨ BitVec.ofNat 16 (field msg 2 2) ≠ (at_ m.ae.fos i {}).epoch) :
    m.foTaken i msg = m :=
  if_pos h

end Taken

/-! The deadlines of a group (R267, R268). -/

section Deadline
variable {c : Instr} {s : State} {grp : Fin 256} {n i : Nat} {due : Fo → Option Nat} {partial_ : Bool}

/-- The deadline `due` of group `n` runs out on a module that holds ACT: the group decides, the arbiter or a participant alone. -/
def Mod.foDeadline (m : Mod) (n : Nat) (due : Fo → Option Nat) (partial_ : Bool) : Mod :=
  match m.foIndex n with
  | some i => m.onDue (if m.act then due (at_ m.ae.fos i {}) else none) (·.foDecideNow i partial_)
  | none => m

theorem exec_foSettleExpiry : exec (.foSettleExpiry grp) s = s.run (·.whenLive (·.foDeadline grp Fo.settleAt false)) := rfl

theorem exec_foPartialDecision : exec (.foPartialDecision grp) s = s.run (·.whenLive (·.foDeadline grp Fo.partialAt true)) := rfl

variable (hc : exec c s = s.run (·.whenLive (·.foDeadline n due partial_)))
include hc

theorem makes_foDeadline {d : Nat} (hl : s.m.live = true) (hi : s.m.foIndex n = some i) (ha : s.m.act = true)
    (hd : due (at_ s.m.ae.fos i {}) = some d) : Makes c s ((s.m.to d).foDecideNow i partial_) :=
  makes_of_live hl hc (by simp only [Mod.foDeadline, hi, ha, hd, if_true, Mod.onDue_some])

theorem makes_foDeadline_unknown (hi : s.m.foIndex n = none) : Makes c s s.m :=
  makes_self_of_idle hc (by simp only [Mod.foDeadline, hi])

theorem makes_foDeadline_unarmed (hi : s.m.foIndex n = some i) (h : s.m.act = false ∨ due (at_ s.m.ae.fos i {}) = none) :
    Makes c s s.m := by
  refine makes_self_of_idle hc ?_
  have unarmed : (if s.m.act then due (at_ s.m.ae.fos i {}) else none) = none := by
    rcases h with ha | hd
    · rw [ha]; rfl
    · rw [hd, ite_self]
  simp only [Mod.foDeadline, hi, unarmed, Mod.onDue_none]

end Deadline

/-- Settles O16: a message is heard or passed over, a deadline is armed or not, and `EVAL_MAX` is a read that clears. -/
theorem firstOutMessagesAndDecisions : Obligations.FirstOutMessagesAndDecisions := by
  unfold Obligations.FirstOutMessagesAndDecisions
  constructor
  · intro s hl
    refine ⟨fun msg i ha hi => ⟨fun hp => ⟨?candidate, ?requested⟩, fun hp => ⟨fun he => ?armed, fun he => ?known, fun he => ?decided⟩⟩,
      fun grp i hi => ⟨fun ha => ⟨?settleNoAct, ?partialNoAct⟩, fun d hd ha => ?settle, fun d hd ha => ?partialDecision⟩,
      fun rq x h hm => ?evalMax⟩
    case candidate => exact makes_foMessage rfl hl ha hi (if_neg (by simp [hp]))
    case requested => exact makes_foMessage rfl hl ha hi (if_pos hp)
    case armed => exact makes_foMessage rfl hl ha hi ((if_neg (by simp [hp])).trans (if_pos he))
    case known => exact makes_foMessage rfl hl ha hi ((if_neg (by simp [hp])).trans (if_neg (Int.not_lt.mpr he)))
    case decided => exact makes_foMessage rfl hl ha hi (Mod.foTaken_participant hp he)
    case settleNoAct => exact makes_foDeadline_unarmed exec_foSettleExpiry hi (.inl ha)
    case partialNoAct => exact makes_foDeadline_unarmed exec_foPartialDecision hi (.inl ha)
    case settle => exact makes_foDeadline exec_foSettleExpiry hl hi ha hd
    case partialDecision => exact makes_foDeadline exec_foPartialDecision hl hi ha hd
    case evalMax => exact makes_readClear h rfl hm rfl
  · intro s
    refine ⟨fun msg h => ⟨?candidateUnheard, ?resetUnheard, ?decidedUnheard⟩, fun msg i hi => ⟨fun hp => ?participant, fun h => ?passed⟩,
      fun grp hi => ⟨?settleUnknown, ?partialUnknown⟩, fun grp i hi => ⟨fun hd => ?noSettle, fun hd => ?noPartial⟩⟩
    case candidateUnheard | resetUnheard | decidedUnheard => exact makes_foMessage_unheard rfl h
    case participant => exact makes_foMessage_idle rfl hi (if_pos (by simp [hp]))
    case passed => exact makes_foMessage_idle rfl hi (Mod.foTaken_passed h)
    case settleUnknown => exact makes_foDeadline_unknown exec_foSettleExpiry hi
    case partialUnknown => exact makes_foDeadline_unknown exec_foPartialDecision hi
    case noSettle => exact makes_foDeadline_unarmed exec_foSettleExpiry hi (.inr hd)
    case noPartial => exact makes_foDeadline_unarmed exec_foPartialDecision hi (.inr hd)

end Sys2Proof.Machine
end

section
/-! PTP: which messages belong to the module's own clock, and what each of them comes to by the port's role and the time quality. -/

namespace Sys2Proof.Machine

section Received
variable {m : Mod} {n : Nat} {c : PtpCfg} {h : PtpRx}

/-- A message of the clock's own domain over a transport that the profile knows (R286; log entry 11). -/
abbrev PtpCfg.Owns (c : PtpCfg) (h : PtpRx) : Prop := h.domain = c.domain ∧ ¬ (c.profile = 2 ∧ h.udp = true)

theorem PtpCfg.owns_iff : c.Owns h ↔ h.domain = c.domain ∧ !(c.profile == 2 && h.udp) := by
  simp [PtpCfg.Owns, imp_iff_not_or]

theorem Mod.ptpTakes_own (hc : m.ptpOn n = some c) (ho : c.Owns h) : m.ptpTakes n h = some c := by
  rw [Mod.ptpTakes, hc, Option.bind_some, if_pos (PtpCfg.owns_iff.mp ho)]

theorem Mod.ptpTakes_other (hc : m.ptpOn n = some c) (ho : ¬ c.Owns h) : m.ptpTakes n h = none := by
  rw [Mod.ptpTakes, hc, Option.bind_some, if_neg (mt PtpCfg.owns_iff.mpr ho)]

/-- Passing a message on moves neither the clock nor what runs on which port, so a message is taken or not as it was before. -/
theorem Mod.ptpForward_ptpTakes (m : Mod) (k : Nat) (x : PtpRx) (g : PtpMsg) : (m.ptpForward k x g).ptpTakes n h = m.ptpTakes n h := rfl

/-! A message that is not of the module's own clock changes nothing. -/

theorem Mod.syncCame_other {x : PtpOffset} (ht : m.ptpTakes x.port h = none) : m.syncCame h x = m := by
  simp only [Mod.syncCame, ht]
  cases m.ptp.parent <;> rfl

theorem Mod.announceCame_other {a : Announce} (ht : m.ptpTakes a.port h = none) : m.announceCame h a = m := by
  simp only [Mod.announceCame, ht]

section Other
variable (ht : m.ptpTakes n h = none)
include ht

theorem Mod.delayCame_other (peer request : Bool) (d : Nat) : m.delayCame n h peer request d = m := by
  simp only [Mod.delayCame, ht]

theorem Mod.managementCame_other (get : Bool) : m.managementCame n h get = m := by
  simp only [Mod.managementCame, ht]

end Other

/-! A message of the module's own clock. -/

theorem Mod.syncCame_parent {x : PtpOffset} {a : Announce} (ht : m.ptpTakes x.port h = some c) (hp : m.ptp.parent = some a)
    (ha : a.port = x.port) (hs : a.senderId = h.sender) : m.syncCame h x =
      if m.ptp.quality = .degraded then { m with ptp := { m.ptp with offset := x.offsetNs, pathDelay := x.pathDelay } }
      else m.ptpSync c x.offsetNs x.pathDelay := by
  have parents : ¬ (a.port ≠ x.port ∨ a.senderId ≠ h.sender) := by simp [hs, ha]
  simp only [Mod.syncCame, hp, ht, if_neg parents]

theorem Mod.announceCame_own {a : Announce} (ht : m.ptpTakes a.port h = some c) : m.announceCame h a =
    let m1 := ({ m with ptp := m.ptp.hear a m.mono } : Mod).chooseMaster c
    if m1.ptp.parent = some a then m1.takeUtc a else m1 := by
  simp only [Mod.announceCame, ht]

section Own
variable (ht : m.ptpTakes n h = some c)
include ht

theorem Mod.managementCame_own (get : Bool) :
    m.managementCame n h get = m.sendPtp c n { m.ptpAnswer c h 13 0 0 with refused := !get } none := by
  simp only [Mod.managementCame, ht]

variable {peer request : Bool} {d : Nat}

theorem Mod.delayCame_peerRequest (hf : c.profile ≠ 0) (hp : peer = true) (hr : request = true) : m.delayCame n h peer request d =
    if c.stepMode.getLsbD n then m.sendPtp c n (m.ptpAnswer c h 3 0 h.correction) (some (m.dtAt h.phase))
    else m.sendPtp c n (m.ptpAnswer c h 3 (m.dtAt h.phase) h.correction) none := by
  simp only [Mod.delayCame, ht, hp, hr, if_neg hf, if_true]

theorem Mod.delayCame_peerResponse (hf : c.profile ≠ 0) (hp : peer = true) (hr : request = false) : m.delayCame n h peer request d =
    { m with ptp := { m.ptp with linkDelay := put m.ptp.linkDelay n d, pathDelay := if m.portState n = 9 then d else m.ptp.pathDelay } } := by
  simp only [Mod.delayCame, ht, hp, hr, if_neg hf, if_true, Bool.false_eq_true, if_false]

theorem Mod.delayCame_request_master (hf : c.profile = 0) (hp : peer = false) (hr : request = true) (hs : m.portState n = 6) :
    m.delayCame n h peer request d = m.sendPtp c n (m.ptpAnswer c h 9 (m.dtAt h.phase) h.correction) none := by
  simp only [Mod.delayCame, ht, hp, hr, hf, hs, ne_eq, not_true_eq_false, Bool.false_eq_true, if_false, if_true]

theorem Mod.delayCame_response_slave (hf : c.profile = 0) (hp : peer = false) (hr : request = false) (hs : m.portState n = 9) :
    m.delayCame n h peer request d = { m with ptp := { m.ptp with pathDelay := d } } := by
  simp only [Mod.delayCame, ht, hp, hr, hf, hs, ne_eq, not_true_eq_false, Bool.false_eq_true, if_false, if_true]

/-- A delay mechanism that is not the profile's, or a delay message that the port's role does not take. -/
theorem Mod.delayCame_passed (hx : (c.profile = 0 ↔ peer = true) ∨ peer = false ∧ m.portState n ≠ (if request then 6 else 9)) :
    m.delayCame n h peer request d = m := by
  simp only [Mod.delayCame, ht]
  cases peer
  case true =>
    have mechanism : c.profile = 0 := by simpa using hx
    simp only [mechanism, if_true]
  case false =>
    by_cases hf : c.profile = 0
    · have role : m.portState n ≠ (if request then 6 else 9) := by simpa [hf] using hx
      cases request
      · simp only [hf, ne_eq, not_true_eq_false, Bool.false_eq_true, if_false, if_neg (show ¬ m.portState n = 9 from role)]
      · simp only [hf, ne_eq, not_true_eq_false, Bool.false_eq_true, if_false, if_true, if_neg (show ¬ m.portState n = 6 from role)]
    · simp only [hf, ne_eq, not_false_eq_true, Bool.false_eq_true, if_false, if_true]

end Own
end Received

/-- Settles O17: passing a message on leaves the clock, so a message is taken or not as it was before; one taken comes to the case of its
kind, role and quality. -/
theorem ptpMessagesActByTheModulesRole : Obligations.PtpMessagesActByTheModulesRole := by
  unfold Obligations.PtpMessagesActByTheModulesRole
  intro s
  refine ⟨?messages, fun port c kind hc hs => ?interval, fun c hc hl => ⟨fun d hr hd => ?receipt, fun hq => ?holdover⟩⟩
  case interval => exact makes_of_next rfl (by simp only [hc]; exact if_pos hs)
  case receipt => exact makes_of_next rfl (by simp only [hc, hl, hr, hd, Bool.and_self, if_true, Mod.onDue_some])
  case holdover => exact makes_of_next rfl (by simp only [hc]; exact if_pos (by simp [hl, hq]))
  case messages =>
    intro port c h hc own
    have taken (ho : own) (g : PtpMsg) : (s.m.ptpForward port h g).ptpTakes port h = some c :=
      (Mod.ptpForward_ptpTakes ..).trans (Mod.ptpTakes_own hc ho)
    have passedOver (ho : ¬ own) (g : PtpMsg) : (s.m.ptpForward port h g).ptpTakes port h = none :=
      (Mod.ptpForward_ptpTakes ..).trans (Mod.ptpTakes_other hc ho)
    refine ⟨?sync, ?announce, ?delay, ?management⟩
    case sync =>
      intro a x hp ha hs hx m
      subst hx
      exact ⟨fun ho => makes_of_next rfl (Mod.syncCame_parent (taken ho _) hp ha hs),
        fun ho => makes_of_next rfl (Mod.syncCame_other (passedOver ho _))⟩
    case announce =>
      intro a hh ha m m1
      subst hh ha
      exact ⟨fun ho => makes_of_next rfl (Mod.announceCame_own (taken ho _)),
        fun ho => makes_of_next rfl (Mod.announceCame_other (passedOver ho _))⟩
    case delay =>
      intro peer request d m rx
      refine ⟨fun ho => ?other, fun ho hf hp hr => ?peerRequest, fun ho hf hp hr => ?peerResponse, fun ho hf hp hr hs => ?request,
        fun ho hf hp hr hs => ?response, fun ho hx => ?passed⟩
      case other => exact makes_of_next rfl (Mod.delayCame_other (passedOver ho _) ..)
      case peerRequest => exact makes_of_next rfl (Mod.delayCame_peerRequest (taken ho _) hf hp hr)
      case peerResponse => exact makes_of_next rfl (Mod.delayCame_peerResponse (taken ho _) hf hp hr)
      case request => exact makes_of_next rfl (Mod.delayCame_request_master (taken ho _) hf hp hr hs)
      case response => exact makes_of_next rfl (Mod.delayCame_response_slave (taken ho _) hf hp hr hs)
      case passed => exact makes_of_next rfl (Mod.delayCame_passed (taken ho _) hx)
    case management =>
      intro get m
      exact ⟨fun ho => makes_of_next rfl (Mod.managementCame_own (taken ho _) get),
        fun ho => makes_of_next rfl (Mod.managementCame_other (passedOver ho _) get)⟩

end Sys2Proof.Machine
end

section
/-! The time commands, the end of a slew and the leap second. -/

namespace Sys2Proof.Machine

/-- The parent flags its UTC offset valid, and so owns the module's (R285). -/
def Ptp.utcOwned (p : Ptp) : Bool := match p.parent with | some a => a.utcValid | none => false

theorem Ptp.utcOwned_iff {p : Ptp} : p.utcOwned = true ↔ ∃ a, p.parent = some a ∧ a.utcValid = true := by
  cases hp : p.parent <;> simp [Ptp.utcOwned, hp]

/-- What `UTC_OFFSET` answers, by whether the parent owns the offset. -/
def Mod.utcOffsetCmd (m : Mod) (secs : BitVec 16) : CmdAns :=
  if m.ptp.utcOwned then { m := m, status := stPtpOwns }
  else
    { m := { m with ptp := { m.ptp with utc := secs.toInt, utcValid := true },
                    bkp := if m.bkp.locked then m.bkp else { m.bkp with utcOffset := secs.toInt } } }

theorem exec_utcOffset (rq : Req) (secs : BitVec 16) (s : State) :
    exec (.utcOffset rq secs) s = s.run fun m => m.command rq 7 3 false false fun _ m => m.utcOffsetCmd secs := rfl

/-- Settles O18: a time command comes to the first of its checks that fails, or to its effect; a slew and a leap end at their instant. -/
theorem timeCommandsSetSlewAndCarryUtc : Obligations.TimeCommandsSetSlewAndCarryUtc := by
  unfold Obligations.TimeCommandsSetSlewAndCarryUtc
  constructor
  · intro s
    refine ⟨fun rq x h => ⟨fun v hv hq => ?set, fun ns hn hq => ?shift, fun secs hp => ?utc⟩,
      fun hl => ⟨fun k hs => ?slewed, fun hp => ?leap⟩⟩
    case set =>
      have own : ¬ (s.m.ptp.quality ≠ .free ∧ s.m.ptp.quality ≠ .degraded) := by simpa [or_iff_not_imp_left] using hq
      exact makes_commanded_done rfl h ((if_neg (by simp [hv])).trans (if_neg own)) (by decide)
    case shift => exact makes_commanded_done rfl h ((if_neg (Nat.not_lt.mpr hn)).trans (if_neg (not_not.mpr hq))) (by decide)
    case utc =>
      have own : ¬ s.m.ptp.utcOwned = true := by simpa [Ptp.utcOwned_iff] using hp
      exact makes_commanded_done (exec_utcOffset ..) h (if_neg own) (by decide)
    case slewed => exact makes_of_live hl rfl (by simp only [hs])
    case leap => exact makes_of_live hl rfl (if_neg hp)
  · intro s
    refine ⟨fun rq x h => ⟨fun v => ⟨fun hv => ?noTime, fun hv hf hd => ?setOwned⟩, fun ns => ⟨fun hn => ?tooFar,
      fun hn hq => ?shiftOwned⟩, fun secs a ha hv => ?utcOwned⟩, fun hs => ?noShift, fun hp => ?noLeap⟩
    case noTime => exact refuses_of rfl h (if_pos (by simp [hv])) (by decide)
    case setOwned => exact refuses_of rfl h ((if_neg (by simp [hv])).trans (if_pos ⟨hf, hd⟩)) (by decide)
    case tooFar => exact refuses_of rfl h (if_pos hn) (by decide)
    case shiftOwned => exact refuses_of rfl h ((if_neg (Nat.not_lt.mpr hn)).trans (if_pos hq)) (by decide)
    case utcOwned => exact refuses_of (exec_utcOffset ..) h (if_pos (Ptp.utcOwned_iff.mpr ⟨a, ha, hv⟩)) (by decide)
    case noShift => exact makes_self_of_idle rfl (by simp only [hs])
    case noLeap => exact makes_self_of_idle rfl (if_pos hp)

end Sys2Proof.Machine
end

section
/-! Timed outputs, capture units, and act-at-time messages in the order of R306. -/

namespace Sys2Proof.Machine

/-! Units that have nothing to do (R292, R302). -/

section Idle
variable {s : State} {u : Fin 32}

theorem makes_touFire_idle (h : s.m.touCfg u = none ∨ (at_ s.m.tous u {}).armed = false) : Makes (.touFire u) s s.m := by
  refine makes_self_of_idle rfl ?_
  rcases h with hc | ha
  · simp only [hc]
  · simp only [ha, Bool.false_eq_true, if_false]
    cases s.m.touCfg u <;> rfl

theorem makes_tcuCapture_noSource (rising : Bool) (phase : Fin 4) (h : ∀ c, s.m.tcuCfg u = some c → c.src = 0xFF) :
    Makes (.tcuCapture u rising phase) s s.m := by
  refine makes_self_of_idle rfl ?_
  cases hc : s.m.tcuCfg u with
  | none => rfl
  | some c => exact if_pos (h c hc)

end Idle

/-! An act-at-time message, check by check (R306). -/

section ActAt
variable {m : Mod} {msg : Bytes}

/-- The message is for this node, or for every node (R304). -/
abbrev Mod.ActHere (m : Mod) (msg : Bytes) : Prop := (parseActMsg msg).dest = 0 ∨ (parseActMsg msg).dest = m.cfg.ident.node

/-- Its length is right, a key is there, and its tag is that of the key (R304). -/
abbrev Mod.ActAuthentic (m : Mod) (msg : Bytes) : Prop :=
  msg.length = 40 ∧ m.cfg.cred.actkey.all (· == 0) = false ∧ slice msg 32 8 = actTag m.cfg.cred.actkey (slice msg 0 32)

/-- The module that has counted a message as received. -/
abbrev Mod.actCounted (m : Mod) : Mod := { m with aat := { m.aat with rx := m.aat.rx + 1 } }

/-- The senders once this one is the most recently heard (R307). -/
abbrev Mod.actHeard (m : Mod) (msg : Bytes) : Aat := m.actCounted.aat.heard (parseActMsg msg).src (parseActMsg msg).iid

/-- The sender has sent this number and time before (R307). -/
abbrev Mod.actSeen (m : Mod) (msg : Bytes) : Bool :=
  ((m.actHeard msg).pairs (parseActMsg msg).src (parseActMsg msg).iid).contains ((parseActMsg msg).seq, (parseActMsg msg).t.toNat)

/-- The units that its action names (R305). -/
abbrev Mod.actNamed (m : Mod) (msg : Bytes) : List ActionCfg := m.cfg.netc.acts.filter fun e => e.action == (parseActMsg msg).action

theorem Mod.actAtMessage_elsewhere (h : ¬ m.ActHere msg) : m.actAtMessage msg = m := if_pos (not_or.mp h)

section Here
variable (here : m.ActHere msg)
include here

theorem Mod.ActHere.not_elsewhere : ¬ ((parseActMsg msg).dest ≠ 0 ∧ (parseActMsg msg).dest ≠ m.cfg.ident.node) :=
  fun h => not_or.mpr h here

theorem Mod.actAtMessage_refused (h : ¬ m.ActAuthentic msg) : m.actAtMessage msg =
    { m.actCounted with aat := { m.actCounted.aat with tagFail := m.actCounted.aat.tagFail + 1 } } :=
  (if_neg here.not_elsewhere).trans (if_pos (by simpa only [not_and_or, Bool.not_eq_false] using h))

section Authentic
variable (auth : m.ActAuthentic msg)
include auth

omit here in
theorem Mod.ActAuthentic.not_refused : ¬ (msg.length ≠ 40 ∨ m.cfg.cred.actkey.all (· == 0) = true ∨
    slice msg 32 8 ≠ actTag m.cfg.cred.actkey (slice msg 0 32)) := by
  obtain ⟨hlen, hkey, htag⟩ := auth
  rw [hkey]
  simp [hlen, htag]

theorem Mod.actAtMessage_noTime (ht : dtValid (parseActMsg msg).t = false) :
    m.actAtMessage msg = { m.actCounted with aat := m.actHeard msg } :=
  (if_neg here.not_elsewhere).trans ((if_neg auth.not_refused).trans (if_pos (by simp [ht])))

variable (ht : dtValid (parseActMsg msg).t = true)
include ht

theorem Mod.actAtMessage_duplicate (hs : m.actSeen msg = true) : m.actAtMessage msg =
    { m.actCounted with aat := { m.actHeard msg with duplicate := (m.actHeard msg).duplicate + 1 } } :=
  (if_neg here.not_elsewhere).trans ((if_neg auth.not_refused).trans ((if_neg (by simp [ht])).trans (if_pos hs)))

/-- A new message goes by what its action names. -/
theorem Mod.actAtMessage_new (hs : m.actSeen msg = false) : m.actAtMessage msg =
    let heard := m.actHeard msg
    let known := heard.remember (parseActMsg msg).src (parseActMsg msg).iid (parseActMsg msg).seq (parseActMsg msg).t.toNat
    if m.actNamed msg = [] then { m.actCounted with aat := { heard with unmapped := heard.unmapped + 1 } }
    else (m.actNamed msg).foldl (fun k e => k.aatArm (parseActMsg msg).t e)
      { m.actCounted with aat := { known with accepted := known.accepted + 1 } } := by
  refine (if_neg here.not_elsewhere).trans ((if_neg auth.not_refused).trans ((if_neg (by simp [ht])).trans
    ((if_neg (Bool.eq_false_iff.mp hs)).trans ?_)))
  cases hn : m.actNamed msg with
  | nil => simp only [hn, if_true]
  | cons e es => simp only [hn, reduceCtorEq, if_false]

end Authentic
end Here
end ActAt

/-- Settles O19: a unit acts by its record and state, and a message comes to the first check of R306 that decides it. -/
theorem timedOutputsCapturesAndActions : Obligations.TimedOutputsCapturesAndActions := by
  unfold Obligations.TimedOutputsCapturesAndActions
  constructor
  · intro s hl
    refine ⟨fun u c hc => ⟨fun ha => ?fire, fun d hd => ?pulse⟩, fun u c hc hs rising phase => ?capture, fun rq x u h hm => ?pop,
      fun msg hr => ?act⟩
    case fire => exact makes_of_live hl rfl (by simp only [hc, ha, if_true])
    case pulse =>
      have named (k : Mod) (n : Nat) (f : Tou → Tou) (hk : k.touCfg u = some c) : ((k.pass n).updTou u f).touCfg u = some c := hk
      exact makes_of_live hl rfl (by simp only [hd, named _ _ _ hc])
    case capture => exact makes_of_live hl rfl (by simp only [hc, if_neg hs])
    case pop => exact makes_readClear h rfl hm rfl
    case act =>
      intro a k here authentic rx from_ seen known named
      have acts {t : Mod} (ht : s.m.actAtMessage msg = t) : Makes (.actAtMessage msg) s t :=
        makes_of_next rfl ((if_pos (by simp [hl, hr])).trans ht)
      exact ⟨fun h => acts (Mod.actAtMessage_elsewhere h), fun h hn => acts (Mod.actAtMessage_refused h hn),
        fun h ha ht => acts (Mod.actAtMessage_noTime h ha ht), fun h ha ht hs => acts (Mod.actAtMessage_duplicate h ha ht hs),
        fun h ha ht hs hn => acts ((Mod.actAtMessage_new h ha ht hs).trans (if_pos hn)),
        fun h ha ht hs hn => acts ((Mod.actAtMessage_new h ha ht hs).trans (if_neg hn))⟩
  · intro s
    refine ⟨fun u => makes_touFire_idle, fun u hd => ?noPulse, fun u rising phase => makes_tcuCapture_noSource rising phase,
      fun msg hr => ?notRunning⟩
    case noPulse => exact makes_self_of_idle rfl (by simp only [hd])
    case notRunning => exact makes_of_next rfl (if_neg (by simp [hr]))

end Sys2Proof.Machine
end

section
/-! Frames that launch, arrive and are answered, and the gates and links of the ports. -/

namespace Sys2Proof.Machine

/-! The head of a launch queue (R296, R297). -/

section Launch
variable {m : Mod} {p q : Nat}

theorem Mod.launchHead_idle (h : (m.eth.head p q).bind (·.launch) = none) : m.launchHead p q = m := by
  rw [Option.bind_eq_none_iff] at h
  cases hh : m.eth.head p q with
  | none => simp only [Mod.launchHead, hh]
  | some f => simp only [Mod.launchHead, hh, h f hh]

section Armed
variable {f : PoolFrame} {t : BitVec 64} (hh : m.eth.head p q = some f) (ht : f.launch = some t)
include hh ht

theorem Mod.launchHead_late (hd : shortDiff t m.short < 0) : m.launchHead p q = (m.toNow (m.unitsOfShort t)).kick p := by
  have late : ¬ 0 ≤ shortDiff t m.short := by omega
  simp only [Mod.launchHead, hh, ht, late, decide_false, Bool.false_and, Bool.false_eq_true, if_false]

/-- At its launch time the head is no late frame any more, and one whose gate is closed is counted. -/
theorem Mod.launchHead_due (hd : 0 ≤ shortDiff t m.short) : m.launchHead p q =
    let m1 := m.toNow (m.unitsOfShort t)
    let m2 : Mod := { m1 with eth := { m1.eth with pool := Eth.launched p q m1.eth.pool } }
    if gateFits m1.cfg.netc.gates f ((at_ m1.eth.ports p {}).speed == 2) m1.tb.now = true then m2.kick p
    else (m2.updCnt p fun c => { c with launchGated := c.launchGated + 1 }).kick p := by
  simp only [Mod.launchHead, hh, ht, hd, decide_true, Bool.true_and, if_true, Bool.not_eq_true', Mod.updCnt]
  split
  case isTrue closed => rw [if_neg (Bool.eq_false_iff.mp closed)]
  case isFalse opened => rw [if_pos (eq_true_of_ne_false opened)]

end Armed

/-- A port without a gate list has no interval to end (R398). -/
theorem Mod.gateNext_none (h : (m.cfg.netc.gates.find? fun g => g.port == p) = none) : m.gateNext p = m := by
  simp only [Mod.gateNext, h]

end Launch

/-! An address that the module answers for, and how often (R393). -/

section Answers
variable {m : Mod} {p : Nat} {ip : BitVec 32} {asker mac : BitVec 48}

theorem Mod.icmpAnswer_other (h : m.ownMac p ip = none) : m.icmpAnswer p ip asker = m := by
  simp only [Mod.icmpAnswer, h]

variable (h : m.ownMac p ip = some mac)
include h

theorem Mod.icmpAnswer_own (hr : m.icmpRecent.length < 10) : m.icmpAnswer p ip asker =
    ({ m with eth := { m.eth with icmp := m.icmpRecent ++ [m.mono] } } : Mod).placeOn [p] 2 60 (.icmp ip mac asker) := by
  simp only [Mod.icmpAnswer, h, if_pos hr]

theorem Mod.icmpAnswer_tooOften (hr : 10 ≤ m.icmpRecent.length) : m.icmpAnswer p ip asker = m := by
  simp only [Mod.icmpAnswer, h, if_neg (Nat.not_lt.mpr hr)]

end Answers

/-! A received frame, check by check (R391). -/

section Received
variable {m : Mod} {f : RxFrame}

theorem Mod.frameIn_noLink (hl : (at_ m.eth.ports f.port {}).link = false) : m.frameIn f = m := if_pos ((Bool.not_eq_true' _).mpr hl)

section Link
variable (hl : (at_ m.eth.ports f.port {}).link = true)
include hl

theorem link_not_down : ¬ (!(at_ m.eth.ports f.port {}).link) = true := by rw [hl]; exact Bool.false_ne_true

theorem Mod.frameIn_badFcs (hf : f.fcsOk = false) : m.frameIn f = m.updCnt f.port fun c => { c with rxFcs := c.rxFcs + 1 } :=
  (if_neg (link_not_down hl)).trans (if_pos (by simp [hf]))

theorem Mod.frameIn_tooLong (hf : f.fcsOk = true) (hn : m.maxFrame f.port < f.len) :
    m.frameIn f = m.updCnt f.port fun c => { c with rxOversize := c.rxOversize + 1 } :=
  (if_neg (link_not_down hl)).trans ((if_neg (by simp [hf])).trans (if_pos hn))

theorem Mod.frameIn_good (hf : f.fcsOk = true) (hn : f.len ≤ m.maxFrame f.port) : m.frameIn f = m.takeFrame f :=
  (if_neg (link_not_down hl)).trans ((if_neg (by simp [hf])).trans (if_neg (Nat.not_lt.mpr hn)))

end Link
end Received

/-- The guard of `PORT_LINK_CHANGE` (R424, R502). -/
theorem linkChange_guard_iff {on testing fast : Bool} :
    (on && !testing && !fast) = true ↔ on = true ∧ testing = false ∧ fast = false := by simp [and_assoc]

/-- Settles O38: each is an event of a live module that comes to the case its conditions name. -/
theorem ethernetFramesLaunchGateAndArrive : Obligations.EthernetFramesLaunchGateAndArrive := by
  unfold Obligations.EthernetFramesLaunchGateAndArrive
  intro s hl m
  refine ⟨fun p q => ⟨fun h => ?noLaunch, fun f t hh ht => ?launch⟩,
    fun p => ⟨?complete, ?gate, Mod.gateNext_none, fun ip asker => ⟨fun mac ho => ⟨?arp, fun hr => ?icmp, fun hr => ?icmpTooOften⟩,
      fun ho => ⟨?arpOther, ?icmpOther⟩⟩, fun up speed => ⟨fun hp ht hs => ?link, fun h => ?noLink⟩⟩,
    fun f => ?receive, fun hp => ?single, fun hp => ?redundant⟩
  case noLaunch => exact makes_of_live hl rfl (Mod.launchHead_idle h)
  case launch =>
    exact ⟨fun hd => makes_of_live hl rfl (Mod.launchHead_late hh ht hd),
      fun hd => ⟨fun ho => makes_of_live hl rfl ((Mod.launchHead_due hh ht hd).trans (if_pos ho)),
        fun ho => makes_of_live hl rfl ((Mod.launchHead_due hh ht hd).trans (if_neg (Bool.eq_false_iff.mp ho)))⟩⟩
  case complete | gate => exact makes_of_live hl rfl rfl
  case arp | arpOther => exact makes_of_live hl rfl (by rw [show s.m.ownMac p ip = _ from ho])
  case icmp => exact makes_of_live hl rfl (Mod.icmpAnswer_own ho hr)
  case icmpTooOften => exact makes_of_live hl rfl (Mod.icmpAnswer_tooOften ho hr)
  case icmpOther => exact makes_of_live hl rfl (Mod.icmpAnswer_other ho)
  case link => exact makes_of_live hl rfl (if_pos (linkChange_guard_iff.mpr ⟨hp, ht, hs⟩))
  case noLink =>
    refine makes_of_live hl rfl (if_neg fun hg => ?_)
    obtain ⟨hp, ht, hs⟩ := linkChange_guard_iff.mp hg
    rcases h with h | h | h
    · exact absurd (hp.symm.trans h) nofun
    · exact absurd (ht.symm.trans h) nofun
    · exact absurd (hs.symm.trans h) nofun
  case receive =>
    exact ⟨fun h => makes_of_live hl rfl (Mod.frameIn_noLink h), fun h hf => makes_of_live hl rfl (Mod.frameIn_badFcs h hf),
      fun h hf hn => makes_of_live hl rfl (Mod.frameIn_tooLong h hf hn), fun h hf hn => makes_of_live hl rfl (Mod.frameIn_good h hf hn)⟩
  case single => exact makes_of_live hl rfl (if_pos hp)
  case redundant => exact makes_of_live hl rfl (if_neg hp)

end Sys2Proof.Machine
end

section
/-! SUPPORT. What is written into a field of a bell frame or of a heartbeat is what is read from it (R326, R327). -/

namespace Sys2Proof.Machine

/-! Fields of a string of bytes (R8). -/

@[simp] theorem length_natLe (n x : Nat) : (natLe n x).length = n := by
  induction n generalizing x with
  | zero => rfl
  | succ n ih => simp [natLe, ih]

/-- Bytes spell the number that they were made from, cut to their width. -/
@[simp] theorem leNat_natLe (n x : Nat) : leNat (natLe n x) = x % 256 ^ n := by
  induction n generalizing x with
  | zero => simp [natLe, leNat, Nat.mod_one]
  | succ n ih => simp [natLe, leNat, ih, Nat.pow_succ', Nat.mod_mul]

/-- A field behind a first part is a field of the rest. -/
theorem field_append_right {p : Bytes} {off : Nat} (h : p.length ≤ off) (q : Bytes) (n : Nat) :
    field (p ++ q) off n = field q (off - p.length) n := by
  simp [field, slice, List.drop_append, List.drop_eq_nil_of_le h]

theorem field_natLe_skip {k off : Nat} (h : k ≤ off) (x n : Nat) (q : Bytes) : field (natLe k x ++ q) off n = field q (off - k) n := by
  rw [field_append_right (by simpa using h), length_natLe]

theorem field_cons_skip {off : Nat} (h : 1 ≤ off) (a : Byte) (n : Nat) (q : Bytes) : field (a :: q) off n = field q (off - 1) n :=
  field_append_right (p := [a]) h q n

@[simp] theorem field_cons_byte (a : Byte) (q : Bytes) : field (a :: q) 0 1 = a.toNat := by simp [field, slice, leNat]

@[simp] theorem field_natLe_here (n x : Nat) (q : Bytes) : field (natLe n x ++ q) 0 n = x % 256 ^ n := by
  simp [field, slice]

/-- Word `i` of a row of 16-bit words. -/
theorem field_words (l : List (BitVec 16)) (q : Bytes) {i : Nat} (h : i < l.length) :
    field ((l.map fun a => natLe 2 a.toNat).flatten ++ q) (2 * i) 2 = l[i].toNat := by
  induction l generalizing i with
  | nil => exact absurd h (Nat.not_lt_zero _)
  | cons a l ih =>
    rw [List.map_cons, List.flatten_cons, List.append_assoc]
    cases i with
    | zero => exact (field_natLe_here ..).trans (Nat.mod_eq_of_lt a.isLt)
    | succ i => rw [field_natLe_skip (by omega)]; exact ih (Nat.lt_of_succ_lt_succ h)

/-- Bit `i` of packed flags is flag `i`. -/
@[simp] theorem bitOf_packBits (l : List Bool) (i : Nat) : bitOf (packBits l) i = l.getD i false := by
  induction l generalizing i with
  | nil => simp [packBits, bitOf]
  | cons b l ih =>
    cases i with
    | zero => cases b <;> simp [packBits, bitOf, b2n, Nat.add_mod]
    | succ i =>
      rw [List.getD_cons_succ, ← ih, bitOf, bitOf, packBits, Nat.pow_succ', ← Nat.div_div_eq_div_mul]
      congr 3
      cases b <;> simp [b2n]
      omega

theorem packBits_lt (l : List Bool) : packBits l < 2 ^ l.length := by
  induction l with
  | nil => decide
  | cons b l ih => cases b <;> simp [packBits, b2n, Nat.pow_succ] <;> omega

/-! The checks stay within their width (R44, R327). -/

theorem crcBits_lt {w poly : Nat} (hp : poly < 2 ^ w) (k : Nat) {r : Nat} (hr : r < 2 ^ w) : crcBits poly k r < 2 ^ w := by
  induction k generalizing r with
  | zero => exact hr
  | succ k ih =>
    have hh : r / 2 < 2 ^ w := lt_of_le_of_lt (Nat.div_le_self r 2) hr
    refine ih ?_
    split
    · exact Nat.xor_lt_two_pow hh hp
    · exact hh

theorem crc32Reg_lt (b : Bytes) {r : Nat} (hr : r < 2 ^ 32) : crc32Reg r b < 2 ^ 32 := by
  induction b generalizing r with
  | nil => exact hr
  | cons a t ih => exact ih (crcBits_lt (by decide) 8 (Nat.xor_lt_two_pow hr (lt_trans a.isLt (by decide))))

theorem crc32_lt (b : Bytes) : crc32 b < 2 ^ 32 := Nat.xor_lt_two_pow (crc32Reg_lt b (by decide)) (by decide)

theorem crc6_lt (n v : Nat) {c : Nat} (hc : c < 2 ^ 6) : crc6 n v c < 2 ^ 6 := by
  induction n generalizing c with
  | zero => exact hc
  | succ n ih =>
    refine ih (Nat.xor_lt_two_pow (Nat.mod_lt _ (by decide)) ?_)
    split <;> decide

/-! Bell frames (R326, R328). -/

section BellFrame
variable (b : Bell)

theorem Bell.length_head : b.head.length = 60 := by simp [Bell.head, List.range_succ]

theorem Bell.length_bytes : b.bytes.length = 64 := by simp [Bell.bytes, b.length_head]

theorem Bell.take_bytes : b.bytes.take 60 = b.head := List.take_left' b.length_head

theorem Bell.drop_bytes : b.bytes.drop 60 = natLe 4 (crc32 b.head) := List.drop_left' b.length_head

/-- The stored check is that of the first 60 bytes. -/
theorem Bell.leNat_drop_bytes : leNat (b.bytes.drop 60) = crc32 (b.bytes.take 60) := by
  rw [b.take_bytes, b.drop_bytes, leNat_natLe]
  exact Nat.mod_eq_of_lt (crc32_lt b.head)

theorem staged_eq {l : List Q15} (h : l.length = 8) : (List.range 8).map (fun i => at_ l i 0) = l :=
  List.ext_getElem (by simp [h]) fun i _ hi => by simp [at_, hi]

/-- The frame as a row of fields. -/
theorem Bell.bytes_eq (h : b.aostage.length = 8) : b.bytes =
    1 :: 1 :: BitVec.ofNat 8 b.role :: BitVec.ofNat 8 (packBits [b.claiming, b.act, b.release, b.fit, b.home, b.revertWait]) ::
      (natLe 4 b.seq.toNat ++ (natLe 8 b.health.toNat ++ (natLe 1 b.score ++ (natLe 1 b.tq ++ (natLe 1 b.peerline ++ 0 ::
        (natLe 4 b.shseq.toNat ++ (natLe 8 b.tsend.toNat ++ (natLe 4 b.icrc.toNat ++ (natLe 4 b.fwmain.toNat ++
          ((b.aostage.map fun a => natLe 2 a.toNat).flatten ++ (natLe 4 0 ++ natLe 4 (crc32 b.head)))))))))))) := by
  have hw : (List.range 8).map (fun i => natLe 2 (at_ b.aostage i 0).toNat) = b.aostage.map fun a => natLe 2 a.toNat := by
    conv_rhs => rw [← staged_eq h, List.map_map]
    rfl
  rw [Bell.bytes, Bell.head, hw]
  simp only [List.append_assoc, List.cons_append, List.nil_append]

theorem Bell.field_stage (h : b.aostage.length = 8) {i : Nat} (hi : i < b.aostage.length) :
    field b.bytes (40 + 2 * i) 2 = b.aostage[i].toNat := by
  rw [b.bytes_eq h, ← field_words b.aostage _ hi]
  simp (disch := omega) only [field_cons_skip, field_natLe_skip]
  congr 1
  omega

/-- A bell that comes is read as it was sent. -/
theorem parseBell_bytes (hr : b.role < 256) (hs : b.score < 256) (ht : b.tq < 256) (hp : b.peerline < 256)
    (ha : b.aostage.length = 8) : parseBell b.bytes = some b := by
  have hcrc : field b.bytes 60 4 = crc32 (slice b.bytes 0 60) := by
    rw [field, slice, slice, List.drop_zero, ← b.leNat_drop_bytes, List.take_of_length_le (by simp [b.length_bytes])]
  have hstage : (List.range 8).map (fun i => BitVec.ofNat 16 (field b.bytes (40 + 2 * i) 2)) = b.aostage :=
    List.ext_getElem (by simp [ha]) fun i _ hi => by simp [b.field_stage ha hi]
  have hflags : packBits [b.claiming, b.act, b.release, b.fit, b.home, b.revertWait] % 256 =
      packBits [b.claiming, b.act, b.release, b.fit, b.home, b.revertWait] :=
    Nat.mod_eq_of_lt (lt_trans (packBits_lt _) (by simp))
  have hhead : field b.bytes 0 1 = 1 := by rw [b.bytes_eq ha]; exact field_cons_byte ..
  rw [parseBell, if_pos ⟨b.length_bytes, hcrc, hhead⟩, hstage, b.bytes_eq ha]
  simp (disch := omega) only [field_cons_skip, field_natLe_skip, Nat.reduceSub, field_natLe_here, Nat.mod_eq_of_lt]
  simp [hflags, Nat.mod_eq_of_lt, hr]

theorem parseBell_unsound {f : Bytes} (h : f.length ≠ 64 ∨ leNat ((f.drop 60).take 4) ≠ crc32 (f.take 60)) : parseBell f = none :=
  if_neg fun ⟨hl, hc, _⟩ => h.elim (· hl) (· hc)

end BellFrame

/-! Heartbeats (R327, R328). -/

section Heartbeat
variable {seq flags : Nat}

theorem heartbeatBits_toNat (hs : seq < 256) (hf : flags < 64) :
    (heartbeatBits seq flags).toNat = (seq * 64 + flags) * 64 + crc6 14 (seq * 64 + flags) 0 := by
  have hc := crc6_lt 14 (seq * 64 + flags) (c := 0) (by decide)
  rw [heartbeatBits, Nat.mod_eq_of_lt hs, Nat.mod_eq_of_lt hf, BitVec.toNat_ofNat]
  omega

theorem heartbeatBits_front (hs : seq < 256) (hf : flags < 64) : (heartbeatBits seq flags).toNat / 64 = seq * 64 + flags := by
  have hc := crc6_lt 14 (seq * 64 + flags) (c := 0) (by decide)
  rw [heartbeatBits_toNat hs hf]
  omega

theorem heartbeatBits_check (hs : seq < 256) (hf : flags < 64) :
    (heartbeatBits seq flags).toNat % 64 = crc6 14 (seq * 64 + flags) 0 := by
  have hc := crc6_lt 14 (seq * 64 + flags) (c := 0) (by decide)
  rw [heartbeatBits_toNat hs hf]
  omega

theorem parseHeartbeat_heartbeatBits (hs : seq < 256) (hf : flags < 64) :
    parseHeartbeat (heartbeatBits seq flags) = some (seq, flags) := by
  have hv : (seq * 64 + flags) / 64 = seq ∧ (seq * 64 + flags) % 64 = flags := by omega
  rw [parseHeartbeat, heartbeatBits_front hs hf, if_pos (heartbeatBits_check hs hf).symm, hv.1, hv.2]

theorem parseHeartbeat_unsound {h : BitVec 20} (hc : h.toNat % 64 ≠ crc6 14 (h.toNat / 64) 0) : parseHeartbeat h = none :=
  if_neg fun e => hc e.symm

end Heartbeat

/-- Settles O60: each field of a frame is read where it was written, and the check stays within its width. -/
theorem bellAndHeartbeatFramesReadBack : Obligations.BellAndHeartbeatFramesReadBack := by
  unfold Obligations.BellAndHeartbeatFramesReadBack
  refine ⟨fun b hr hs ht hp ha => ⟨b.length_bytes, b.leNat_drop_bytes, parseBell_bytes b hr hs ht hp ha⟩,
    fun seq flags hs hf => ⟨heartbeatBits_front hs hf, parseHeartbeat_heartbeatBits hs hf⟩,
    fun f => parseBell_unsound, fun h => parseHeartbeat_unsound⟩

end Sys2Proof.Machine
end

section
/-! Bells and heartbeats, their paths, `HELLO`, the batches of the shadow traffic, resynchronisation and the lanes (R320 to R344). -/

namespace Sys2Proof.Machine

section Heard
variable {m : Mod}

theorem Mod.linkUp_iff : m.linkUp = true ↔ m.tan.lane0 = true ∨ m.tan.lane1 = true := by simp [Mod.linkUp]

theorem Mod.linkUp_eq_false_iff : m.linkUp = false ↔ m.tan.lane0 = false ∧ m.tan.lane1 = false := by simp [Mod.linkUp]

theorem Mod.heartbeatCame_wrong {bits : BitVec 20} (h : parseHeartbeat bits = none) :
    m.heartbeatCame bits = m.updTan fun t => { t with hbCrcErr := t.hbCrcErr + 1 } := by simp only [Mod.heartbeatCame, h]

/-- The partner's last heartbeat showed `RELEASE` (R327). -/
def Mod.releaseShown (m : Mod) : Bool := match m.tan.hbFlags with | some f => f.getLsbD 1 | none => false

theorem Mod.heartbeatCame_heard {bits : BitVec 20} {seq fl : Nat} (h : parseHeartbeat bits = some (seq, fl)) :
    m.heartbeatCame bits = (m.updTan fun t => { t with
      hb := t.hb.valid 8 seq m.mono t.trec.loss
      hbFlags := some (BitVec.ofNat 4 (fl / 4))
      ilk := { t.ilk with silenceSpent := false } }).releaseHeard (bitOf fl 3) m.releaseShown := by
  simp only [Mod.heartbeatCame, h]
  rfl

/-- The `BSEQ` of a batch is the one after the last received, or any where none is known (R333). -/
theorem Mod.bseq_follows_iff {b : BitVec 32} : (match m.tan.sh.rxSeq with | some q => b != q + 1 | none => false) = false ↔
    ∀ q, m.tan.sh.rxSeq = some q → b = q + 1 := by
  cases m.tan.sh.rxSeq <;> simp

theorem Mod.takes_not_untaken (h : m.takesBatches = true) : ¬ (!m.takesBatches) = true := by simp [h]

end Heard

section Events
variable {s : State} (hl : s.m.live = true)
include hl

theorem makes_bellFrame_heard {frame : Bytes} {b : Bell} (hu : s.m.linkUp = true) (hb : tlBell frame = some b) :
    Makes (.bellFrame frame) s (s.m.bellCame b).ltJudge := makes_of_live hl rfl (by simp only [hu, hb])

theorem makes_bellFrame_ignored {frame : Bytes} (h : s.m.linkUp = false ∨ tlBell frame = none) : Makes (.bellFrame frame) s s.m :=
  makes_of_live hl rfl (by
    rcases h with h | h
    · simp only [h]
    · rw [h]; cases s.m.linkUp <;> rfl)

section Batches
variable {b : BatchHdr} {recs : List ShRec}

theorem makes_shadowSegment_untaken (seg : ShSeg) (h : s.m.takesBatches = false) : Makes (.shadowSegment seg) s s.m :=
  makes_of_live hl rfl (if_pos (by simp [h]))

variable (h : s.m.takesBatches = true)
include h

theorem makes_shadowSegment_gap {q : BitVec 32} (hq : s.m.tan.sh.rxSeq = some q) (hb : b.bseq ≠ q + 1) :
    Makes (.shadowSegment (.start b recs)) s s.m.batchGap :=
  makes_of_live hl rfl ((if_neg (Mod.takes_not_untaken h)).trans (if_pos (by simpa [hq] using hb)))

theorem makes_shadowSegment_start (hb : ∀ q, s.m.tan.sh.rxSeq = some q → b.bseq = q + 1) :
    Makes (.shadowSegment (.start b recs)) s (s.m.updTan fun t => { t with sh := { t.sh with hdr := some b, recs := recs } }).batchEnds :=
  makes_of_live hl rfl ((if_neg (Mod.takes_not_untaken h)).trans (if_neg (Bool.eq_false_iff.mp (Mod.bseq_follows_iff.mpr hb))))

theorem makes_shadowSegment_more : Makes (.shadowSegment (.more recs)) s
    (s.m.updTan fun t => { t with sh := { t.sh with recs := t.sh.recs ++ recs } }).batchEnds :=
  makes_of_live hl rfl (if_neg (Mod.takes_not_untaken h))

end Batches

theorem makes_laneChange {l : Fin 2} {up : Bool} (h : up = true → s.m.clk.override = false) :
    Makes (.twinLinkLaneChange l up) s (s.m.laneChanged l up).ltJudge :=
  makes_of_live hl rfl (if_neg (by cases up <;> simp_all))

theorem makes_laneChange_override {l : Fin 2} (h : s.m.clk.override = true) : Makes (.twinLinkLaneChange l true) s s.m :=
  makes_of_live hl rfl (if_pos (by simp [h]))

end Events

theorem Mod.resyncAsked_other {m : Mod} (h : ¬ m.tan.role.executes = true) : m.resyncAsked = m := if_pos (by simpa using h)

/-- Settles O50: each is an event or a timer of a live module that comes to the case its conditions name. -/
theorem bellsShadowsAndTheTwinLink : Obligations.BellsShadowsAndTheTwinLink := by
  unfold Obligations.BellsShadowsAndTheTwinLink
  intro s hl m
  refine ⟨?send, fun frame => ⟨fun b hu hb => ?bell, fun h => ?noBell⟩, fun bits => ⟨fun h => ?hbWrong, fun seq fl h => ?hb⟩,
    fun p => ⟨?silent, ?restored⟩, fun h => ?hello, fun h recs => ⟨fun ht => ?untaken, fun ht => ⟨fun q hq hb => ?gap, fun hb => ?start, ?more⟩⟩,
    fun b => ?asked, ?timeout, fun l => ⟨?down, fun ho => ?up, fun ho => ?upOverride⟩, ?clear⟩
  case send | hello => exact makes_of_live hl rfl rfl
  case bell => exact makes_bellFrame_heard hl (Mod.linkUp_iff.mpr hu) hb
  case noBell => exact makes_bellFrame_ignored hl (h.imp_left Mod.linkUp_eq_false_iff.mpr)
  case hbWrong => exact makes_of_live hl rfl (Mod.heartbeatCame_wrong h)
  case hb => exact makes_of_live hl rfl (Mod.heartbeatCame_heard h)
  case silent | restored | timeout | clear => exact actsAt_of_live hl rfl rfl fun _ => rfl
  case untaken => exact ⟨makes_shadowSegment_untaken hl _ ht, makes_shadowSegment_untaken hl _ ht⟩
  case gap => exact makes_shadowSegment_gap hl ht hq hb
  case start => exact makes_shadowSegment_start hl ht hb
  case more => exact makes_shadowSegment_more hl ht
  case asked =>
    refine makes_of_live hl rfl ?_
    split
    · rfl
    · next h => exact Mod.resyncAsked_other h
  case down => exact makes_laneChange hl nofun
  case up => exact makes_laneChange hl fun _ => ho
  case upOverride => exact makes_laneChange_override hl ho

end Sys2Proof.Machine
end

section
/-! Planned handovers and health: the messages of a handover, its timers and the commands `HANDOVER`, `REVERT_ACK` and `SHADOW_LAG`
(R340 to R354, R577). -/

namespace Sys2Proof.Machine

section HoSet
variable {m : Mod} (th : BitVec 96)

theorem Mod.hoSetCame_act (h : m.act = true) : m.hoSetCame th = m := if_pos h

section
variable (ha : m.act = false)
include ha

theorem Mod.hoSetCame_fit (hr : m.tan.role = .standby) (hf : m.fit = true) (hg : m.tan.sh.gapSeen = false) :
    m.hoSetCame th = (m.updTan fun t => { t with ho := { t.ho with
      pend := some { th := th, reason := t.ho.asked.getD 1, giving := false, acked := true } } }).control 6 (natLe 12 th.toNat) :=
  (if_neg (by simp [ha])).trans (if_pos ⟨hr, hf, by simp [hg]⟩)

theorem Mod.hoSetCame_unfit (h : m.tan.role ≠ .standby ∨ m.fit = false ∨ m.tan.sh.gapSeen = true) :
    m.hoSetCame th = ((m.updTan fun t => { t with ho := { t.ho with asked := none, lastCause := 7 } }).control 7 [7]).cmdDone 3 0 0 7 := by
  refine (if_neg (by simp [ha])).trans (if_neg fun ⟨hr, hf, hg⟩ => ?_)
  rcases h with h | h | h
  · exact h hr
  · simp [h] at hf
  · simp [h] at hg

end
end HoSet

section HoTimers
variable {s : State} (hl : s.m.live = true)
include hl

theorem makes_handoverTimers_none (hp : s.m.tan.ho.pend = none) :
    Makes .handoverAckTimeout s s.m ∧ Makes .handoverRelease s s.m ∧ Makes .handoverTake s s.m :=
  ⟨makes_of_live hl rfl (by simp only [hp]), makes_of_live hl rfl (by simp only [hp]), makes_of_live hl rfl (by simp only [hp])⟩

section
variable {p : HoPend} (hp : s.m.tan.ho.pend = some p)
include hp

theorem makes_handoverAckTimeout : Makes .handoverAckTimeout s
    (if p.giving = true ∧ p.acked = false then (s.m.toNow (p.units - unitsMs 5)).cancelHo 6 else s.m) :=
  makes_of_live hl rfl (by simp [hp])

theorem makes_handoverRelease : Makes .handoverRelease s
    (if p.giving = true ∧ p.acked = true ∧ s.m.act = true then (s.m.toNow p.units).hoRelease else s.m) :=
  makes_of_live hl rfl (by simp [hp, and_assoc])

theorem makes_handoverTake : Makes .handoverTake s
    (if p.giving = false ∧ s.m.tan.role = .standby then (s.m.toNow (p.units + 1000 * unitsPerNs)).assertClaim 4 else s.m) :=
  makes_of_live hl rfl (by simp [hp])

end
end HoTimers

/-! The `HANDOVER` command. -/

section HandoverCmd
variable {m : Mod} {force : Bool} {c : Nat}

/-- Why a `HANDOVER` command is not carried out at once: the refusal of R340 at the holder of ACT, and `NOT_STANDBY` at a module that has
no part in a handover. -/
def Mod.handoverRefusal (m : Mod) : Option Nat :=
  if m.act then m.hoRefusal else if m.tan.role = .standby then none else some 4

/-- The causes of R603 that R577 answers `BUSY`. -/
abbrev isBusyCause (c : Nat) : Prop := c = 1 ∨ c = 2 ∨ c = 3 ∨ c = 9

theorem Mod.handoverRefusal_act (h : m.act = true) : m.handoverRefusal = m.hoRefusal := if_pos h

theorem Mod.handoverRefusal_outside (ha : m.act = false) (hr : m.tan.role ≠ .standby) : m.handoverRefusal = some 4 :=
  (if_neg (by simp [ha])).trans (if_neg hr)

theorem Mod.handoverCmd_accepted (h : m.handoverRefusal = none) : m.handoverCmd force = { m := m.requestHo 1, status := stAccepted } := by
  rw [Mod.handoverRefusal] at h
  simp only [Mod.handoverCmd, h]

theorem Mod.handoverCmd_busy (h : m.handoverRefusal = some c) (hc : isBusyCause c) :
    m.handoverCmd force = { m := m, status := stBusy } := by
  rw [Mod.handoverRefusal] at h
  rcases hc with rfl | rfl | rfl | rfl <;> simp only [Mod.handoverCmd, h]

theorem Mod.handoverCmd_refused (h : m.handoverRefusal = some c) (hc : ¬ isBusyCause c) :
    m.handoverCmd force = if force = true ∧ m.act = true then { m := m.requestHo 1, status := stAccepted }
      else { m := m, status := stNoPartner } := by
  rw [Mod.handoverRefusal] at h
  obtain ⟨h1, h2, h3, h9⟩ : c ≠ 1 ∧ c ≠ 2 ∧ c ≠ 3 ∧ c ≠ 9 := by simpa [isBusyCause] using hc
  simp only [Mod.handoverCmd, h, Bool.and_eq_true]

theorem Mod.handoverCmd_noPartner (h : m.handoverRefusal = some c) (hc : ¬ isBusyCause c) (hf : force = false ∨ m.act = false) :
    m.handoverCmd force = { m := m, status := stNoPartner } :=
  (Mod.handoverCmd_refused h hc).trans (if_neg fun ⟨h1, h2⟩ => by simp [h1, h2] at hf)

theorem Mod.handoverCmd_forced (h : m.handoverRefusal = some c) (hc : ¬ isBusyCause c) (ha : m.act = true) :
    m.handoverCmd true = { m := m.requestHo 1, status := stAccepted } :=
  (Mod.handoverCmd_refused h hc).trans (if_pos ⟨rfl, ha⟩)

theorem at_put {α : Type} (l : List α) (i : Nat) (a d : α) : at_ (put l i a) i d = if i < l.length then a else d := by
  induction l generalizing i with
  | nil => simp [put, upd, at_]
  | cons b l ih =>
    cases i with
    | zero => rfl
    | succ i => simpa [put, upd, at_] using ih i

/-- A command object left complete holds no request. -/
theorem commanded_handover_complete (k : Mod) (rq : Req) (status st : Nat) (b : Bytes) :
    (commanded k rq 3 { status := status } st b).handoverOpen = false := by
  show (at_ (put k.eap.cmds 3 { status := status }) 3 {}).open_ = false
  rw [at_put]
  split <;> rfl

section Command
variable {s : State} {rq : Req} {x : Session} (h : admitted s.m rq x 3 3 false false)
include h

/-- A `HANDOVER` that may run and whose meaning answers `r`: what every COMMAND leaves and, where that is an open request, the settling
of one that was refused at once. -/
theorem makes_handover {r : CmdAns} {o : CmdObj} (hf : (s.m.touchSession rq.sess).handoverCmd force = r)
    (ho : (if r.status = stAccepted ∧ r.stays ∧ r.ended.isNone then { at_ s.m.eap.cmds 3 {} with open_ := true }
      else { status := r.ended.getD (if r.status = stAccepted then stOk else r.status), detail := r.detail, value := r.value }) = o) :
    let k := commanded r.m rq 3 o r.status r.body
    Makes (.handover rq force) s (if k.handoverOpen = true then k.settleHandover else k) := by
  obtain ⟨⟨hl, hs, ht⟩, hr, hp, hm, hop⟩ := h
  have hk : (s.m.command rq 3 3 false false fun _ m => m.handoverCmd force) = commanded r.m rq 3 o r.status r.body := by
    rw [Mod.command_at hl hs ht hr hp hm hop hf, commanded, ho]
  have hclosed : s.m.handoverOpen = false := hop
  show execHandover rq force s = _
  rw [execHandover, State.run_def]
  simp only [hk, hclosed, Bool.not_false, Bool.and_true]

theorem makes_handover_refused {st : Nat} (hst : st ≠ stAccepted)
    (hf : (s.m.touchSession rq.sess).handoverCmd force = { m := s.m.touchSession rq.sess, status := st }) :
    Refuses (.handover rq force) s rq 3 st := by
  have hk := makes_handover h hf (o := { status := st }) (by simp [hst])
  dsimp only at hk
  rwa [commanded_handover_complete, if_neg Bool.false_ne_true] at hk

theorem makes_handover_requested {k : Mod}
    (hf : (s.m.touchSession rq.sess).handoverCmd force = { m := k, status := stAccepted }) :
    let k := commanded k rq 3 { at_ s.m.eap.cmds 3 {} with open_ := true } stAccepted []
    Makes (.handover rq force) s (if k.handoverOpen = true then k.settleHandover else k) :=
  makes_handover h hf (by simp)

end Command
end HandoverCmd

section RevertAck
variable {m : Mod}

theorem Mod.revertAck_notWaited (h : m.tan.ho.waitAck = false) : m.revertAck = { m := m, status := stCondition } := if_pos (by simp [h])

theorem Mod.revertAck_waited (h : m.tan.ho.waitAck = true) : m.revertAck = { m := m.revertAck.m } := by
  rw [Mod.revertAck, if_neg (by simp [h])]

end RevertAck

/-- Settles O51: each is an event, a timer or a request of a live module that comes to the case its conditions name. -/
theorem handoverAndHealth : Obligations.HandoverAndHealth := by
  unfold Obligations.HandoverAndHealth
  refine ⟨fun s => ⟨fun hl => ⟨fun reason => ?req, fun th => ⟨fun ha => ?setAct, fun ha hr hf hg => ?setFit, fun ha hu => ?setUnfit, ?ack⟩,
      fun cause => ?cancel, fun hp => ?noTimers, fun p hp => ⟨?ackTimeout, ?release, ?take⟩, fun t pass late => ?patrol, fun c pin => ?health,
      ?swap, ?revert⟩, fun rq x force h => ⟨fun ha hr => ?outside, fun hn => ?requested⟩,
      fun rq x h => ⟨fun hw => ?notWaited, fun hw => ?waited⟩, fun rq x h hm => ?lag⟩,
    fun s rq x force c h ha hn => ⟨fun hc => ?busy, fun hc => ⟨fun hf => ?noPartner, ?forced⟩⟩⟩
  case req | ack | cancel | patrol | health => exact makes_of_live hl rfl rfl
  case setAct => exact makes_of_live hl rfl (Mod.hoSetCame_act th ha)
  case setFit => exact makes_of_live hl rfl (Mod.hoSetCame_fit th ha hr hf hg)
  case setUnfit => exact makes_of_live hl rfl (Mod.hoSetCame_unfit th ha hu)
  case noTimers => exact makes_handoverTimers_none hl hp
  case ackTimeout => exact makes_handoverAckTimeout hl hp
  case release => exact makes_handoverRelease hl hp
  case take => exact makes_handoverTake hl hp
  case swap | revert => exact actsAt_of_live hl rfl rfl fun _ => rfl
  case outside =>
    have hf := Mod.handoverRefusal_outside (m := s.m.touchSession rq.sess) ha hr
    exact makes_handover_refused h (by decide) (Mod.handoverCmd_noPartner hf (by decide) (.inr ha))
  case requested => exact makes_handover_requested h (Mod.handoverCmd_accepted (m := s.m.touchSession rq.sess) hn)
  case notWaited => exact makes_commanded_done rfl h (Mod.revertAck_notWaited (m := s.m.touchSession rq.sess) hw) (by decide)
  case waited => exact makes_commanded_done rfl h (Mod.revertAck_waited (m := s.m.touchSession rq.sess) hw) (by decide)
  case lag => exact makes_readClear h rfl hm rfl
  all_goals have hr := (Mod.handoverRefusal_act (m := s.m.touchSession rq.sess) ha).trans hn
  case busy => exact makes_handover_refused h (by decide) (Mod.handoverCmd_busy (hr) hc)
  case noPartner =>
    exact makes_handover_refused h (by decide) (Mod.handoverCmd_noPartner (hr) hc (.inl hf))
  case forced =>
    rintro rfl
    exact makes_handover_requested h (Mod.handoverCmd_forced (hr) hc ha)

end Sys2Proof.Machine
end

section
/-! The safety island: what becomes of it at the instants of its own clock, and what it takes up of its wires, supply and reports. -/

namespace Sys2Proof.Machine

/-! An island that runs, and one that does not. -/

section Running
variable {m : Mod} {f : Si → Nat → Si} (hp : m.si.powered = true) (hs : m.si.started = true)
include hp hs

theorem Mod.island_runs : (m.si.powered && m.si.started) = true := by rw [hp, hs, Bool.and_self]

theorem Mod.island_running : m.island f = { m with si := f m.si m.mono } := if_pos (Mod.island_runs hp hs)

/-- Time that runs on to the instant leaves the island running, so that it is there to act. -/
theorem Mod.islandDue_running (due : Option Nat) : m.islandDue due f = m.onDue due fun k => { k with si := f k.si k.mono } := by
  rw [Mod.islandDue, if_pos (Mod.island_runs hp hs)]
  cases due with
  | none => rfl
  | some d => exact Mod.island_running (m := m.to d) hp hs

end Running

section NotRunning
variable {m : Mod} (h : m.si.powered = false ∨ m.si.started = false)
include h

theorem Mod.not_island_runs : ¬ (m.si.powered && m.si.started) = true := by
  rcases h with h | h <;> simp [h]

theorem Mod.island_notRunning (f : Si → Nat → Si) : m.island f = m := if_neg (Mod.not_island_runs h)

theorem Mod.islandDue_notRunning (due : Option Nat) (f : Si → Nat → Si) : m.islandDue due f = m := if_neg (Mod.not_island_runs h)

end NotRunning

section Commands
variable {c : Instr} {s : State}

section Runs
variable {f : Si → Nat → Si} (hp : s.m.si.powered = true) (hs : s.m.si.started = true)
include hp hs

/-- A timer of the island, on one that runs. -/
theorem actsOnIsland_of_running {due : Option Nat} (hc : exec c s = .next { s with m := s.m.islandDue due f }) :
    ActsOnIsland c s due f := by
  rw [Mod.islandDue_running hp hs] at hc
  exact ⟨fun t ht => makes_of_next hc (by rw [ht, Mod.onDue_some]), fun hn => makes_of_next hc (by rw [hn, Mod.onDue_none])⟩

/-- An event of the island, on one that runs. -/
theorem makes_onIsland {k : Si} (hc : exec c s = .next { s with m := s.m.island f }) (hk : f s.m.si s.m.mono = k) :
    Makes c s { s.m with si := k } :=
  makes_of_next hc (by rw [Mod.island_running hp hs, hk])

end Runs

section Stands
variable (h : s.m.si.powered = false ∨ s.m.si.started = false)
include h

theorem makes_self_of_island {f : Si → Nat → Si} (hc : exec c s = .next { s with m := s.m.island f }) : Makes c s s.m :=
  makes_of_next hc (Mod.island_notRunning h f)

theorem makes_self_of_islandDue {due : Option Nat} {f : Si → Nat → Si}
    (hc : exec c s = .next { s with m := s.m.islandDue due f }) : Makes c s s.m :=
  makes_of_next hc (Mod.islandDue_notRunning h due f)

end Stands

/-! The re-read of the expected value, which also moves the bus of the cassette (R364). -/

theorem actsAt_expectedReread (hp : s.m.si.powered = true) (hs : s.m.si.started = true) :
    ActsAt .expectedReread s (some (s.m.si.lastRead + phS 60))
      fun k => { k with cas := k.cas.islandReads, si := k.si.reread k.cas.safetyExpected k.mono } := by
  refine ⟨fun d hd => makes_of_next rfl ((if_pos (Mod.island_runs hp hs)).trans ?_), fun hn => nomatch hn⟩
  rw [hd, Mod.onDue_some]

theorem makes_expectedReread_notRunning (h : s.m.si.powered = false ∨ s.m.si.started = false) : Makes .expectedReread s s.m :=
  makes_of_next rfl (if_neg (Mod.not_island_runs h))

end Commands

/-- Settles O36: each command is an instant of the island, which comes to an island that runs (powered and started) and to no other;
the main side does not enter. -/
theorem islandRunsByItsOwnClock : Obligations.IslandRunsByItsOwnClock := by
  unfold Obligations.IslandRunsByItsOwnClock
  intro s i
  refine ⟨fun hp hs => ⟨fun x => ?cycle, fun p => ⟨?filterA, ?filterB, ?discrepancy⟩, fun high => ⟨?pulse1, ?pulse2⟩, fun o high res => ?outputTest,
      fun g => ?restart, ?held, fun o => ?edm, ?reread, fun n => ⟨?torque, ?testTime, ?due, ?overdue⟩⟩,
    fun h x p o d n b high res => ⟨?_, ?_, ?_, ?_, ?_, ?_, ?_, ?_, ?rereadNone, ?_, ?_, ?_, ?_⟩⟩
  case reread => exact actsAt_expectedReread hp hs
  case cycle | filterA | filterB | discrepancy | pulse1 | pulse2 | outputTest | restart | held | edm | torque | testTime | due | overdue =>
    exact actsOnIsland_of_running hp hs rfl
  case rereadNone => exact makes_expectedReread_notRunning h
  all_goals exact makes_self_of_islandDue h rfl

/-! Supply, oscillator and start. -/

section Supply
variable {s : State}

theorem makes_siSupplyTrip_powered (h : s.m.si.powered = true) :
    Makes .siSupplyTrip s { s.m with si := s.m.si.trip s.m.mono } :=
  makes_of_next rfl (if_pos h)

theorem makes_siOscillatorFault_powered (h : s.m.si.powered = true) :
    Makes .siOscillatorFault s { s.m with si := ({ s.m.si with core := true } : Si).settle s.m.mono } :=
  makes_of_next rfl (if_pos h)

theorem makes_siStatusReport_powered (hl : s.m.live = true) (h : s.m.si.powered = true) :
    Makes .siStatusReport s (s.m.to s.m.si.reportDue).islandReport :=
  makes_of_live hl rfl (if_pos h)

/-- Without power the island does not report, whether the main side takes reports or not. -/
theorem makes_siStatusReport_unpowered (h : s.m.si.powered = false) : Makes .siStatusReport s s.m := by
  cases hl : s.m.live with
  | false => exact makes_self_of_whenLive hl rfl
  | true => exact makes_of_live hl rfl (if_neg (ne_true_of_eq_false h))

variable {img : BitVec 16} {good : Bool}

theorem makes_siStart_barred (h : s.m.si.cycled = false ∨ s.m.si.monLow = true ∧ s.m.sup.vorMv < 5300) :
    Makes (.siStart img good) s s.m :=
  makes_of_next rfl (if_pos (by simpa using h))

theorem makes_siStart_cycled (hc : s.m.si.cycled = true) (hi : s.m.si.monLow = false ∨ 5300 ≤ s.m.sup.vorMv) :
    Makes (.siStart img good) s (s.m.startIsland img.toNat good) :=
  makes_of_next rfl (if_neg (by simpa [hc, or_iff_not_imp_left] using hi))

end Supply

/-! The lines of a brake test (R378, R379). -/

theorem Mod.btReqLine_iff {m : Mod} {n : Nat} : m.btReqLine n = true ↔ m.act = true ∧ at_ m.btReq n false = true := by
  simp [Mod.btReqLine]

section Lines
variable {s : State} {n : Fin 2} (hp : s.m.si.powered = true) (hs : s.m.si.started = true)
include hp hs

theorem makes_btReqRise_running : Makes (.btReqRise n) s
    { s.m with
      si := if s.m.act = true ∧ at_ s.m.btReq n false = true ∧ (s.m.si.brake n).req = false then
          (s.m.si.updBrake n fun b => { b with req := true, st := .checking, cause := 0 }).settle s.m.mono
        else s.m.si } :=
  makes_onIsland hp hs rfl (by simp only [Bool.and_eq_true, Mod.btReqLine_iff, Bool.not_eq_true', and_assoc])

theorem makes_btReqFall_running : Makes (.btReqFall n) s
    { s.m with
      si := if (s.m.si.brake n).req = true ∧ ¬ (s.m.act = true ∧ at_ s.m.btReq n false = true) then s.m.si.btReqFalls n s.m.mono
        else s.m.si } :=
  makes_onIsland hp hs rfl (by simp only [Bool.and_eq_true, Bool.not_eq_eq_eq_not, Bool.not_true, ← Bool.not_eq_true, Mod.btReqLine_iff])

end Lines

/-- Settles O37: a wire is taken up by an island that runs, by the level of its line; trip, oscillator fault and report ask for power
alone, a start for its monitor and input, and the end of `STATUS_VALID` is a timer of the live main side. -/
theorem islandFollowsItsWiresSupplyAndReports : Obligations.IslandFollowsItsWiresSupplyAndReports := by
  unfold Obligations.IslandFollowsItsWiresSupplyAndReports
  refine ⟨fun s => ⟨fun hp hs => ⟨fun img => ?switches, ?ufs, ?ub, ?reset, fun n => ⟨?reqRise, ?reqFall, fun hl => ⟨?torqueRise, ?highNoFall⟩,
        fun hl => ⟨?lowNoRise, ?torqueFall⟩⟩⟩,
      fun hp => ⟨?trip, ?oscillator, fun hl => ?report⟩, fun hp => ⟨?noTrip, ?noOscillator, ?noReport⟩,
      fun img good => ⟨fun h => ?barred, fun hc hi => ?start⟩, fun hl => ?timeout⟩,
    fun s h => ⟨fun img => ?_, ?_, ?_, ?_, fun n => ⟨?_, ?_, ?_, ?_⟩⟩⟩
  case switches | ufs | ub | reset => exact makes_onIsland hp hs rfl rfl
  case reqRise => exact makes_btReqRise_running hp hs
  case reqFall => exact makes_btReqFall_running hp hs
  case torqueRise | highNoFall => exact makes_onIsland hp hs rfl (if_pos hl)
  case lowNoRise | torqueFall => exact makes_onIsland hp hs rfl (if_neg (ne_true_of_eq_false hl))
  case trip => exact makes_siSupplyTrip_powered hp
  case oscillator => exact makes_siOscillatorFault_powered hp
  case report => exact makes_siStatusReport_powered hl hp
  case noTrip | noOscillator => exact makes_of_next rfl (if_neg (ne_true_of_eq_false hp))
  case noReport => exact makes_siStatusReport_unpowered hp
  case barred => exact makes_siStart_barred h
  case start => exact makes_siStart_cycled hc hi
  case timeout => exact actsAt_of_live hl rfl rfl fun _ => rfl
  all_goals exact makes_self_of_island h rfl

end Sys2Proof.Machine
end

section
/-! Link tests, and the figures of the ports that a read clears. -/

namespace Sys2Proof.Machine

/-! `LINK_TEST` start, check by check (R420, R577). -/

section LinkTest
variable {m : Mod} {id mode pattern dur : Nat} {word : BitVec 32}

/-- Link, mode, pattern and duration are ones that a test can have. -/
abbrev LtNamed (id mode pattern dur : Nat) : Prop :=
  id ≠ 0 ∧ id ≤ 12 ∧ ltMode id mode = true ∧ pattern ≠ 0 ∧ pattern ≤ 6 ∧ dur ≠ 0

theorem not_ltNamed_iff : ¬ LtNamed id mode pattern dur ↔
    id = 0 ∨ 12 < id ∨ (!ltMode id mode) = true ∨ pattern = 0 ∨ 6 < pattern ∨ dur = 0 := by
  simp only [LtNamed, not_and_or, not_not, not_le, Bool.not_eq_true, Bool.not_eq_true', ne_eq]

theorem Mod.ltStart_range (h : ¬ LtNamed id mode pattern dur) : m.ltStart id mode pattern word dur = { m := m, status := stRange } :=
  if_pos (not_ltNamed_iff.mp h)

section
variable (h : LtNamed id mode pattern dur)
include h

theorem Mod.ltStart_busy (hr : m.eth.lt.st = 1) : m.ltStart id mode pattern word dur = { m := m, status := stBusy } :=
  (if_neg fun hn => not_ltNamed_iff.mpr hn h).trans (if_pos hr)

variable (hr : m.eth.lt.st ≠ 1)
include hr

theorem Mod.ltStart_inUse (hc : m.ltCond id = false) : m.ltStart id mode pattern word dur =
    { m := { m with eth := { m.eth with lt := { link := id, st := 4, mode := mode, pattern := pattern, cause := 4 } } }, status := stInUse } :=
  (if_neg fun hn => not_ltNamed_iff.mpr hn h).trans ((if_neg hr).trans (if_pos (by rw [hc]; rfl)))

theorem Mod.ltStart_begins (hc : m.ltCond id = true) : m.ltStart id mode pattern word dur =
    { m := (m.ltLoop id mode dur).ltBegin id mode pattern word dur, status := stAccepted, stays := false } :=
  (if_neg fun hn => not_ltNamed_iff.mpr hn h).trans ((if_neg hr).trans (if_neg (by simp [hc])))

end
end LinkTest

/-- A COMMAND that may run, is accepted and is complete at once. -/
theorem makes_commanded_complete {c : Instr} {s : State} {rq : Req} {x : Session} {idx role : Nat} {p5 im : Bool}
    {f : Session → Mod → CmdAns} {k : Mod} (hc : exec c s = s.run fun m => m.command rq idx role p5 im f)
    (h : admitted s.m rq x idx role p5 im)
    (hf : f x (s.m.touchSession rq.sess) = { m := k, status := stAccepted, stays := false }) :
    Makes c s (commanded k rq idx {} stAccepted []) :=
  makes_commanded hc h hf (by simp [stOk])

/-- Settles O39: a request comes to the case that its conditions name, and a running test has a timer for its end and one for its lock. -/
theorem linkTestsAndCountersOfThePorts : Obligations.LinkTestsAndCountersOfThePorts := by
  unfold Obligations.LinkTestsAndCountersOfThePorts
  constructor
  · intro s m
    refine ⟨fun rq x h => ⟨fun link mode pattern word dur h1 h12 hmode hp hp6 hd hr hc => ?start, ?stop⟩,
      fun hl => ⟨fun bits errors => ?ends, ?noLock⟩, fun rq x h hm => ⟨?sharedLow, fun node => ?nodeMiss⟩⟩
    case start =>
      exact makes_commanded_complete rfl h (Mod.ltStart_begins (m := s.m.touchSession rq.sess) ⟨h1, h12, hmode, hp, hp6, hd⟩ hr hc)
    case stop => exact makes_commanded_complete rfl h rfl
    case ends | noLock => exact actsAt_of_live hl rfl rfl fun _ => rfl
    case sharedLow | nodeMiss => exact makes_readClear h rfl hm rfl
  · intro s rq x h n link mode pattern word dur c named
    refine ⟨fun hn => ?range, fun hn => ⟨fun hr => ?busy, fun hr hc => ?inUse⟩⟩
    case range => exact refuses_of rfl h (Mod.ltStart_range hn) (by decide)
    case busy => exact refuses_of rfl h (Mod.ltStart_busy hn hr) (by decide)
    case inUse => exact makes_commanded_done rfl h (Mod.ltStart_inUse (m := n) hn hr hc) (by decide)

end Sys2Proof.Machine
end

section
/-! The Spoke master: its launches, the replies and frames that reach it, and its timers. -/

namespace Sys2Proof.Machine

/-! Launches of a port, with its master and without (R407). -/

section Launches
variable {m : Mod} {sp : Nat}

section
variable (h : m.spokeMaster sp = none)
include h

theorem Mod.syncLaunch_noMaster : m.syncLaunch sp = m := by simp only [Mod.syncLaunch, h]
theorem Mod.timeOnlySync_noMaster : m.timeOnlySync sp = m := by simp only [Mod.timeOnlySync, h]
theorem Mod.outLaunch_noMaster : m.outLaunch sp = m := by simp only [Mod.outLaunch, h]

end

section
variable {t : Nat} (h : m.spokeMaster sp = some t)
include h

theorem Mod.syncLaunch_master : m.syncLaunch sp =
    let lead := ((m.leads sp).lin * 1000 + (m.leads sp).hstar + 20000) * unitsPerNs
    let n := nextLaunch (m.taskCfg t) (m.launchFrom (m.spokePort sp).syncFrom) (-(lead : Int)) (m.spokePort sp).syncTick
    if m.hoReleaseDue (n * tickUnits - lead) then m else (m.toNow (n * tickUnits - lead)).syncOut sp t n := by
  simp only [Mod.syncLaunch, h]

theorem Mod.outLaunch_master : m.outLaunch sp =
    let c := m.taskCfg t
    let off : Int := ((c.oofs * 1000 * unitsPerNs : Nat) : Int) - ((m.leads sp).lout * 1000 * unitsPerNs : Nat)
    let n := nextLaunch c (m.launchFrom (m.spokePort sp).outFrom) off (m.spokePort sp).outTick
    let u := (((n * tickUnits : Nat) : Int) + off).toNat
    let m1 := m.toNow u
    let m2 := (m1.outFrames sp t n).foldl (fun k b => k.spokeSend sp 6 b) m1
    if m.hoReleaseDue u then m else (m2.updSpoke sp fun p => { p with outTick := n, outFrom := none }).mgmtStep sp := by
  simp only [Mod.outLaunch, h]

theorem Mod.timeOnlySync_unarmed (hd : (m.spokePort sp).timeOnlyAt = none) : m.timeOnlySync sp = m := by
  simp only [Mod.timeOnlySync, h, hd, Mod.onDue_none]

theorem Mod.timeOnlySync_due {d : Nat} (hd : (m.spokePort sp).timeOnlyAt = some d) : m.timeOnlySync sp =
    let m1 := m.to d
    let b := spokeFrame 1 (m1.spokeFlags sp true) (m1.spokePort sp).cycle 0
      (syncBody 0 ((m1.taskCfg t).period * 125000) (m1.eth.inCycle m1.cfg.netc sp) m1.cfg.ident.node)
    (m1.spokeSend sp 7 b).updSpoke sp fun p => { p with timeOnlyAt := some (m1.mono + phMs 1) } := by
  simp only [Mod.timeOnlySync, h, hd, Mod.onDue_some]

end
end Launches

/-! A `MGMT` reply, at the master and at the far end (R409, R410, R413). -/

section Reply
variable {m : Mod} {sp : Nat} {mseq : BitVec 16} {r : MgmtReply}

/-- The request that a reply answers: that of its sequence number and command. -/
abbrev Mod.askedBy (m : Mod) (sp : Nat) (mseq : BitVec 16) (r : MgmtReply) : Option MgmtAsked :=
  (m.spokePort sp).asked.find? fun a => a.mseq == mseq && a.cmd == (replyFrame r).1

theorem Mod.mgmtReply_relay (ha : m.act = false) (hw : m.otp.tandem = true) (hp : m.portOn (sp + 2) = true) :
    m.mgmtReply sp mseq r = (m.updSpoke sp fun p => { p with relayAt := some m.mono }).send
      (.spokeRelay sp (spokeFrame 5 (b2n m.tan.slotB) 0 0 (mgmtBody 0 (replyFrame r).1 mseq (replyFrame r).2))) := by
  rw [Mod.mgmtReply, if_neg (Bool.eq_false_iff.mp ha), if_pos ⟨hw, hp⟩]

section
variable (ha : m.act = true)
include ha

theorem Mod.mgmtReply_unasked (hf : m.askedBy sp mseq r = none) : m.mgmtReply sp mseq r = m := by
  simp only [Mod.mgmtReply, ha, if_true, show List.find? _ _ = none from hf]

theorem Mod.mgmtReply_noMaster (hm : m.spokeMaster sp = none) : m.mgmtReply sp mseq r = m := by
  cases hf : m.askedBy sp mseq r with
  | none => exact Mod.mgmtReply_unasked ha hf
  | some a =>
    simp only [Mod.mgmtReply, ha, if_true, show List.find? _ _ = some a from hf, hm, Option.isSome_none, Bool.false_eq_true, if_false]

theorem Mod.mgmtReply_asked {a : MgmtAsked} {t : Nat} (hm : m.spokeMaster sp = some t) (hf : m.askedBy sp mseq r = some a) :
    m.mgmtReply sp mseq r = (m.updSpoke sp fun p => { p with asked := p.asked.erase a }).replyTo sp a r := by
  simp only [Mod.mgmtReply, ha, if_true, show List.find? _ _ = some a from hf, hm, Option.isSome_some]

end

/-! A reply to `IDENT` counts while the admission waits for one of its hop (R410 step 1). -/

section Ident
variable {a : MgmtAsked} {v p : BitVec 32} {rev fwd : Nat} {serial : BitVec 64} {mi mo tp ta : Nat}

theorem Mod.replyTo_ident_awaited {n : Nat} (h : (m.spokePort sp).adm = .ident n) (hh : a.hop = (m.spokePort sp).hop) :
    m.replyTo sp a (.ident v p rev fwd serial mi mo tp ta) = m.identReply sp v p rev fwd serial mi mo tp ta := by
  simp only [Mod.replyTo, h, hh, if_true]

theorem Mod.replyTo_ident_otherHop (hh : a.hop ≠ (m.spokePort sp).hop) :
    m.replyTo sp a (.ident v p rev fwd serial mi mo tp ta) = m := by
  cases h : (m.spokePort sp).adm <;> simp only [Mod.replyTo, h, hh, if_false]

theorem Mod.replyTo_ident_unawaited (h : ∀ n, (m.spokePort sp).adm ≠ .ident n) :
    m.replyTo sp a (.ident v p rev fwd serial mi mo tp ta) = m := by
  cases ha : (m.spokePort sp).adm with
  | ident n => exact absurd ha (h n)
  | delay | config | done => simp only [Mod.replyTo, ha]

end Ident
end Reply

/-! A node's `IN` frame, and the node itself (R411, R413). -/

section Nodes
variable {m : Mod} {sp node : Nat} {sideB : Bool} {cycle : InCycle} {nstat : BitVec 8} {inp : Bytes}

theorem Mod.nodeIn_unknown (h : m.nodeCfg node = none) : m.nodeIn sp sideB cycle node nstat inp = m := by
  simp only [Mod.nodeIn, h]

section
variable {n : NodeCfg} (h : m.nodeCfg node = some n)
include h

theorem Mod.nodeIn_otherPort (hp : n.port ≠ sp + 3) : m.nodeIn sp sideB cycle node nstat inp = m := by
  simp only [Mod.nodeIn, h, if_pos hp]

theorem Mod.nodeIn_master (hp : n.port = sp + 3) (ha : m.act = true) :
    m.nodeIn sp sideB cycle node nstat inp = m.masterIn sp sideB cycle.cycle n nstat inp := by
  simp only [Mod.nodeIn, h, if_neg (not_not.mpr hp), ha, if_true]

theorem Mod.nodeIn_relay (hp : n.port = sp + 3) (ha : m.act = false) (hw : m.otp.tandem = true) (hb : sideB = m.tan.slotB) :
    m.nodeIn sp sideB cycle node nstat inp = (m.updSpoke sp fun p => { p with relayAt := some m.mono }).send
      (.spokeRelay sp (spokeFrame 3 (b2n sideB) cycle.cycle cycle.stime (natLe 2 node ++ [nstat, 0] ++ inp))) := by
  simp only [Mod.nodeIn, h, if_neg (not_not.mpr hp), if_neg (Bool.eq_false_iff.mp ha), if_pos (And.intro hw hb)]

theorem Mod.nodeLost_due (hs : (m.eth.node node).st = 3) (hw : n.wdog ≤ (m.eth.node node).missRun) : m.nodeLost node =
    (m.updNode node fun q => { q with st := 4, missRun := 0, recheckAt := none, rdN := 0 }).log 7 4 0x50 node [] := by
  simp only [Mod.nodeLost, h, if_pos (And.intro hs hw)]

end

theorem Mod.nodeLost_notInCycle (hs : (m.eth.node node).st ≠ 3) : m.nodeLost node = m := by
  cases h : m.nodeCfg node <;> simp only [Mod.nodeLost, h, hs, false_and, if_false]

end Nodes

/-! Requests relayed to a node, the oldest first (R568). -/

theorem Mod.relayLate_none {m : Mod} (h : m.eth.relays = []) : m.relayLate = m := by
  simp only [Mod.relayLate, h, List.head?_nil, Option.map_none, Mod.onDue_none]

theorem Mod.relayLate_cons {m : Mod} {r : NodeRelay} {rest : List NodeRelay} (h : m.eth.relays = r :: rest) : m.relayLate =
    let k := m.to (r.at_ + phMs 100)
    ({ k with eth := { k.eth with relays := rest } } : Mod).respond r.rq stTimeout [] := by
  simp only [Mod.relayLate, h, List.head?_cons, Option.map_some, Mod.onDue_some, Mod.to_eth]

/-- A timer that runs on a live module alone and whose effect may also read the module as the command finds it. -/
theorem actsAt_of_onDue {c : Instr} {s : State} {d : Option Nat} {f g : Mod → Mod} (hl : s.m.live = true)
    (hc : exec c s = s.run (·.whenLive g)) (hg : g s.m = s.m.onDue d f) : ActsAt c s d f :=
  ⟨fun t hd => makes_of_live hl hc (by rw [hg, hd, Mod.onDue_some]), fun hn => makes_of_live hl hc (by rw [hg, hn, Mod.onDue_none])⟩

/-- Settles O40: each is an event or a timer of a live module that comes to the case its conditions name. -/
theorem spokeMasterRunsItsCycle : Obligations.SpokeMasterRunsItsCycle := by
  unfold Obligations.SpokeMasterRunsItsCycle
  intro s hl m
  refine ⟨fun sp => ⟨fun hn => ⟨?noSync, ?noTimeOnly, ?noOut⟩,
      fun mseq r => ⟨fun ha hf => ?unasked, fun ha hn => ?noMaster, fun ha hw hp => ?relayReply, fun a t ha ht hf => ?asked⟩,
      fun t ht => ⟨⟨fun hd => ?sync, fun hd => ?syncHandover⟩, ⟨fun hd => ?out, fun hd => ?outHandover⟩,
        fun hd => ?timeOnlyUnarmed, fun d hd => ?timeOnly⟩,
      fun sideB cycle node nstat inp => ⟨fun hn => ?unknown, fun n hn => ⟨fun hp => ?otherPort, fun hp ha => ?master,
        fun hp ha hw hb => ?relayIn⟩⟩, ?splitEnd⟩,
    fun node => ⟨fun n hn hs hw => ?lost, fun hs => ?notLost, ?recheck⟩, fun hr => ?noRelay, fun r rest hr => ?relayLate⟩
  case noSync => exact makes_of_live hl rfl (Mod.syncLaunch_noMaster hn)
  case noTimeOnly => exact makes_of_live hl rfl (Mod.timeOnlySync_noMaster hn)
  case noOut => exact makes_of_live hl rfl (Mod.outLaunch_noMaster hn)
  case unasked => exact makes_of_live hl rfl (Mod.mgmtReply_unasked ha hf)
  case noMaster => exact makes_of_live hl rfl (Mod.mgmtReply_noMaster ha hn)
  case relayReply => exact makes_of_live hl rfl (Mod.mgmtReply_relay ha hw hp)
  case asked =>
    intro k
    have answers {q : Mod} (hq : k.replyTo sp a r = q) : Makes (.spokeMgmtReply sp mseq r) s q :=
      makes_of_live hl rfl ((Mod.mgmtReply_asked ha ht hf).trans hq)
    cases r with
    | ident v p rev fwd serial mi mo tp ta =>
      dsimp only
      split
      case h_1 n hadm =>
        exact ⟨fun hh => answers (Mod.replyTo_ident_awaited hadm hh), fun hh => answers (Mod.replyTo_ident_otherHop hh)⟩
      case h_2 hadm => exact answers (Mod.replyTo_ident_unawaited hadm)
    | delay | config | loop | object => exact answers rfl
  case sync => exact makes_of_live hl rfl ((Mod.syncLaunch_master ht).trans (if_neg (Bool.eq_false_iff.mp hd)))
  case syncHandover => exact makes_of_live hl rfl ((Mod.syncLaunch_master ht).trans (if_pos hd))
  case out => exact makes_of_live hl rfl ((Mod.outLaunch_master ht).trans (if_neg (Bool.eq_false_iff.mp hd)))
  case outHandover => exact makes_of_live hl rfl ((Mod.outLaunch_master ht).trans (if_pos hd))
  case timeOnlyUnarmed => exact makes_of_live hl rfl (Mod.timeOnlySync_unarmed ht hd)
  case timeOnly => exact makes_of_live hl rfl (Mod.timeOnlySync_due ht hd)
  case unknown => exact makes_of_live hl rfl (Mod.nodeIn_unknown hn)
  case otherPort => exact makes_of_live hl rfl (Mod.nodeIn_otherPort hn hp)
  case master => exact makes_of_live hl rfl (Mod.nodeIn_master hn hp ha)
  case relayIn => exact makes_of_live hl rfl (Mod.nodeIn_relay hn hp ha hw hb)
  case splitEnd | recheck => exact actsAt_of_onDue hl rfl rfl
  case lost => exact makes_of_live hl rfl (Mod.nodeLost_due hn hs hw)
  case notLost => exact makes_of_live hl rfl (Mod.nodeLost_notInCycle hs)
  case noRelay => exact makes_of_live hl rfl (Mod.relayLate_none hr)
  case relayLate => exact makes_of_live hl rfl (Mod.relayLate_cons hr)

end Sys2Proof.Machine
end

section
/-! Sessions of the engineering access: the handshake, check by check, their end, and `NOP`. -/

namespace Sys2Proof.Machine

section Handshake
variable {m : Mod} {port : Nat} {addr : EapAddr} {cert : Cert}

/-- The handshakes of the last second (R556). -/
abbrev Mod.recentShakes (m : Mod) : List Nat := m.eap.shakes.filter fun t => decide (m.mono < t + phS 1)

/-- The module once it has taken up a handshake. -/
def Mod.shaken (m : Mod) : Mod := { m with eap := { m.eap with shakes := m.recentShakes ++ [m.mono] } }

/-- The module once it has presented its certificate to a client that it will judge (R557, R561). -/
def Mod.presented (m : Mod) (port : Nat) : Mod :=
  let n := m.shaken
  ({ n with eap := { n.eap with unchecked := n.eap.unchecked || (!(m.maint && m.eap.fallback) && m.ptp.timeUnset) } } : Mod).send (n.certificate port)

theorem Mod.handshake_unheard (h : m.reaches port addr = false ∨ 4 ≤ m.recentShakes.length) : m.handshake port addr cert = m :=
  if_pos (by simpa using h)

section
variable (hr : m.reaches port addr = true) (hs : m.recentShakes.length < 4)
include hr hs

theorem not_handshake_unheard : ¬ (!m.reaches port addr || decide (4 ≤ m.recentShakes.length)) = true := by
  simp only [hr, Nat.not_le.mpr hs, decide_false, Bool.not_true, Bool.or_false, Bool.false_eq_true, not_false_eq_true]

theorem Mod.handshake_alert (h : m.sessFull port = true ∨ cert.p256 = false) :
    m.handshake port addr cert = m.shaken.send (.alert port) :=
  (if_neg (not_handshake_unheard hr hs)).trans (if_pos (by rw [Bool.or_eq_true, Bool.not_eq_true']; exact h))

variable (hf : m.sessFull port = false) (hp : cert.p256 = true)
include hf hp

/-- What follows once the certificate is presented: the client is refused, or its session opens. -/
theorem Mod.handshake_presented : m.handshake port addr cert =
    let k := m.presented port
    if (k.admits cert port).1 = 0 then ({ k with eap := { k.eap with authFail := k.eap.authFail + 1 } } : Mod).send (.alert port)
    else (if (k.admits cert port).2 then k.logOpen cert.serial else k).openSession port (k.admits cert port).1 cert.serial (addr == .station) :=
  (if_neg (not_handshake_unheard hr hs)).trans
    (if_neg (by rw [Bool.or_eq_true, Bool.not_eq_true', not_or, Bool.not_eq_true, hp]; exact ⟨hf, nofun⟩))

theorem Mod.handshake_refused (ha : ((m.presented port).admits cert port).1 = 0) : m.handshake port addr cert =
    let k := m.presented port
    ({ k with eap := { k.eap with authFail := k.eap.authFail + 1 } } : Mod).send (.alert port) :=
  (Mod.handshake_presented hr hs hf hp).trans (if_pos ha)

/-- Outside the open access of R562. -/
theorem Mod.handshake_opens (ha : ((m.presented port).admits cert port).1 ≠ 0) (ho : ((m.presented port).admits cert port).2 = false) :
    m.handshake port addr cert =
      (m.presented port).openSession port ((m.presented port).admits cert port).1 cert.serial (addr == .station) := by
  rw [Mod.handshake_presented hr hs hf hp, if_neg ha, if_neg (Bool.eq_false_iff.mp ho)]

end
end Handshake

/-- Settles O42: a handshake comes to the first of its checks that decides it, a silent session to its timer, and `NOP` to its answer. -/
theorem engineeringSessionsOpenIdleAndEnd : Obligations.EngineeringSessionsOpenIdleAndEnd := by
  unfold Obligations.EngineeringSessionsOpenIdleAndEnd
  intro s hl m
  refine ⟨fun port addr cert => ⟨fun h => ?unheard, fun hr hs => ⟨fun h => ?alert, fun hf hp ha => ?refused, fun hf hp ha ho => ?opens⟩⟩,
    fun sess => ?timeout, fun rq x h => ?nop⟩
  case unheard => exact makes_of_live hl rfl (Mod.handshake_unheard h)
  case alert => exact makes_of_live hl rfl (Mod.handshake_alert hr hs h)
  case refused => exact makes_of_live hl rfl (Mod.handshake_refused hr hs hf hp ha)
  case opens => exact makes_of_live hl rfl (Mod.handshake_opens hr hs hf hp ha ho)
  case timeout => exact actsAt_of_live hl rfl rfl fun _ => rfl
  case nop => exact makes_served h rfl rfl

end Sys2Proof.Machine
end

section
/-! The step, the effect of a command, and the queue: a step runs the front command, and no command looks at those that wait. -/

namespace Sys2Proof.Machine

theorem step_cons (c : Instr) (s : State) (rest : List Instr) : step { s with pending := c :: rest } = exec c { s with pending := rest } := rfl

/-- Settles O1: the queue's front is the command that runs. -/
theorem stepRunsFrontCommand : Obligations.StepRunsFrontCommand := step_cons

/-- Every command reads and changes the module alone: it answers a next state, and no meaning looks at the commands that wait. -/
theorem exec_eq_next_effectOf (c : Instr) (s : State) : exec c s = .next { s with m := effectOf c s.m } := by
  cases c <;> rfl

/-- A step takes the front command off the queue and carries it out. -/
theorem step_eq_next_effectOf (c : Instr) (rest : List Instr) (m : Mod) :
    step { pending := c :: rest, m := m } = .next { pending := rest, m := effectOf c m } :=
  exec_eq_next_effectOf c { pending := rest, m := m }

/-- A queue drains in as many steps as it holds commands. -/
theorem afterSteps_length (l : List Instr) (m : Mod) :
    afterSteps l.length { pending := l, m := m } = some { pending := [], m := l.foldl (fun k c => effectOf c k) m } := by
  induction l generalizing m with
  | nil => rfl
  | cons c rest ih => simp only [List.length_cons, afterSteps, step_eq_next_effectOf, ih, List.foldl_cons]

/-- Settles O52: a command's next state is `effectOf`, and the queue drains by induction on the commands that wait. -/
theorem everyCommandCompletesAndTheQueueDrains : Obligations.EveryCommandCompletesAndTheQueueDrains :=
  ⟨exec_eq_next_effectOf, fun s => afterSteps_length s.pending s.m⟩

end Sys2Proof.Machine
end

section
/-! Sparse tables: what a write of a list and an erasure read, and the canonical form as the one form of a table. -/

namespace Sys2Proof.Machine

variable {α : Type} {d : α}

theorem SMap.get_head (k : Nat) (v : α) (t : SMap α) : SMap.get d ((k, v) :: t) k = v := if_pos rfl

theorem SMap.get_tail {k a : Nat} (v : α) (t : SMap α) (h : k < a) : SMap.get d ((k, v) :: t) a = SMap.get d t a := by
  rw [SMap.get, if_neg (by omega), if_neg (by omega)]

variable [DecidableEq α]

theorem SMap.wfFrom_cons {lo k : Nat} {v : α} {t : SMap α} :
    SMap.wfFrom d lo ((k, v) :: t) = true ↔ (lo ≤ k ∧ v ≠ d) ∧ SMap.wfFrom d (k + 1) t = true := by
  simp only [SMap.wfFrom, Bool.and_eq_true, decide_eq_true_eq]

theorem SMap.get_setList (t : SMap α) (a b : Nat) (l : List α) :
    SMap.get d (SMap.setList d t a l) b = if a ≤ b ∧ b < a + l.length then l.getD (b - a) d else SMap.get d t b := by
  induction l generalizing t a with
  | nil => rw [if_neg (by simp)]; rfl
  | cons x l ih =>
    rw [SMap.setList, ih, SMap.get_set]
    rcases Nat.lt_trichotomy b a with h | rfl | h
    · rw [if_neg (by omega), if_neg (by omega), if_neg (by omega)]
    · rw [if_neg (by omega), if_pos rfl, if_pos (by simp)]; simp
    · obtain ⟨j, rfl⟩ := Nat.exists_eq_add_of_lt h
      rw [show a + j + 1 - a = j + 1 by omega, show a + j + 1 - (a + 1) = j by omega, List.getD_cons_succ, List.length_cons,
        if_neg (show ¬ a + j + 1 = a by omega)]
      exact if_congr (by omega) rfl rfl

/-- An erased range reads the default. In canonical form no key stands twice and none below an earlier one, so every other read stays. -/
theorem SMap.get_erase {t : SMap α} {low : Nat} (h : SMap.wfFrom d low t = true) (lo hi b : Nat) :
    SMap.get d (SMap.erase t lo hi) b = if lo ≤ b ∧ b < hi then d else SMap.get d t b := by
  induction t generalizing low with
  | nil => simp [SMap.erase, SMap.get]
  | cons e t ih =>
    obtain ⟨k, v⟩ := e
    obtain ⟨-, ht⟩ := SMap.wfFrom_cons.mp h
    by_cases hk : lo ≤ k ∧ k < hi
    · have hcut : SMap.erase ((k, v) :: t) lo hi = SMap.erase t lo hi := List.filter_cons_of_neg (by simpa using hk)
      have hbelow (hb : b < k) : SMap.get d t b = d := SMap.get_below ht (by omega)
      rw [hcut, ih ht, SMap.get]
      grind
    · have hkeep : SMap.erase ((k, v) :: t) lo hi = (k, v) :: SMap.erase t lo hi := List.filter_cons_of_pos (by simp; omega)
      rw [hkeep, SMap.get, ih ht, SMap.get]
      grind

/-- Tables in canonical form that read alike are equal: their first keys are the least that does not read the default. -/
theorem SMap.eq_of_get_eq {t u : SMap α} {lo : Nat} (ht : SMap.wfFrom d lo t = true) (hu : SMap.wfFrom d lo u = true)
    (h : ∀ a, SMap.get d t a = SMap.get d u a) : t = u := by
  induction t generalizing u lo with
  | nil =>
    cases u with
    | nil => rfl
    | cons f u => exact absurd ((SMap.get_head f.1 f.2 u).symm.trans (h f.1).symm) (SMap.wfFrom_cons.mp hu).1.2
  | cons e t ih =>
    obtain ⟨k, v⟩ := e
    obtain ⟨⟨hlo, hv⟩, ht'⟩ := SMap.wfFrom_cons.mp ht
    have hk := (h k).symm.trans (SMap.get_head k v t)
    cases u with
    | nil => exact absurd hk.symm hv
    | cons f u =>
      obtain ⟨j, w⟩ := f
      obtain ⟨⟨-, hw⟩, hu'⟩ := SMap.wfFrom_cons.mp hu
      have hj := (h j).trans (SMap.get_head j w u)
      obtain hkj | rfl | hjk := Nat.lt_trichotomy k j
      · exact absurd (hk.symm.trans (SMap.get_below (SMap.wfFrom_cons.mpr ⟨⟨Nat.le_refl j, hw⟩, hu'⟩) hkj)) hv
      · obtain rfl : w = v := (SMap.get_head k w u).symm.trans hk
        refine congrArg _ (ih ht' hu' fun a => ?_)
        rcases Nat.lt_or_ge k a with ha | ha
        · rw [← SMap.get_tail w t ha, h a, SMap.get_tail w u ha]
        · rw [SMap.get_below ht' (by omega), SMap.get_below hu' (by omega)]
      · exact absurd (hj.symm.trans (SMap.get_below (SMap.wfFrom_cons.mpr ⟨⟨Nat.le_refl k, hv⟩, ht'⟩) hjk)) hw

/-- Settles O58: the reads are the laws above, and each operation keeps the canonical form. -/
theorem tablesReadBackAndHaveOneForm : Obligations.TablesReadBackAndHaveOneForm := by
  unfold Obligations.TablesReadBackAndHaveOneForm
  intro α _ d t
  exact ⟨SMap.get_set, SMap.get_setList t, fun h =>
    ⟨SMap.get_erase h, fun a x => SMap.set_wf a x h, fun a l => SMap.setList_wf a l h, fun lo hi => SMap.erase_wf lo hi h,
      fun _ hu hg => SMap.eq_of_get_eq h hu hg⟩⟩

end Sys2Proof.Machine
end

section
/-! Requests before they are served (R565), and those that are served but not admitted (R69, R568, R575, R577). -/

namespace Sys2Proof.Machine

/-- The answer to a request moves no command object, and so none does that HANDOVER holds. -/
@[simp] theorem Mod.respond_handoverOpen (m : Mod) (rq : Req) (st : Nat) (b : Bytes) : (m.respond rq st b).handoverOpen = m.handoverOpen := rfl

@[simp] theorem Mod.touchSession_handoverOpen (m : Mod) (i : Nat) : (m.touchSession i).handoverOpen = m.handoverOpen := rfl

@[simp] theorem Mod.resend_handoverOpen (m : Mod) (rq : Req) (r : Resp) : (m.resend rq r).handoverOpen = m.handoverOpen := by
  rw [Mod.handoverOpen, Mod.resend_eap, Mod.handoverOpen]

@[simp] theorem Mod.busyChange_handoverOpen (m : Mod) : m.busyChange.handoverOpen = m.handoverOpen := by
  unfold Mod.busyChange; split <;> rfl

section Request
variable {c : Instr} {rq : Req} {s : State} {k : Mod} (hr : requestOf c = some rq)
include hr

/-- What serving a request comes to whatever it asks for. -/
theorem makes_of_serve (hk : ∀ f, s.m.serve rq f = k) (ho : k.handoverOpen = s.m.handoverOpen) : Makes c s k := by
  have hcmd (idx role : Nat) (p5 im : Bool) (f) : s.m.command rq idx role p5 im f = k := hk _
  have halarm (f) : s.m.alarmRequest rq f = k := hk _
  cases c <;> cases hr
  case handover force => exact makes_of_next rfl (by simp [hcmd, ho])
  case alarmAck | alarmShelve | alarmUnshelve | alarmOutOfService | alarmReturnToService => exact makes_of_next rfl (halarm _)
  all_goals exact makes_of_next rfl (hk _)

/-- What a COMMAND comes to whatever its object does. -/
theorem makes_of_command {idx role : Nat} {p5 im : Bool} (hc : commandObject c = some (idx, role, p5, im))
    (hk : ∀ f, s.m.command rq idx role p5 im f = k) (ho : k.handoverOpen = s.m.handoverOpen) : Makes c s k := by
  cases c <;> cases hr <;> cases hc
  case handover force => exact makes_of_next rfl (by simp [hk, ho])
  all_goals exact makes_of_next rfl (hk _)

/-- What a WRITE of one object comes to whatever the object does. -/
theorem makes_of_writeOne {role : Nat} {im : Bool} (hc : writeObject c = some (role, im)) (hk : ∀ f, s.m.writeOne rq role im f = k) :
    Makes c s k := by
  cases c <;> cases hr <;> cases hc
  all_goals exact makes_of_next rfl (hk _)

/-- What a read that clears comes to whatever it reads. -/
theorem makes_of_readClear (hc : readsAndClears c = true) (hk : ∀ f, s.m.readClear rq f = k) : Makes c s k := by
  cases c <;> cases hr <;> cases hc
  all_goals exact makes_of_next rfl (hk _)

end Request

/-- Settles O54: a request is decided by its session before its meaning is asked, and a request heard by the role, the port and the state
that its object asks for. -/
theorem requestsNeedTheirSessionAndRunOnce : Obligations.RequestsNeedTheirSessionAndRunOnce := by
  unfold Obligations.RequestsNeedTheirSessionAndRunOnce
  refine ⟨⟨fun c rq s hr => ⟨fun h => ?unheard, fun x r hl hs ht => ?again, fun x hl hs ht => ⟨fun hw => ?waits, fun hw h8 => ?full⟩⟩,
    fun c rq s x idx role p5 im hr hc ⟨hl, hs, ht⟩ => ⟨fun h => ?role, fun hx hp => ⟨fun hm hi => ?maint, fun hm ho => ?held⟩⟩⟩,
    fun c rq s x hr ⟨hl, hs, ht⟩ => ⟨fun role im hc => ⟨fun h => ?writeRole, fun h hm hi => ?writeMaint⟩, fun hc hm => ?readMaint⟩⟩
  case unheard =>
    obtain hl | hs := h
    · exact makes_of_serve hr (Mod.serve_held hl rq) rfl
    · exact makes_of_serve hr (fun f => Mod.serve_none f hs) rfl
  case again => exact makes_of_serve hr (fun f => Mod.serve_again f hl hs ht) (by simp)
  case waits => exact makes_of_serve hr (fun f => Mod.serve_waits f hl hs ht hw) rfl
  case full => exact makes_of_serve hr (fun f => Mod.serve_busy f hl hs ht hw h8) (by simp)
  case role => exact makes_of_command hr hc (fun f => Mod.command_role f hl hs ht h) (by simp)
  case maint => exact makes_of_command hr hc (fun f => Mod.command_maint f hl hs ht hx hp hm hi) (by simp)
  case held => exact makes_of_command hr hc (fun f => Mod.command_open f hl hs ht hx hp hm ho) (by split <;> simp)
  case writeRole => exact makes_of_writeOne hr hc fun f => Mod.writeOne_role f hl hs ht h
  case writeMaint => exact makes_of_writeOne hr hc fun f => Mod.writeOne_maint f hl hs ht h hm hi
  case readMaint => exact makes_of_readClear hr hc fun f => Mod.readClear_maint f hl hs ht hm

end Sys2Proof.Machine
end

section
/-! The CAN controllers: they run on a live module whose clocks are on the PLL (R502). -/

namespace Sys2Proof.Machine

theorem Mod.whenCan_runs {m : Mod} (f : Mod → Mod) (hl : m.live = true) (ho : m.clk.override = false) : m.whenCan f = f m :=
  if_pos (by simp [hl, ho])

theorem Mod.whenCan_stopped {m : Mod} (f : Mod → Mod) (h : m.live = false ∨ m.clk.override = true) : m.whenCan f = m :=
  if_neg (by rcases h with h | h <;> simp [h])

section Can
variable {c : Instr} {s : State} {f : Mod → Mod}

theorem makes_self_of_canStopped (h : s.m.live = false ∨ s.m.clk.override = true) (hc : exec c s = s.run (·.whenCan f)) : Makes c s s.m :=
  makes_of_run hc (Mod.whenCan_stopped f h)

section
variable (hl : s.m.live = true) (ho : s.m.clk.override = false)
include hl ho

theorem makes_onCan {k : Mod} (hc : exec c s = s.run (·.whenCan f)) (hk : f s.m = k) : Makes c s k :=
  makes_of_run hc ((Mod.whenCan_runs f hl ho).trans hk)

/-- A timer of a controller, armed. -/
theorem makes_onCan_due {due : Mod → Option Nat} {d : Nat} {k : Mod} (hc : exec c s = s.run (·.whenCan fun m => m.onDue (due m) f))
    (hd : due s.m = some d) (hk : f (s.m.to d) = k) : Makes c s k :=
  makes_onCan hl ho hc (by rw [hd, Mod.onDue_some, hk])

/-- One that is not armed. -/
theorem makes_onCan_unarmed {due : Mod → Option Nat} (hc : exec c s = s.run (·.whenCan fun m => m.onDue (due m) f))
    (hd : due s.m = none) : Makes c s s.m :=
  makes_onCan hl ho hc (by rw [hd, Mod.onDue_none])

end
end Can

section Frame
variable {m : Mod} {c : Nat} {f : CanFrame}

/-- What controller `c` makes of a frame, and the object that stores it (R435); how long the frame took is drawn before. -/
abbrev Mod.canResult (m : Mod) (c : Nat) (f : CanFrame) : Can × Option Nat :=
  let n := m.draw.2
  (n.can c).receive (n.canCfg c) n.cfg.can.cands f n.act n.dt n.mono m.draw.1.toNat

/-- The module whose controller `c` has received a frame. -/
abbrev Mod.canTaken (m : Mod) (c : Nat) (f : CanFrame) : Mod :=
  let r := m.canResult c f
  ((m.draw.2.updCan c fun _ => r.1.stamped r.2 (m.draw.2.canSof c f)).count 0x60 c 1).logCan c (m.can c).st

theorem Mod.canReceived_unstored (h : (m.canResult c f).2 = none) : m.canReceived c f = m.canTaken c f := by
  simp only [Mod.canReceived, Mod.canTaken, h]

theorem Mod.canReceived_stored {obj : Nat} (h : (m.canResult c f).2 = some obj) :
    m.canReceived c f = (m.canTaken c f).trigger 2 obj fun q => q == c := by
  simp only [Mod.canReceived, Mod.canTaken, h]

theorem Mod.canSent_none (h : ((m.can c).txSuccess (m.canCfg c)).2 = none) :
    m.canSent c = m.updCan c fun _ => ((m.can c).txSuccess (m.canCfg c)).1 := by
  simp only [Mod.canSent, h]

theorem Mod.canSent_some (h : ((m.can c).txSuccess (m.canCfg c)).2 = some f) :
    m.canSent c = ((m.updCan c fun _ => ((m.can c).txSuccess (m.canCfg c)).1).send (.can c f)).count 0x60 c 1 := by
  simp only [Mod.canSent, h]

end Frame

/-- Settles O29: a frame, an error or a timer acts on its controller where the controllers run, and none does where they are stopped. -/
theorem canFramesMoveThroughTheirObjects : Obligations.CanFramesMoveThroughTheirObjects := by
  unfold Obligations.CanFramesMoveThroughTheirObjects
  intro s c m
  refine ⟨fun hl ho => ⟨fun f => ⟨fun ht => ?tested, fun ht => ⟨fun h => ?heard, fun obj h => ?stored⟩⟩,
    ⟨fun h => ?nothingSent, fun f h => ?sent⟩, ?lost, fun e tx => ?error, fun obj => ⟨fun d h => ?tx, fun h => ?txIdle, fun d h => ?rx, fun h => ?rxIdle⟩⟩,
    fun h => ⟨fun f => ?frame, ?success, ?arbitration, fun e tx => ?busError, fun obj => ⟨?txtmo, ?rtmo⟩⟩⟩
  case tested => exact makes_onCan hl ho rfl (if_pos ht)
  case heard => exact makes_onCan hl ho rfl ((if_neg (Bool.eq_false_iff.mp ht)).trans (Mod.canReceived_unstored h))
  case stored => exact makes_onCan hl ho rfl ((if_neg (Bool.eq_false_iff.mp ht)).trans (Mod.canReceived_stored h))
  case nothingSent => exact makes_onCan hl ho rfl (Mod.canSent_none h)
  case sent => exact makes_onCan hl ho rfl (Mod.canSent_some h)
  case lost | error => exact makes_onCan hl ho rfl rfl
  case tx | rx => exact makes_onCan_due hl ho rfl h rfl
  case txIdle | rxIdle => exact makes_onCan_unarmed hl ho rfl h
  all_goals exact makes_self_of_canStopped h rfl

/-- Settles O30: each timer acts at the instant of its controller or session, where the controllers run. -/
theorem canRecoveryIntegrationAndTransport : Obligations.CanRecoveryIntegrationAndTransport := by
  unfold Obligations.CanRecoveryIntegrationAndTransport
  refine ⟨fun s c hl ho => ⟨fun d hb h => ?recovery, fun h => ?noRecovery, ?rejoins, fun ha => ?integrates, fun ha => ?withoutAct,
    fun d h => ?claimed, fun h => ?noClaim, fun i t h => ⟨fun hp => ⟨?packet, ?packetOnly⟩, fun hp => ⟨?partnerOnly, ?partner⟩⟩,
    fun i t h => ?reassembly, fun i h => ⟨?noPacket, ?noPartner⟩, fun i h => ?noReassembly⟩,
    fun s c h => ⟨?start, ?complete, ?integration, ?claim, fun i => ?timer, fun rx i => ?session⟩⟩
  case recovery => exact makes_onCan_due hl ho rfl ((if_pos hb).trans h) rfl
  case noRecovery => exact makes_onCan_unarmed hl ho rfl (by rcases h with h | h <;> simp [h])
  case rejoins => exact makes_onCan hl ho rfl rfl
  case integrates => exact makes_onCan hl ho rfl (if_pos ha)
  case withoutAct => exact makes_onCan hl ho rfl (if_neg (Bool.eq_false_iff.mp ha))
  case claimed => exact makes_onCan_due hl ho rfl h rfl
  case noClaim => exact makes_onCan_unarmed hl ho rfl h
  case packet | partner => exact makes_onCan_due hl ho rfl (by simp [h, hp]) rfl
  case packetOnly | partnerOnly => exact makes_onCan_unarmed hl ho rfl (by simp [h, hp])
  case reassembly => exact makes_onCan_due hl ho rfl (by simp [h]) rfl
  case noPacket | noPartner | noReassembly => exact makes_onCan_unarmed hl ho rfl (by simp [h])
  all_goals exact makes_self_of_canStopped h rfl

end Sys2Proof.Machine
end

section
/-! Timers of a live module, and the digital channels: filter, diagnosis and dark tests. -/

namespace Sys2Proof.Machine

section Timer
variable {c : Instr} {s : State} {f g : Mod → Mod} {n k : Mod} {due : Option Nat}
  (hl : s.m.live = true) (hc : exec c s = s.run (·.whenLive g)) (hg : g s.m = n.onDue due f)
include hl hc hg

/-- A timer that is armed; `n` is the module as the command finds it or has noted before. -/
theorem makes_due {d : Nat} (hd : due = some d) (hk : f (n.to d) = k) : Makes c s k :=
  makes_of_live hl hc (by rw [hg, hd, Mod.onDue_some, hk])

/-- A timer that is not armed. -/
theorem makes_unarmed (hd : due = none) : Makes c s n :=
  makes_of_live hl hc (by rw [hg, hd, Mod.onDue_none])

end Timer

/-- Settles O24: each is an event or a timer of a live module, and the field supply is a level of every state. -/
theorem digitalInputsDebounceAndDiagnose : Obligations.DigitalInputsDebounceAndDiagnose := by
  unfold Obligations.DigitalInputsDebounceAndDiagnose
  refine fun s => ⟨fun hl ch => ⟨fun samples => ?samples, fun d h => ?flicker, fun h => ?noFlicker, fun d h => ?stuck, fun h => ?notStuck, ?chatter⟩,
    fun grp mv => ?supply⟩
  case samples | chatter => exact makes_of_live hl rfl rfl
  case flicker | stuck => exact makes_due hl rfl rfl h rfl
  case noFlicker | notStuck => exact makes_unarmed hl rfl rfl h
  case supply => exact makes_of_run (f := (·.ufLevel grp mv)) rfl rfl

/-- Noting the expected level of a pin does not decide whether it is judged for the partner. -/
theorem Mod.noteExpected_parallel (m : Mod) (ch : Nat) : (m.noteExpected ch).parallel ch = m.parallel ch := rfl

/-! A pin that is not paralleled, and a paralleled one, whose expected level is noted first (R461, R464). -/

section Parallel
variable {s : State} {ch : Fin 32} (hl : s.m.live = true)
include hl

section
variable (hp : s.m.parallel ch = false)
include hp

theorem makes_extDrive_single (hd : s.m.extDriveSeen ch = true) :
    let h := s.m.dioCh ch
    Makes (.extDrive ch) s
      ((s.m.to (Nat.max (h.offAt + phMs 1) (h.trueFrom.getD 0) + phMs 1)).updDio ch fun h => { h with extDrive := true, extSeen := true }) :=
  makes_of_live hl rfl (by simp [hp, hd])

theorem makes_extDrive_single_idle (hd : s.m.extDriveSeen ch = false) : Makes (.extDrive ch) s s.m :=
  makes_of_live hl rfl (by simp [hp, hd])

theorem makes_partnerNoDrive_single : Makes (.partnerNoDrive ch) s s.m :=
  makes_of_live hl rfl (by simp [hp])

end

section
variable (hp : s.m.parallel ch = true)
include hp

theorem makes_extDrive_parallel (hd : (s.m.noteExpected ch).extDriveSeen ch = true) :
    let n := s.m.noteExpected ch
    Makes (.extDrive ch) s ((n.to ((n.dioCh ch).maskFrom + phMs 1)).updDio ch fun h => { h with extDrive := true, extSeen := true }) :=
  makes_of_live hl rfl (by simp [hp, hd, Mod.noteExpected_parallel])

theorem makes_extDrive_parallel_idle (hd : (s.m.noteExpected ch).extDriveSeen ch = false) : Makes (.extDrive ch) s (s.m.noteExpected ch) :=
  makes_of_live hl rfl (by simp [hp, hd])

theorem makes_partnerNoDrive_parallel (he : ((s.m.noteExpected ch).dioCh ch).expected = true)
    (hv : ((s.m.noteExpected ch).dioCh ch).level = false) :
    let n := s.m.noteExpected ch
    Makes (.partnerNoDrive ch) s ((n.to ((n.dioCh ch).maskFrom + phMs 1)).updDio ch fun h => { h with partnerNoDrive := true }) :=
  makes_of_live hl rfl (by simp [hp, he, hv, Mod.noteExpected_parallel])

theorem makes_partnerNoDrive_parallel_idle
    (h : ((s.m.noteExpected ch).dioCh ch).expected = false ∨ ((s.m.noteExpected ch).dioCh ch).level = true) :
    Makes (.partnerNoDrive ch) s (s.m.noteExpected ch) :=
  makes_of_live hl rfl (by rcases h with h | h <;> simp [hp, h])

end
end Parallel

section DarkTest
variable {s : State} {ch : Fin 32} (hl : s.m.live = true)
include hl

theorem makes_darkTestEnd {a : Nat} (below5V : Bool) (ht : (s.m.dioCh ch).testFrom = some a) :
    Makes (.darkTestEnd ch below5V) s ((if below5V then s.m else s.m.to (a + phUs 250)).updDio ch fun h =>
      { h with testFrom := none, darkFail := !below5V, darkSeen := h.darkSeen || !below5V }) :=
  makes_of_live hl rfl (by simp only [ht])

theorem makes_darkTestEnd_none (below5V : Bool) (ht : (s.m.dioCh ch).testFrom = none) : Makes (.darkTestEnd ch below5V) s s.m :=
  makes_of_live hl rfl (by simp only [ht])

end DarkTest

/-- Settles O25: a fault is an event or a timer of a live module, on a paralleled pin after its expected level is noted. -/
theorem digitalOutputsProtectAndTestTheirStages : Obligations.DigitalOutputsProtectAndTestTheirStages := by
  unfold Obligations.DigitalOutputsProtectAndTestTheirStages
  refine fun s hl ch => ⟨?overload, ?thermal, ?recovery, ?openLoad, fun hL hC => ?release, fun h => ?notReleased,
    fun hp => ⟨fun hd => ?drive, fun hd => ?noDrive, ?noPartner⟩,
    fun hp => ⟨fun hd => ?drivePaired, fun hd => ?noDrivePaired, fun he hv => ?partner, fun h => ?partnerDrives⟩,
    fun he hv => ?clear, fun h => ?notClear, fun ha => ?start, fun ha => ?notAllowed, fun a ht => ⟨?fell, ?stayed⟩, fun low ht => ?noTest⟩
  case overload | thermal | recovery | openLoad => exact makes_of_live hl rfl rfl
  case release => exact makes_due hl rfl rfl (if_pos (by simp [hL, hC])) rfl
  case notReleased => exact makes_unarmed hl rfl rfl (if_neg (by rcases h with h | h <;> simp [h]))
  case drive => exact makes_extDrive_single hl hp hd
  case noDrive => exact makes_extDrive_single_idle hl hp hd
  case noPartner => exact makes_partnerNoDrive_single hl hp
  case drivePaired => exact makes_extDrive_parallel hl hp hd
  case noDrivePaired => exact makes_extDrive_parallel_idle hl hp hd
  case partner => exact makes_partnerNoDrive_parallel hl hp he hv
  case partnerDrives => exact makes_partnerNoDrive_parallel_idle hl hp h
  case clear => exact makes_due hl rfl rfl (if_pos (by simp [he, hv])) rfl
  case notClear => exact makes_unarmed hl rfl rfl (if_neg (by rcases h with h | h <;> simp [h]))
  case start => exact makes_of_live hl rfl (if_pos ha)
  case notAllowed => exact makes_of_live hl rfl (if_neg (Bool.eq_false_iff.mp ha))
  case fell => simpa using makes_darkTestEnd hl true ht
  case stayed => simpa using makes_darkTestEnd hl false ht
  case noTest => exact makes_darkTestEnd_none hl low ht

end Sys2Proof.Machine
end

section
/-! Pulse and encoder inputs, current loops and HART devices. -/

namespace Sys2Proof.Machine

/-- Settles O26: each is an event of an input of its kind, or a timer of a live module. -/
theorem pulseAndEncoderInputsCount : Obligations.PulseAndEncoderInputsCount := by
  unfold Obligations.PulseAndEncoderInputsCount
  refine fun s hl => ⟨fun p rising w => ?edge, fun p a h => ?silent, fun p h => ?noEdge,
    fun e => ⟨fun up => ?step, ?zEdge, ?invalid, fun a h => ?faultEnds, fun h => ?noFault, fun raw low high => ⟨fun a h => ?telegram, fun h => ?noTelegram⟩⟩,
    ?supply⟩
  case edge | step | zEdge | invalid | supply => exact makes_of_live hl rfl rfl
  case silent | faultEnds | telegram => exact makes_due hl rfl rfl (by rw [h]; rfl) rfl
  case noEdge | noFault | noTelegram => exact makes_unarmed hl rfl rfl (by rw [h]; rfl)

/-- Settles O27: a conversion needs a channel in use, a timer its condition. -/
theorem analogueChannelsConvertSenseAndProtect : Obligations.AnalogueChannelsConvertSenseAndProtect := by
  unfold Obligations.AnalogueChannelsConvertSenseAndProtect
  refine fun s hl => ⟨fun ch => ⟨fun raw => ⟨fun h => ?unused, fun h => ?converts⟩, fun ua => ?supply, ?trip, fun ht hs => ?restart, fun h => ?noRestart⟩,
    fun ch => ⟨fun mA => ?sense, fun h => ?clear, fun h => ?compliant, fun hot => ?junction⟩⟩
  case unused => exact makes_of_live hl rfl (if_pos h)
  case converts => exact makes_of_live hl rfl (if_neg h)
  case supply | trip | sense | junction => exact makes_of_live hl rfl rfl
  case restart => exact makes_due hl rfl rfl (if_pos (by simp [ht, hs])) rfl
  case noRestart => exact makes_unarmed hl rfl rfl (if_neg (by rcases h with h | h <;> simp [h]))
  case clear => exact makes_due hl rfl rfl (if_pos h) rfl
  case compliant => exact makes_unarmed hl rfl rfl (if_neg (Bool.eq_false_iff.mp h))

/-! A HART response by the transaction in progress (R491, R492). -/

section Response
variable {m : Mod} {k : Nat} {r : HartRsp}

theorem Mod.hartAnswer_idle (ht : (m.hartDev k).trans = none) :
    m.hartAnswer k r = if m.act then m.hartHeard k r else (m.hartHeard k r).updHart k fun d => { d with st := 2 } := by
  simp only [Mod.hartAnswer, ht]

variable {t : HartTrans} (ht : (m.hartDev k).trans = some t)
include ht

theorem Mod.hartAnswer_other (hc : (hartCmd (m.hartCfg k) t m.an.pt).1 ≠ r.cmd) : m.hartAnswer k r = m.hartHeard k r := by
  simp only [Mod.hartAnswer, ht, if_pos hc]

theorem Mod.hartAnswer_ends (hc : (hartCmd (m.hartCfg k) t m.an.pt).1 = r.cmd) : m.hartAnswer k r =
    let m2 := (m.hartHeard k r).updHart k fun d => { d with trans := none, tries := 0, fails := 0 }
    (if t = .pass then m2.ptEnd 0 r.rc r.devStat r.data else m2).hartGo k := by
  simp only [Mod.hartAnswer, ht, if_neg (not_not.mpr hc)]

end Response

/-! The pass-through request, check by check (R493). -/

section PassThrough
variable {m : Mod} {data : Bytes}

/-- The request that the data spell (R493). -/
abbrev Mod.ptOf (m : Mod) (data : Bytes) : HartPt :=
  { entry := (at_ data 0 0).toNat, cmd := at_ data 1 0, tag := at_ data 3 0, data := data.drop 4, due := m.mono + phS 2 }

/-- The module that reports the state `pstat` of the request. -/
abbrev Mod.ptTells (m : Mod) (data : Bytes) (pstat : Nat) : Mod :=
  { m with an := { m.an with ptRsp := ptResponse (m.ptOf data) pstat 0 0 [] } }

/-- The data are as long as they say, and not too long. -/
structure PtWellFormed (data : Bytes) : Prop where
  length : data.length = 4 + (at_ data 2 0).toNat
  le : (at_ data 2 0).toNat ≤ 240

theorem Mod.ptRequest_length (h : data.length < 4 ∨ data.length ≠ 4 + (at_ data 2 0).toNat ∨ 240 < (at_ data 2 0).toNat) :
    m.ptRequest data = (m, stLength) := if_pos h

theorem Mod.ptRequest_wellFormed (h : PtWellFormed data) : m.ptRequest data =
    if m.cfg.hart.length ≤ (m.ptOf data).entry then (m, stRange)
    else if !m.act then (m.ptTells data 3, stNotActive)
    else if m.an.pt.isSome then (m.ptTells data 5, stBusy)
    else if (m.hartDev (m.ptOf data).entry).st = 3 then (m.ptTells data 4, stOk)
    else (({ m with an := { m.an with pt := some (m.ptOf data), ptRsp := ptResponse (m.ptOf data) 1 0 0 [] } } : Mod).hartGo (m.ptOf data).entry, stOk) := by
  obtain ⟨hlen, hle⟩ := h
  unfold Mod.ptRequest
  simp only [BitVec.ofNat_toNat, BitVec.setWidth_eq]
  exact if_neg (by omega)

section
variable (h : PtWellFormed data)
include h

theorem Mod.ptRequest_range (hk : m.cfg.hart.length ≤ (m.ptOf data).entry) : m.ptRequest data = (m, stRange) :=
  (Mod.ptRequest_wellFormed h).trans (if_pos hk)

variable (hk : (m.ptOf data).entry < m.cfg.hart.length)
include hk

theorem Mod.ptRequest_notActive (ha : m.act = false) : m.ptRequest data = (m.ptTells data 3, stNotActive) := by
  rw [Mod.ptRequest_wellFormed h, if_neg (Nat.not_le.mpr hk), if_pos (by simp [ha])]

variable (ha : m.act = true)
include ha

theorem Mod.ptRequest_busy (hp : m.an.pt.isSome = true) : m.ptRequest data = (m.ptTells data 5, stBusy) := by
  rw [Mod.ptRequest_wellFormed h, if_neg (Nat.not_le.mpr hk), if_neg (by simp [ha]), if_pos hp]

variable (hp : m.an.pt = none)
include hp

theorem Mod.ptRequest_lost (hs : (m.hartDev (m.ptOf data).entry).st = 3) : m.ptRequest data = (m.ptTells data 4, stOk) := by
  rw [Mod.ptRequest_wellFormed h, if_neg (Nat.not_le.mpr hk), if_neg (by simp [ha]), if_neg (by simp [hp]), if_pos hs]

theorem Mod.ptRequest_queued (hs : (m.hartDev (m.ptOf data).entry).st ≠ 3) : m.ptRequest data =
    (({ m with an := { m.an with pt := some (m.ptOf data), ptRsp := ptResponse (m.ptOf data) 1 0 0 [] } } : Mod).hartGo (m.ptOf data).entry,
      stOk) := by
  rw [Mod.ptRequest_wellFormed h, if_neg (Nat.not_le.mpr hk), if_neg (by simp [ha]), if_neg (by simp [hp]), if_neg hs]

end
end PassThrough

/-- A pass-through request that is queued ends 2 s after its acceptance (R493). -/
theorem makes_hartPtTimeout {s : State} {p : HartPt} (hl : s.m.live = true) (hp : s.m.an.pt = some p) :
    Makes .hartPtTimeout s ((((s.m.to p.due).ptEnd 2 0 0 []).updHart p.entry fun d =>
      if d.trans = some .pass then { d with trans := none, tries := 0 } else d).hartGo p.entry) :=
  makes_due hl rfl rfl (by rw [hp]; rfl) (by simp only [Mod.to_an, hp])

/-- Settles O28: a response, a burst and a timer act on their device by its transaction and state; a request comes to the first of its
checks that decides it. -/
theorem hartDevicesAnswerFailAndPassThrough : Obligations.HartDevicesAnswerFailAndPassThrough := by
  unfold Obligations.HartDevicesAnswerFailAndPassThrough
  refine ⟨fun s hl => ⟨fun k => ⟨fun r hk => ⟨fun ht ha => ?heard, fun ht ha => ?heardOnly, fun t ht => ⟨fun hc => ?other, fun hc => ?ends⟩⟩,
      fun r hk => ⟨?noDevice, ?noBurstDevice⟩, fun r hk => ⟨fun hb => ?burst, fun hb => ?noBurst⟩, fun ht => ?fails, fun ht => ?idle,
      fun a hs h => ?again, fun hs => ?notLost, fun a h => ?scan, fun h => ?noScan⟩,
      fun rq x data h hr hm hlen hle hk ha hp hs => ?queued, fun p hp => ?timeout, fun hp => ?noRequest⟩,
    fun s rq x data h hr hm => ⟨fun hlen => ?length, fun hlen hle => ⟨fun hk => ?range, fun hk => ⟨fun ha => ?notActive,
      fun ha => ⟨fun hp => ?busy, fun hp hs => ?lost⟩⟩⟩⟩⟩
  case heard => exact makes_of_live hl rfl ((if_pos hk).trans ((Mod.hartAnswer_idle ht).trans (if_pos ha)))
  case heardOnly => exact makes_of_live hl rfl ((if_pos hk).trans ((Mod.hartAnswer_idle ht).trans (if_neg (Bool.eq_false_iff.mp ha))))
  case other => exact makes_of_live hl rfl ((if_pos hk).trans (Mod.hartAnswer_other ht hc))
  case ends => exact makes_of_live hl rfl ((if_pos hk).trans (Mod.hartAnswer_ends ht hc))
  case noDevice => exact makes_of_live hl rfl (if_neg (Nat.not_lt.mpr hk))
  case noBurstDevice => exact makes_of_live hl rfl (if_neg (by simp [hk]))
  case burst => exact makes_of_live hl rfl (if_pos (by simp [hb, hk]))
  case noBurst => exact makes_of_live hl rfl (if_neg (by simp [hb]))
  case fails => exact makes_of_live hl rfl (if_pos ht)
  case idle => exact makes_of_live hl rfl (if_neg (by simp [ht]))
  case again => exact makes_due hl rfl rfl ((if_pos hs).trans h) rfl
  case notLost => exact makes_unarmed hl rfl rfl (if_neg hs)
  case scan => exact makes_due hl rfl rfl h rfl
  case noScan => exact makes_unarmed hl rfl rfl h
  case timeout => exact makes_hartPtTimeout hl hp
  case noRequest => exact makes_unarmed hl rfl rfl (by rw [hp]; rfl)
  case queued => exact makes_writeOne h rfl hr hm (Mod.ptRequest_queued ⟨hlen, hle⟩ hk ha hp hs)
  case length => exact makes_writeOne h rfl hr hm (Mod.ptRequest_length hlen)
  case range => exact makes_writeOne h rfl hr hm (Mod.ptRequest_range ⟨hlen, hle⟩ hk)
  case notActive => exact makes_writeOne h rfl hr hm (Mod.ptRequest_notActive ⟨hlen, hle⟩ hk ha)
  case busy => exact makes_writeOne h rfl hr hm (Mod.ptRequest_busy ⟨hlen, hle⟩ hk ha hp)
  case lost => exact makes_writeOne h rfl hr hm (Mod.ptRequest_lost ⟨hlen, hle⟩ hk ha hp hs)

end Sys2Proof.Machine
end

section
/-! Clocks: CMON, lock and derailleur, the frequency counter, and gating. -/

namespace Sys2Proof.Machine

/-! A timer that runs in every state, also in reset. -/

section Timer
variable {c : Instr} {s : State} {f : Mod → Mod} {k : Mod} {due : Option Nat} (hc : exec c s = .next { s with m := s.m.onDue due f })
include hc

theorem makes_due_always {d : Nat} (hd : due = some d) (hk : f (s.m.to d) = k) : Makes c s k :=
  makes_of_next hc (by rw [hd, Mod.onDue_some, hk])

theorem makes_unarmed_always (hd : due = none) : Makes c s s.m :=
  makes_of_next hc (by rw [hd, Mod.onDue_none])

end Timer

theorem cmonPasses_eq (n : Nat) : cmonPasses n = decide (226 ≤ n ∧ n ≤ 286) := (Bool.decide_and ..).symm

section Cmon
variable {s : State} (count : Nat)

/-- The module that keeps the count of a window (R500). -/
abbrev Mod.cmonCounted (m : Mod) (count : Nat) : Mod :=
  { m with clk := { m.clk with cmonCount := count, clkinOk := decide (226 ≤ count ∧ count ≤ 286) } }

theorem makes_cmonWindow_inhibited (he : s.m.clk.cmonEn = false) : Makes (.cmonWindow count) s s.m :=
  makes_of_next rfl (if_pos (by simp [he]))

section
variable (he : s.m.clk.cmonEn = true)
include he

theorem makes_cmonWindow_kept (h : (226 ≤ count ∧ count ≤ 286) ∨ s.m.clk.override = true) :
    Makes (.cmonWindow count) s (s.m.cmonCounted count) :=
  makes_of_next rfl ((if_neg (by simp [he])).trans (by simp [Mod.cmonCounted, cmonPasses_eq, h]))

theorem makes_cmonWindow_fault (hc : ¬ (226 ≤ count ∧ count ≤ 286)) (ho : s.m.clk.override = false) :
    Makes (.cmonWindow count) s ((s.m.cmonCounted count).clockFaults 1) :=
  makes_of_next rfl ((if_neg (by simp [he])).trans (by simp [Mod.cmonCounted, cmonPasses_eq, hc, ho]))

end
end Cmon

/-- Settles O31: a window, a loss of lock or a stall forces the override where its condition says, and a completed switch may end it. -/
theorem clockSupervisionForcesAndLeavesTheOverride : Obligations.ClockSupervisionForcesAndLeavesTheOverride := by
  unfold Obligations.ClockSupervisionForcesAndLeavesTheOverride
  refine fun s => ⟨fun count => ⟨fun he => ?inhibited, fun he h => ?passes, fun he hc ho => ?fault⟩, fun hp ho => ?unlock, fun h => ?noUnlock,
    fun count => ⟨fun hq => ?qualified, fun hq => ?unqualified⟩,
    fun d => ⟨fun h => ?switches, fun ho hc => ?leaves, fun w hw => ?stalls, fun h => ?noSwitch⟩⟩
  case inhibited => exact makes_cmonWindow_inhibited count he
  case passes => exact makes_cmonWindow_kept count he h
  case fault => exact makes_cmonWindow_fault count he hc ho
  case unlock => exact makes_of_next rfl (if_pos (by simp [hp, ho]))
  case noUnlock => exact makes_of_next rfl (if_neg (by rcases h with h | h <;> simp [h]))
  case qualified => exact makes_of_next rfl (by simp only [if_pos hq])
  case unqualified => exact makes_of_next rfl (by simp only [if_neg (Bool.eq_false_iff.mp hq)])
  case switches => exact makes_of_next rfl (if_neg (by rcases h with h | h <;> simp [h]))
  case leaves => exact makes_of_next rfl (if_pos (by simp [ho, hc]))
  case stalls => exact makes_due_always rfl (by rw [hw]; rfl) rfl
  case noSwitch => exact makes_unarmed_always rfl (by rw [h]; rfl)

/-! A write of `CLK_SWITCH` and of `FMC_REQ`, check by check (R504, R506). -/

section Write
variable {m : Mod}

section
variable {v : BitVec 16}

theorem Mod.writeClkSwitch_outside (hm : m.maint = false) : m.writeClkSwitch v = (m, stCondition) := if_pos (by simp [hm])

variable (hm : m.maint = true)
include hm

theorem Mod.writeClkSwitch_range (h : 4 < v.toNat % 256 ∨ 1 < v.toNat / 256) : m.writeClkSwitch v = (m, stRange) :=
  (if_neg (by simp [hm])).trans (if_pos h)

variable (hd : v.toNat % 256 ≤ 4)
include hd

theorem Mod.writeClkSwitch_override (hz : v.toNat / 256 = 0) (ho : m.clk.override = true) : m.writeClkSwitch v = (m, stCondition) :=
  (if_neg (by simp [hm])).trans ((if_neg (by omega)).trans (if_pos ⟨hz, ho⟩))

/-- The request of a domain is replaced, unless the domain runs from that source already (R506). -/
theorem Mod.writeClkSwitch_ok (hs : v.toNat / 256 ≤ 1) (ho : decide (v.toNat / 256 = 1) = false → m.clk.override = false) : m.writeClkSwitch v =
    let d := v.toNat % 256
    let osc := decide (v.toNat / 256 = 1)
    let rest := m.clk.switching.filter fun w => w.1 ≠ d
    ({ m with clk := { m.clk with switching := if at_ m.clk.src d false = osc then rest else rest ++ [(d, osc, m.mono)] } }, stOk) :=
  (if_neg (by simp [hm])).trans ((if_neg (by omega)).trans (if_neg fun ⟨hz, h⟩ => by simp [hz, h] at ho))

end

section
variable {v : BitVec 64}

/-- The measurement that the value asks for is one that the counter makes (R504). -/
structure FmcInRange (v : BitVec 64) : Prop where
  meas : v.toNat % 256 ≤ 7
  ref : v.toNat / 256 % 256 ≤ 7
  gateMin : 16 ≤ v.toNat / 2 ^ 32
  gateMax : v.toNat / 2 ^ 32 ≤ 16777216

theorem Mod.writeFmc_range (h : 7 < v.toNat % 256 ∨ 7 < v.toNat / 256 % 256 ∨ v.toNat / 2 ^ 32 < 16 ∨ 16777216 < v.toNat / 2 ^ 32) :
    m.writeFmc v = (m, stRange) := if_pos h

variable (h : FmcInRange v)
include h

theorem FmcInRange.not_outside : ¬ (7 < v.toNat % 256 ∨ 7 < v.toNat / 256 % 256 ∨ v.toNat / 2 ^ 32 < 16 ∨ 16777216 < v.toNat / 2 ^ 32) := by
  obtain ⟨h1, h2, h3, h4⟩ := h
  simp only [not_or, Nat.not_lt]
  exact ⟨h1, h2, h3, h4⟩

theorem Mod.writeFmc_gated (hg : m.clk.gated.contains .fmc = true) :
    m.writeFmc v = ({ m with clk := { m.clk with fmc := { m.clk.fmc with status := 4 } } }, stOk) :=
  (if_neg h.not_outside).trans (if_pos hg)

theorem Mod.writeFmc_starts (hg : m.clk.gated.contains .fmc = false) :
    m.writeFmc v = ({ m with clk := m.clk.fmcStart (v.toNat % 256) (v.toNat / 256 % 256) (v.toNat / 2 ^ 32) m.mono }, stOk) :=
  (if_neg h.not_outside).trans (if_neg (Bool.eq_false_iff.mp hg))

end
end Write

theorem Clk.ack_requested {c : Clk} {b : GateBlk} (h : (c.gating.any fun g => g.1 == b) = true) :
    c.ack b = { c with gating := c.gating.filter (fun g => g.1 ≠ b), gated := c.gated ++ [b] } := if_pos h

theorem Clk.ack_unrequested {c : Clk} {b : GateBlk} (h : (c.gating.any fun g => g.1 == b) = false) : c.ack b = c :=
  if_neg (Bool.eq_false_iff.mp h)

/-- A WRITE of one object that `MAINTENANCE` admits. -/
theorem makes_writeOne_admitted {c : Instr} {s : State} {rq : Req} {x : Session} {role : Nat} {f : Session → Mod → Mod × Nat} {k : Mod} {st : Nat}
    (h : heard s.m rq x) (hc : exec c s = s.run (·.writeOne rq role true f)) (hr : role ≤ x.role)
    (hf : f x (s.m.touchSession rq.sess) = (k, st)) : Makes c s (k.respond rq stOk (writeResult st)) := by
  obtain ⟨hl, hs, ht⟩ := h
  exact makes_of_run hc (by rw [Mod.writeOne_ok f hl hs ht hr fun _ => rfl, hf])

/-- Settles O32: a request comes to the first of its checks that decides it; the counter and the gates are timers and events of a live
module. -/
theorem clockRequestsMeasureSwitchAndGate : Obligations.ClockRequestsMeasureSwitchAndGate := by
  unfold Obligations.ClockRequestsMeasureSwitchAndGate
  refine ⟨fun s => ⟨fun rq x v h hr => ⟨fun hm => ?outside, fun hm hd hs ho => ?switch⟩, fun rq x v h hr hm h1 h2 h3 h4 hg => ?measure,
      fun hl => ⟨fun count => ⟨fun t ht => ?done, fun ht => ?notRunning⟩,
        fun b => ⟨fun ha => ?closes, fun ha => ?unrequested, fun g hg => ?abandoned, fun hg => ?notWaiting⟩⟩⟩,
    fun s rq x h => ⟨fun v hr hm => ⟨fun hv => ?noSource, fun hd hz ho => ?override⟩, fun v hr hm => ⟨fun hv => ?range, fun h1 h2 h3 h4 hg => ?gated⟩⟩⟩
  case outside => exact makes_writeOne_admitted h rfl hr (Mod.writeClkSwitch_outside hm)
  case switch => exact makes_writeOne_admitted h rfl hr (Mod.writeClkSwitch_ok hm hd hs ho)
  case noSource => exact makes_writeOne_admitted h rfl hr (Mod.writeClkSwitch_range hm hv)
  case override => exact makes_writeOne_admitted h rfl hr (Mod.writeClkSwitch_override hm hd hz ho)
  case measure => exact makes_writeOne h rfl hr hm (Mod.writeFmc_starts ⟨h1, h2, h3, h4⟩ hg)
  case range => exact makes_writeOne h rfl hr hm (Mod.writeFmc_range hv)
  case gated => exact makes_writeOne h rfl hr hm (Mod.writeFmc_gated ⟨h1, h2, h3, h4⟩ hg)
  case done => exact makes_due hl rfl rfl ht rfl
  case notRunning => exact makes_unarmed hl rfl rfl ht
  case closes => exact makes_of_live hl rfl (by rw [Clk.ack_requested ha])
  case unrequested => exact makes_of_live hl rfl (by rw [Clk.ack_unrequested ha])
  case abandoned => exact makes_due hl rfl rfl (by rw [hg]; rfl) rfl
  case notWaiting => exact makes_unarmed hl rfl rfl (by rw [hg]; rfl)

end Sys2Proof.Machine
end

section
/-! The supply: measurements, failure and hold-up, and the loss of core power. -/

namespace Sys2Proof.Machine

theorem Si.supply_eq (s : Si) (mv now : Nat) : s.supply mv now =
    if s.powered = false then s
    else if mv < 5000 then (if s.monLow then s else s.trip now)
    else if 5300 ≤ mv then { s with monLow := false } else s := by
  simp only [Si.supply, Bool.not_eq_true']

/-- A supply failure begins: V_OR is low, or a core rail is, outside hold-up and the reset (R510). -/
structure Mod.SupplyFailing (m : Mod) (mv : Nat) (rail : Bool) : Prop where
  low : mv < 5400 ∨ rail = true
  noHoldup : m.sup.holdupFrom = none
  noReset : m.sup.resetAsserted = false

theorem Mod.supplyFailing_iff {m : Mod} {mv : Nat} {rail : Bool} :
    ((decide (mv < 5400) || rail) && m.sup.holdupFrom.isNone && !m.sup.resetAsserted) = true ↔ m.SupplyFailing mv rail := by
  simp only [Bool.and_eq_true, Bool.or_eq_true, decide_eq_true_eq, Option.isNone_iff_eq_none, Bool.not_eq_true']
  exact ⟨fun ⟨⟨h1, h2⟩, h3⟩ => ⟨h1, h2, h3⟩, fun ⟨h1, h2, h3⟩ => ⟨⟨h1, h2⟩, h3⟩⟩

theorem Mod.not_supplyFailing {m : Mod} {mv : Nat} {rail : Bool}
    (h : (5400 ≤ mv ∧ rail = false) ∨ m.sup.holdupFrom.isSome = true ∨ m.sup.resetAsserted = true) : ¬ m.SupplyFailing mv rail := by
  rintro ⟨hlow, hh, hr⟩
  obtain ⟨hmv, hrail⟩ : 5400 ≤ mv ∧ rail = false := by simpa [hh, hr] using h
  simp only [hrail, Bool.false_eq_true, or_false] at hlow
  omega

/-- The module in hold-up, before a live one releases its claim (R486, R510). -/
def Mod.heldUp (m : Mod) (mv : Nat) : Mod :=
  ({ m with si := m.si.supply mv m.mono, sup := { m.sup.vor mv with holdupFrom := some m.mono },
            bkp := if m.bkp.locked then m.bkp else { m.bkp with pfTime := m.bkp.tai m.mono } } : Mod).shedAnalogue

theorem Mod.supplyFails_live {m : Mod} (mv : Nat) (hl : m.live = true) :
    m.supplyFails mv = ((m.heldUp mv).releaseClaim.toFailed 6).updTan fun t => { t with failedAt := none } := if_pos hl

theorem Mod.supplyFails_held {m : Mod} (mv : Nat) (hl : m.live = false) : m.supplyFails mv = m.heldUp mv :=
  if_neg (Bool.eq_false_iff.mp hl)

theorem makes_supplyFailure {s : State} {mv : Nat} {rail : Bool} (h : s.m.SupplyFailing mv rail) :
    Makes (.supplyFailure mv rail) s (s.m.supplyFails mv) :=
  makes_of_next rfl (if_pos (Mod.supplyFailing_iff.mpr h))

/-- Settles O33: a measurement enters in every state; failure, reset and exhaustion act where their conditions hold; `VOR_MIN` is served. -/
theorem supplyCrossesFailsAndHoldsUp : Obligations.SupplyCrossesFailsAndHoldsUp := by
  unfold Obligations.SupplyCrossesFailsAndHoldsUp
  refine fun s => ⟨fun mv => ⟨?vor, ?vin1, ?vin2, fun rail => ⟨fun hlow hh hr => ⟨fun hl => ?failsLive, fun hl => ?failsHeld⟩, fun h => ?noFailure⟩⟩,
    fun h => ?ready, fun h => ?notReady, fun hh hr => ?resets, fun h => ?noReset, fun a hr hc hh => ?exhausted, fun h => ?notExhausted,
    fun rq x h => ?least⟩
  case vor => exact makes_of_next (t := s.m.measureVor mv) rfl (by rw [Mod.measureVor, Si.supply_eq]; rfl)
  case vin1 | vin2 => exact makes_of_next rfl rfl
  case failsLive => simpa only [Mod.supplyFails_live mv hl, Mod.heldUp, Si.supply_eq] using makes_supplyFailure ⟨hlow, hh, hr⟩
  case failsHeld => simpa only [Mod.supplyFails_held mv hl, Mod.heldUp, Si.supply_eq] using makes_supplyFailure ⟨hlow, hh, hr⟩
  case noFailure => exact makes_of_next rfl (if_neg (mt Mod.supplyFailing_iff.mp (Mod.not_supplyFailing h)))
  case ready => exact makes_of_next rfl (if_neg (by simp [h]))
  case notReady => exact makes_of_next rfl (if_pos h)
  case resets => exact makes_of_next rfl (if_pos (by simp [hh, hr]))
  case noReset => exact makes_of_next rfl (if_neg (by rcases h with h | h <;> simp [h]))
  case exhausted => exact makes_of_next rfl ((if_pos (by simp [hr, hc])).trans (by rw [hh]; rfl))
  case notExhausted => exact makes_of_next rfl (if_neg (by rcases h with h | h <;> simp [h]))
  case least => exact makes_served h rfl rfl

end Sys2Proof.Machine
end

section
/-! The backup domain: feed, measurement, alarms and discipline. -/

namespace Sys2Proof.Machine

theorem Mod.live_of_bkp (m : Mod) (b : Bkp) : ({ m with bkp := b } : Mod).live = m.live := rfl

/-- The rise of `VBAT_LOW` is recorded on a live module (R512). -/
theorem makes_vbatMeasure (s : State) (mv : Nat) :
    let n : Mod := { s.m with bkp := { s.m.bkp with vbatMv := mv, vbatLow := decide (mv < 2200), vbatAbsent := decide (mv < 1000) } }
    Makes (.vbatMeasure mv) s (if mv < 2200 ∧ s.m.bkp.vbatLow = false ∧ s.m.live = true then n.log 1 3 8 0 [] else n) :=
  makes_of_next rfl (if_congr (by simp [Mod.live_of_bkp, Bkp.vbat, and_assoc]) rfl rfl)

/-- The RTC is not disciplined in reset, without a locked clock, or through a locked interface (R518). -/
theorem makes_rtcDiscipline_none {s : State} (h : s.m.live = false ∨ s.m.ptp.quality ≠ .locked ∨ s.m.bkp.locked = true) :
    Makes .rtcDiscipline s s.m := by
  cases hl : s.m.live with
  | false => exact makes_self_of_whenLive hl rfl
  | true => exact makes_of_live hl rfl (if_neg (by rcases h with h | h | h <;> simp_all))

/-- Settles O34: the domain keeps its feed, time and alarms in every state, by what its instants, thresholds and arming say; the discipline
needs a live module. -/
theorem backupDomainKeepsTimeAlarmsAndFeed : Obligations.BackupDomainKeepsTimeAlarmsAndFeed := by
  unfold Obligations.BackupDomainKeepsTimeAlarmsAndFeed
  refine fun s => ⟨fun mv => ⟨?lockout, ?changeover, ?measure⟩, ?unlock, ?por, fun t => ?compensates, fun i => ⟨fun ha => ?fires, fun ha => ?unarmed⟩,
    fun a h => ?pwron, fun h => ?pwronOff, fun hl hq hb => ?disciplines, fun h => ?undisciplined⟩
  case lockout | changeover | unlock | por | compensates => exact makes_of_next rfl rfl
  case measure => exact makes_vbatMeasure s mv
  case fires => exact makes_due_always rfl (if_pos ha) rfl
  case unarmed => exact makes_unarmed_always rfl (if_neg (Bool.eq_false_iff.mp ha))
  case pwron => exact makes_due_always rfl (by rw [h]; rfl) rfl
  case pwronOff => exact makes_unarmed_always rfl (by rw [h]; rfl)
  case disciplines => exact makes_of_live hl rfl (if_pos (by simp [hq, hb]))
  case undisciplined => exact makes_rtcDiscipline_none h

end Sys2Proof.Machine
end

section
/-! READ and WRITE through their items, and subscriptions. -/

namespace Sys2Proof.Machine

section Items
variable {items : List ObjRef}

/-- A READ of the module's own objects is one of 1 to 16 items (R567). -/
theorem not_readLength (h0 : items ≠ []) (h16 : items.length ≤ 16) :
    ¬ (items.isEmpty || decide (16 < items.length)) = true := by
  simp [h0, h16]

theorem readLength (h : items = [] ∨ 16 < items.length) : (items.isEmpty || decide (16 < items.length)) = true := by
  rcases h with h | h <;> simp [h]

@[simp] theorem Mod.touchSession_subs (m : Mod) (i : Nat) : (m.touchSession i).eap.subs = m.eap.subs := rfl

end Items

section Notify
variable {s : State} {subid : BitVec 8} (hl : s.m.live = true)
include hl

theorem makes_notifySend_none (hf : (s.m.eap.subs.find? fun k => k.subid == subid) = none) : Makes (.notifySend subid) s s.m :=
  makes_of_live hl rfl (by simp only [hf])

theorem makes_trendSample_none (hf : (s.m.eap.subs.find? fun k => k.subid == subid) = none) : Makes (.trendSample subid) s s.m :=
  makes_of_live hl rfl (by simp only [hf])

variable {k : Sub} (hf : (s.m.eap.subs.find? fun k => k.subid == subid) = some k)
include hf

theorem makes_notifySend : Makes (.notifySend subid) s
    (if s.m.notifies k then (s.m.to (k.notifyAt.getD s.m.mono)).notifyNow k else s.m) :=
  makes_of_live hl rfl (by simp only [hf])

theorem makes_trendSample {p : Nat} {items : List (BitVec 16 × BitVec 8)} (hr : k.req = .trend p items) :
    Makes (.trendSample subid) s ((s.m.toNow k.sampleAt).sampleTrend k p items) :=
  makes_of_live hl rfl (by simp only [hf, hr])

/-- A subscription that is no trend is not sampled. -/
theorem makes_trendSample_other (hr : ∀ p items, k.req ≠ .trend p items) : Makes (.trendSample subid) s s.m := by
  refine makes_of_live hl rfl ?_
  cases hk : k.req with
  | trend p items => exact absurd hk (hr p items)
  | _ => simp only [hf, hk]

end Notify

/-- Settles O43: a request heard is answered by the first of its checks that decides it; a notification and a trend need their subscription. -/
theorem readWriteAndSubscriptions : Obligations.ReadWriteAndSubscriptions := by
  unfold Obligations.ReadWriteAndSubscriptions
  refine ⟨fun s => ⟨fun rq x h => ⟨fun items h0 h16 => ?read, fun items h0 => ?write, fun r => ⟨fun hj => ?subscribes, fun hj => ?notSubscribed⟩,
      fun subid => ⟨fun hm hs => ?ends, fun hs => ?notEnded⟩⟩,
      fun role r w t u k acc => ⟨fun hfit => ?fits, fun hfit => ?fitsNot, rfl, rfl, rfl⟩,
      fun hl subid => ⟨fun hf => ⟨?noNotify, ?noTrend⟩, fun k hf => ⟨fun hn => ?notifies, fun hn => ?quiet, fun p items hr => ?samples, fun hr => ?noSample⟩⟩⟩,
    fun s rq x h => ⟨fun items hi => ?readLength, ?writeLength, fun tgt items ht hr => ?role⟩⟩
  case read => exact makes_served h rfl ((if_neg (not_not.mpr rfl)).trans (if_neg (not_readLength h0 h16)))
  case write => exact makes_served h rfl ((if_neg (not_not.mpr rfl)).trans (if_neg (by simpa using h0)))
  case subscribes => exact makes_served h rfl (if_pos hj)
  case notSubscribed => exact makes_served h rfl (if_neg hj)
  case ends => exact makes_served h rfl (if_neg (by rw [Mod.touchSession_maint, Mod.touchSession_subs, hm, hs]; exact Bool.false_ne_true))
  case notEnded => exact makes_served h rfl (if_pos (by rw [Mod.touchSession_maint, Mod.touchSession_subs]; rcases hs with hs | hs <;> simp only [hs, Bool.true_or, Bool.not_false, Bool.or_true]))
  case fits => exact if_pos hfit
  case fitsNot => exact if_neg (Nat.not_le.mpr hfit)
  case noNotify => exact makes_notifySend_none hl hf
  case noTrend => exact makes_trendSample_none hl hf
  case notifies => simpa only [if_pos hn] using makes_notifySend hl hf
  case quiet => simpa only [if_neg (Bool.eq_false_iff.mp hn)] using makes_notifySend hl hf
  case samples => exact makes_trendSample hl hf hr
  case noSample => exact makes_trendSample_other hl hf hr
  case readLength => exact makes_served h rfl ((if_neg (not_not.mpr rfl)).trans (if_pos (readLength hi)))
  case writeLength => exact makes_served h rfl rfl
  case role => exact makes_served h rfl ((if_pos ht).trans (if_pos hr))

end Sys2Proof.Machine
end
